-- ==== Sys2Proof/Word.lean ====
section
/-! DEFINITION. The widths of R107 and of the Notation section of 00_scope.md: registers are 32-bit words, memory is
bytes, network units are 256 bits, DSP instruction words are 48 bits. -/

namespace Sys2Proof

/-- One byte of a host buffer, a flash area, an image or capture memory. -/
abbrev Byte := BitVec 8

/-- One BAR0 register, or one 32-bit sample word (R107). -/
abbrev Word := BitVec 32

/-- One DSP data word (R195). -/
abbrev DWord := BitVec 24

/-- One DSP instruction word (R234). -/
abbrev IWord := BitVec 48

/-- One network unit (R366, R369). -/
abbrev NocUnit := BitVec 256

end Sys2Proof
end

