-- ==== Sys2Proof/Syntax.lean ====
section
/-! DEFINITION. The commands of the block: one constructor of `Instr` per row of the opcode table. A command is a
host access, a word of a protocol, or a happening on a pin, a clock or a link. Operands are plain numbers; WellFormed
says which values name something. -/

namespace Sys2Proof

/-- What the ECC of a core finds on the memory words that an instruction or a post reads (R197): nothing, single-bit errors in a number of
words, or a double-bit error. -/
inductive Ecc where
  | clean | single (words : Nat) | double
  deriving DecidableEq, Repr

/-- The end of a post of output stream `stream`, with what the ECC finds on the words that the output engine reads (R197, R213). -/
structure PostEnd where
  stream : Nat
  ecc : Ecc
  deriving DecidableEq, Repr

/-- The figures of one slice over a block of R110: code range in LSB, mean and AC rms in units of 2⁻⁸ LSB. -/
structure Figures where
  range : Nat
  mean : Int
  rms : Nat
  deriving DecidableEq, Repr

/-- What the checks of R110 take from a block: a redundancy error in a conversion, a sample that carries C because R104 limits it, the
figures of the slice, and those of other slices of the quad over the interval of the block, by slice number. -/
structure BlockStats where
  redundancy : Bool
  limited : Bool
  own : Figures
  others : List (Nat × Figures)
  deriving DecidableEq, Repr

/-- One of the 4,096 instants measured in a TRACK step (R132): the raw code of the standby, the raw codes of the channel's samples from
four before the instant to four after it, and whether a sample that it involves carries S, C or M (R133). -/
structure TrackPt where
  sb : Int
  xs : List Int
  marked : Bool
  deriving DecidableEq, Repr

/-- What a step of a standby run measured: the sum of 4,096 raw codes of a REF step (R131), or the instants of the TRACK step. -/
inductive RunSums where
  | ref (sum : Int)
  | track (pts : List TrackPt)
  deriving DecidableEq, Repr

/-- A unit as it reaches the far end of a link (R367, R390): its 256 bits, the CRC-32C that follows them, and its sequence number. -/
structure LinkUnit where
  bits : NocUnit
  crc : Nat
  seq : Nat
  deriving DecidableEq, Repr

/-- An error that a read of capture memory finds in a data unit (R401): the unit's place counted from capture address 0, and
whether two bits of it are wrong. -/
structure Flaw where
  unit : Nat
  double : Bool
  deriving DecidableEq, Repr

/-- A packet of the network: the fields of its header unit (R369), the NI at which it is, its data bytes, whether a link
failure has marked it poisoned (R368), for a raw tap the flags S, C, P, M of each sample (R408; what the model itself knows of S, C and M
is added to them), whether it has just crossed a chip link to that NI (R392), and the errors that a READ meets in the units it asks for
(R401). -/
structure Packet where
  cmd : Nat
  route : Nat
  hop : Nat
  len : Nat
  src : Nat
  tag : Nat
  domain : Nat
  lasth : Nat
  epoch : Nat
  aux : Nat
  addr : Nat
  point : Nat
  tick : Nat
  sub : Nat
  dst : Nat
  data : List Byte
  poisoned : Bool
  marks : List Nat
  crossed : Bool
  flaws : List Flaw
  deriving DecidableEq, Repr


/-- A descriptor slot that the device reads after a doorbell read (R433): its ring (0 the command ring, 1 + k data ring k)
and the 64 bytes found there. -/
structure Slot where
  ring : Nat
  bytes : List Byte
  deriving DecidableEq, Repr

/-- What a failed read of host memory was for (R443): the doorbell line, a descriptor of a ring (numbered as in `Slot`), or
the buffer of the descriptor that is next of its code. -/
inductive HostRead where
  | doorbell
  | descriptor (ring : Nat)
  | buffer (code : Nat)
  deriving DecidableEq, Repr

/-- The commands: one constructor per row of the table, in its order. `f` is the requesting function, `v` the word
written, `q` a quad, `k` a channel of it, `n` a chain, core or network interface. -/
inductive Instr where
  /-- SYSTEM_PLL_LOCK (R31): The system PLL and every present quad PLL report lock, and the first tick boundary is set 40 ns later. -/
  | systemPllLock
  /-- TICK_BOUNDARY (R37): The tick count of TICK_DIV × 10 ns expires, and the device performs steps 1 to 5 of boundary n in order. -/
  | tickBoundary
  /-- TICK_DIV_WRITE (R32): A write to TICK_DIV is checked and either accepted for the next boundary or refused with DIV_REFUSED. -/
  | tickDivWrite (f : Nat) (v : Word)
  /-- TICK_LO_READ (R36): A read of TICK_LO latches TICK_HI and SUBTICK for the reading function. -/
  | tickLoRead (f : Nat)
  /-- SYNC_CTRL_WRITE (R43): A write to SYNC_CTRL sets MODE and DELAY, or is refused whole with ARM_REFUSED. -/
  | syncCtrlWrite (f : Nat) (v : Word)
  /-- SYNC_EDGE (R42): SYNC_IN is sampled high after low on a rising CLKREF edge and is handled according to MODE. -/
  | syncEdge
  /-- SYNC_OFFSET_CHECK (R46): In mode CHECK, at the sync edge plus 4 + DELAY CLKREF periods, the offset to the nearest boundary is written to SYNC_OFFSET, and SYNC_ERR and ALIGNED are updated. -/
  | syncOffsetCheck
  /-- SYNC_RESET (R44): The delay counter expires at the forced boundary, which loads the tick counter from SYNC_LOAD, aligns the quad phase dividers, restarts the chains and sets ALIGNED. -/
  | syncReset
  /-- CLKREF_LOST (R48): CLKREF is missing for 100 ns or is out of frequency, and the PLLs enter holdover. -/
  | clkrefLost
  /-- CLKREF_QUALIFIED (R49): CLKREF has passed both tests for 1 ms and is qualified as returned, so relock may begin. -/
  | clkrefQualified (ppm : Int)
  /-- RELOCK_GO (R49): A write of 1 to RELOCK_GO starts relock at the next boundary while RELOCK is HOST. -/
  | relockGo (f : Nat) (v : Word)
  /-- RELOCK_COMPLETE (R50): Relock ends, which clears HOLDOVER, sets SYS_LOCK and leaves ALIGNED at 0. -/
  | relockComplete
  /-- QUAD_PLL_UNLOCK (R51): A quad PLL loses lock, and every later output of that quad's chains is marked S. -/
  | quadPllUnlock (q : Nat)
  /-- QUAD_PLL_RELOCK (R51): A quad PLL locks again, and the quad's chains are treated as after a sync reset. -/
  | quadPllRelock (q : Nat)
  /-- SETTLING_WINDOW_END (R57): An analogue settling window expires, and the SETTLE count of the affected chains starts from the next sample. -/
  | settlingWindowEnd (q : Nat) (k : Nat)
  /-- OVERLOAD_TRIP (R60): The PGA output exceeds ±550 mV, which trips the overload detector, sets OVLD and C-flags the samples. -/
  | overloadTrip (q : Nat) (k : Nat)
  /-- OVERLOAD_RELEASE (R60): The signal has been back within ±550 mV for 5 ns, and the overload detector releases. -/
  | overloadRelease (q : Nat) (k : Nat)
  /-- CAB_COMPARATOR_RISE (R65): A CAB comparator output rises, feeds the trigger logic and raises CMP_RISE when CMP_IE is 1. -/
  | cabComparatorRise (q : Nat) (b : Nat)
  /-- CAB_COMPARATOR_FALL (R64): The comparator input drops below the threshold less the hysteresis, and the output falls. -/
  | cabComparatorFall (q : Nat) (b : Nat)
  /-- RST_GO (R63): A write of 1 to RST_GO resets the integrator now when INT_RST is HOST. -/
  | rstGo (f : Nat) (q : Nat) (b : Nat) (v : Word)
  /-- CAB_CLIP (R67): A CAB output exceeds ±600 mV peak, clips, and CLIP is set. -/
  | cabClip (q : Nat) (b : Nat)
  /-- CONNECT (R72): A matrix CONNECT command is checked for access and against the pending state, and is queued or refused. -/
  | connect (f : Nat) (q : Nat) (v : Word)
  /-- DISCONNECT (R72): A matrix DISCONNECT command is checked and queued, and has no effect when the terminal is not on the wire. -/
  | disconnect (f : Nat) (q : Nat) (v : Word)
  /-- CLEAR_WIRE (R72): A matrix CLEAR_WIRE command is checked for wire access and queued. -/
  | clearWire (f : Nat) (q : Nat) (v : Word)
  /-- DAC_STREAM_SAMPLE (R79): A 16-bit sample reaches the DAC's network interface in STREAM mode and is output. -/
  | dacStreamSample (q : Nat) (x : Nat)
  /-- DAC_UNDERRUN (R80): The DAC stream runs out of samples, so the DAC holds its last sample and sets UNDERRUN. -/
  | dacUnderrun (q : Nat)
  /-- REFBUF_ENABLE (R82): A write to REFBUF_CTRL.EN switches the reference buffer on, or its clear is refused with DIS_REFUSED. -/
  | refbufEnable (f : Nat) (q : Nat) (v : Word)
  /-- REFBUF_READY (R82): 20,000 CLKREF periods after EN is set, READY becomes 1. -/
  | refbufReady (q : Nat)
  /-- SLICE_STARTUP_END (R96): A WAKING slice completes its 400 ns start-up and becomes ACTIVE or STANDBY. -/
  | sliceStartupEnd (q : Nat) (i : Nat)
  /-- SLICE_BLOCK_END (R110): A slice completes a block of 4,096 conversions, and the block is judged by the health checks. -/
  | sliceBlockEnd (q : Nat) (i : Nat) (st : BlockStats)
  /-- INJ_REQ (R119): A write to INJ_REQ queues an injected conversion, or is refused with a code. -/
  | injReq (f : Nat) (q : Nat) (v : Word)
  /-- INJECTED_CONVERSION_DONE (R120): An injected conversion completes after 480 ns, writes INJ_RESULT and raises INJ_DONE when IE is set. -/
  | injectedConversionDone (q : Nat) (val : Nat)
  /-- INJECTED_CONVERSION_TIMEOUT (R122): A request that has not completed by boundary n + 2 completes with STAT TIMEOUT. -/
  | injectedConversionTimeout (q : Nat)
  /-- CAL_CONE_WRITE (R129): A write to CAL_CONE is accepted for the next boundary, or is refused with CONE_REFUSED. -/
  | calConeWrite (f : Nat) (v : Word)
  /-- STANDBY_RUN_STEP (R130): A standby run step of S ticks ends, and its mean or its skew and tap estimate is computed. -/
  | standbyRunStep (q : Nat) (sums : RunSums)
  /-- FOREGROUND_RUN_STEP (R140): A foreground run level step of S ticks ends, and its mean is taken. -/
  | foregroundRunStep (q : Nat) (sum : Int)
  /-- PILOT_RUN_RESULT (R145): A pilot run's demodulation of 2^20 samples completes, and the new gain and offset are computed and judged. -/
  | pilotRunResult (q : Nat) (amp : Nat)
  /-- CH_CAL_REQ (R137): A write of 1 to CH_CAL_CTRL.REQ makes the channel due. -/
  | chCalReq (f : Nat) (q : Nat) (k : Nat) (v : Word)
  /-- CAL_RETRY_HOLDOFF_END (R137): 10 × P ticks after a failed or abandoned run expire, and the channel may be tried again. -/
  | calRetryHoldoffEnd (q : Nat) (k : Nat)
  /-- STORE_INTERVAL_EXPIRY (R155): STORE_INTERVAL seconds pass with changed coefficients, and a calibration store write falls due. -/
  | storeIntervalExpiry
  /-- SAVE (R155): A write of 1 to STORE_CMD.SAVE requests a calibration store write. -/
  | save (f : Nat) (v : Word)
  /-- STORE_WRITE_DONE (R155): The erase, program and read-back of a store copy completes, with the new generation or with STORE_FAIL. -/
  | storeWriteDone (ok : Bool)
  /-- CHAIN_START (R180): A write of 1 to CMD.START moves a STOPPED chain to ARMED. -/
  | chainStart (f : Nat) (n : Nat) (v : Word)
  /-- CHAIN_STOP (R180): A write of 1 to CMD.STOP moves an ARMED chain to STOPPED, or a RUNNING chain to STOPPING at the next boundary. -/
  | chainStop (f : Nat) (n : Nat) (v : Word)
  /-- CHAIN_STOPPED (R182): 200 ns after the STOP boundary the chain becomes STOPPED, and STOPPED is raised. -/
  | chainStopped (n : Nat)
  /-- SWITCH_GO (R185): A write of SWITCH with GO 1 requests a make-before-break swap to PARTNER at the next boundary. -/
  | switchGo (f : Nat) (n : Nat) (v : Word)
  /-- CHAIN_INPUT_SAMPLE (R161): A pool sample reaches the chain and passes through the enabled stages, producing outputs on multiples of the decimation. -/
  | chainInputSample (n : Nat) (xs : List Int)
  /-- CHAIN_PACKET_CLOSE (R188): 200 ns after each boundary the chain closes its open packet. -/
  | chainPacketClose (n : Nat)
  /-- SOURCE_LOST (R184): A whole tick passes without input to a running chain, which raises SOURCE_LOST and holds its history. -/
  | sourceLost (n : Nat)
  /-- PCAN_CONVERGED (R163): 131,072 inputs have passed since PCAN_EN was set, and PCAN.CONV becomes 1. -/
  | pcanConverged (n : Nat)
  /-- NOP (R235): The DSP executes NOP with its parallel moves. -/
  | nop (n : Nat) (e : Ecc)
  /-- MPY (R243): The DSP forms the fractional product 2xy into the accumulator. -/
  | mpy (n : Nat) (e : Ecc)
  /-- MPYN (R243): The DSP writes the negated fractional product into the accumulator. -/
  | mpyn (n : Nat) (e : Ecc)
  /-- MAC (R243): The DSP adds the fractional product to the accumulator. -/
  | mac (n : Nat) (e : Ecc)
  /-- MSC (R243): The DSP subtracts the fractional product from the accumulator. -/
  | msc (n : Nat) (e : Ecc)
  /-- MACR (R243): The DSP adds the fractional product and rounds the accumulator at bit 24. -/
  | macr (n : Nat) (e : Ecc)
  /-- MPYI (R243): The DSP writes the integer product into the accumulator. -/
  | mpyi (n : Nat) (e : Ecc)
  /-- MACI (R243): The DSP adds the integer product to the accumulator. -/
  | maci (n : Nat) (e : Ecc)
  /-- MACSU (R243): The DSP adds the signed-by-unsigned product to the accumulator. -/
  | macsu (n : Nat) (e : Ecc)
  /-- MACUU (R243): The DSP adds the unsigned-by-unsigned product to the accumulator. -/
  | macuu (n : Nat) (e : Ecc)
  /-- ADD (R244): The DSP adds src to the accumulator. -/
  | add (n : Nat) (e : Ecc)
  /-- SUB (R244): The DSP subtracts src from the accumulator. -/
  | sub (n : Nat) (e : Ecc)
  /-- CMP (R244): The DSP sets the flags of acc − src and stores nothing. -/
  | cmp (n : Nat) (e : Ecc)
  /-- TFR (R244): The DSP transfers src to the accumulator. -/
  | tfr (n : Nat) (e : Ecc)
  /-- NEG (R244): The DSP negates the accumulator. -/
  | neg (n : Nat) (e : Ecc)
  /-- ABS (R244): The DSP takes the absolute value of the accumulator. -/
  | abs (n : Nat) (e : Ecc)
  /-- CLR (R244): The DSP clears the accumulator. -/
  | clr (n : Nat) (e : Ecc)
  /-- RND (R202): The DSP rounds the accumulator at bit 24 with convergent rounding. -/
  | rnd (n : Nat) (e : Ecc)
  /-- ASL (R244): The DSP shifts the accumulator left by k. -/
  | asl (n : Nat) (e : Ecc)
  /-- ASR (R244): The DSP shifts the accumulator right arithmetically by k. -/
  | asr (n : Nat) (e : Ecc)
  /-- SHV (R244): The DSP shifts the accumulator by the signed value in Dx. -/
  | shv (n : Nat) (e : Ecc)
  /-- CLS (R244): The DSP counts the redundant sign bits of the accumulator, less 8, into Dx. -/
  | cls (n : Nat) (e : Ecc)
  /-- DIVS (R245): The DSP performs one non-restoring division step. -/
  | divs (n : Nat) (e : Ecc)
  /-- AND (R246): The DSP ANDs two data registers. -/
  | andD (n : Nat) (e : Ecc)
  /-- OR (R246): The DSP ORs two data registers. -/
  | orD (n : Nat) (e : Ecc)
  /-- XOR (R246): The DSP XORs two data registers. -/
  | xorD (n : Nat) (e : Ecc)
  /-- NOT (R246): The DSP inverts a data register. -/
  | notD (n : Nat) (e : Ecc)
  /-- LSL (R246): The DSP shifts a data register left logically. -/
  | lsl (n : Nat) (e : Ecc)
  /-- LSR (R246): The DSP shifts a data register right logically. -/
  | lsr (n : Nat) (e : Ecc)
  /-- ASRD (R246): The DSP shifts a data register right arithmetically. -/
  | asrd (n : Nat) (e : Ecc)
  /-- ADDD (R246): The DSP adds two data registers with wrap. -/
  | addd (n : Nat) (e : Ecc)
  /-- SUBD (R246): The DSP subtracts two data registers with wrap. -/
  | subd (n : Nat) (e : Ecc)
  /-- MOVE (R247): The DSP moves one register to another, with the effects of R237. -/
  | move (n : Nat) (e : Ecc)
  /-- LDI (R247): The DSP loads an immediate into a register. -/
  | ldi (n : Nat) (e : Ecc)
  /-- LDX (R248): The DSP loads a register from X memory at an absolute or indexed address. -/
  | ldx (n : Nat) (e : Ecc)
  /-- LDY (R248): The DSP loads a register from Y memory at an absolute or indexed address. -/
  | ldy (n : Nat) (e : Ecc)
  /-- STX (R248): The DSP stores a register to X memory. -/
  | stx (n : Nat) (e : Ecc)
  /-- STY (R248): The DSP stores a register to Y memory. -/
  | sty (n : Nat) (e : Ecc)
  /-- MOVEP_READ (R247): The DSP reads a peripheral register into a register. -/
  | movepRead (n : Nat) (e : Ecc)
  /-- MOVEP_WRITE (R258): The DSP writes a peripheral register, which for OUT_POST may stall until BUSY clears. -/
  | movepWrite (n : Nat) (e : Ecc)
  /-- BCC (R249): The DSP branches to the target when the condition holds. -/
  | bcc (n : Nat) (e : Ecc)
  /-- JSR (R249): The DSP leaves its return address in Dn and jumps to the target. -/
  | jsr (n : Nat) (e : Ecc)
  /-- JMPCC (R249): The DSP jumps to the address in Dn when the condition holds. -/
  | jmpcc (n : Nat) (e : Ecc)
  /-- HALT (R250): The DSP ends the run, leaving any handler first, and the core idles. -/
  | halt (n : Nat) (e : Ecc)
  /-- RTI (R222): The DSP swaps the banks back, clears IN_ISR and resumes. -/
  | rti (n : Nat) (e : Ecc)
  /-- ANDS (R249): The DSP ANDs an immediate into the writable SRG fields. -/
  | ands (n : Nat) (e : Ecc)
  /-- ORS (R249): The DSP ORs an immediate into the writable SRG fields. -/
  | ors (n : Nat) (e : Ecc)
  /-- DO (R252): The DSP starts a hardware loop with an immediate count. -/
  | doImm (n : Nat) (e : Ecc)
  /-- DOR (R252): The DSP starts a hardware loop with its count taken from a register. -/
  | dor (n : Nat) (e : Ecc)
  /-- ENDDO (R252): The DSP ends the innermost loop and pops the loop stack. -/
  | enddo (n : Nat) (e : Ecc)
  /-- REP (R208): The DSP repeats the next instruction n times, with n immediate. -/
  | rep (n : Nat) (e : Ecc)
  /-- REPR (R252): The DSP repeats the next instruction, with the count taken from a register. -/
  | repr (n : Nat) (e : Ecc)
  /-- DSP_TIMER_EXPIRY (R222): The TIMER peripheral counts down to 0 and sets IRQ_STAT.TIMER. -/
  | dspTimerExpiry (n : Nat)
  /-- INTERRUPT_ENTRY (R222): A takeable interrupt swaps the banks, sets IN_ISR and branches to its handler. -/
  | interruptEntry (n : Nat)
  /-- INPUT_WORD_ARRIVAL (R211): A sample word arrives for a core's input stream and is written into the receive buffer, or dropped with IN_OVERFLOW. -/
  | inputWordArrival (n : Nat) (i : Nat) (w : Word)
  /-- OUTPUT_POST_DONE (R213): The output engine finishes reading a post, BUSY falls, and OUT_IDLE may be set. -/
  | outputPostDone (n : Nat) (j : PostEnd)
  /-- WATCHDOG_TIMEOUT (R221): A core has not begun or stopped within 64 cycles and is retired with cause 0x2. -/
  | watchdogTimeout (n : Nat)
  /-- SPARE_SELF_TEST (R225): Deogen self-tests a SPARE core within its 100 ms interval and retires it with cause 0x3 on a mismatch. -/
  | spareSelfTest (n : Nat) (pass : Bool)
  /-- SPARE_LOAD_DONE (R227): Loading of the spare core ends, and replay of the pending runs begins from the next boundary. -/
  | spareLoadDone (n : Nat)
  /-- REPLAY_RUN_ABORT (R228): A replay run reaches B cycles without halting and is aborted, with its SAMPLE words padded at once. -/
  | replayRunAbort (n : Nat)
  /-- GRAPH_SUBMIT (R269): The Wheel decides a submitted graph through the admission checks, and admits it with a start tick or refuses it. -/
  | graphSubmit (f : Nat) (b : List Byte)
  /-- GRAPH_CHANGE (R280): The Wheel decides a new version of an admitted graph and sets its change tick, or refuses it. -/
  | graphChange (f : Nat) (b : List Byte)
  /-- GRAPH_STOP (R283): The Wheel sets the stop tick of a graph, or withdraws a graph that has not started. -/
  | graphStop (f : Nat)
  /-- MAP_READ (R291): The Wheel writes the placement map of a graph into a host buffer. -/
  | mapRead (f : Nat)
  /-- WHEEL_CONFIG (R285): F0 sets HEAT_MOVE, HOT and HYST for the next boundary. -/
  | wheelConfig (f : Nat)
  /-- CORE_LOAD_DONE (R277): A core load begun for a graph ends, which allows the start at E. -/
  | coreLoadDone (n : Nat)
  /-- HEAT_MOVE_COPY_DONE (R286): The copy of the persistent image and input to the destination core ends, and its first run starts. -/
  | heatMoveCopyDone (n : Nat)
  /-- REROUTE (R290): After a port failure the Wheel decides new routes for the affected edges, swaps them in at the next boundary or raises NO_ROUTE. -/
  | reroute
  /-- RESTART (R311): A write of 1 to CMD.RESTART requests a sagger restart at the next boundary. -/
  | restart (f : Nat) (g : Nat) (v : Word)
  /-- RESTART_HOLD_RELEASE (R311): On the 16th edge of a net the hold is released, and RESTARTED is raised after the last net. -/
  | restartHoldRelease (g : Nat) (net : Nat)
  /-- CAP_ARM (R322): A write of 1 to CMD.CAP_ARM arms a capture, or is refused with ERR. -/
  | capArm (f : Nat) (g : Nat) (v : Word)
  /-- CAP_CANCEL (R327): A write of 1 to CMD.CAP_CANCEL cancels an armed capture without an event. -/
  | capCancel (f : Nat) (g : Nat) (v : Word)
  /-- CAPTURE_EDGE (R324): The capture edge is reached, the shadow plane is replaced, SEQ advances and CAPTURE_DONE is raised. -/
  | captureEdge (g : Nat) (plane : List Word)
  /-- CAP_DATA_READ (R326): A read of CAP_DATA returns a plane word and advances CAP_ADDR. -/
  | capDataRead (f : Nat) (g : Nat)
  /-- FABRIC_INPUT_WORD (R312): A sample word arrives at a sagger input port FIFO, or is dropped with IN_OVERFLOW. -/
  | fabricInputWord (g : Nat) (p : Nat) (w : Word) (pops : Nat)
  /-- PUSH (R313): The design pushes a word to an output port, which is counted against the tick's WORDS or dropped. -/
  | push (g : Nat) (p : Nat) (w : Word) (full : Bool)
  /-- EVENT_LINE_RISE (R318): A rising edge of an enabled event line raises USER with its EVDATA value. -/
  | eventLineRise (g : Nat) (i : Nat) (d : Nat)
  /-- FABRIC_PLL_UNLOCK (R308): A fabric PLL loses lock, its nets are held low and CLOCK_LOST is raised. -/
  | fabricPllUnlock (p : Nat)
  /-- FABRIC_PLL_RELOCK (R308): A fabric PLL relocks, and its nets run again. -/
  | fabricPllRelock (p : Nat)
  /-- SAGGER_POWER_DOWN (R355): At the first boundary 100 ms after an abort with no load targeting it, Deogen powers the sagger down. -/
  | saggerPowerDown (g : Nat)
  /-- IMAGE_HEADER (R347): The loader checks an image header and accepts it, closing the wall, or refuses it before any write. -/
  | imageHeader
  /-- SAGGER_POWERED (R350): 50 µs after acceptance for an OFF sagger, the sagger is powered and clearing begins. -/
  | saggerPowered
  /-- CLEARING_DONE (R350): Clearing of the target's cells ends, and the loader may take the first frame. -/
  | clearingDone
  /-- FRAME (R351): A frame is checked and written behind the wall, or refused, which aborts the load. -/
  | frame
  /-- TRAILER (R352): An epoch trailer arrives, and its tag verification begins. -/
  | trailer
  /-- TAG_VERIFIED (R352): Within 1 µs the epoch tag passes or aborts the load with TAG_FAIL. -/
  | tagVerified
  /-- IDLE_TIMEOUT (R353): 2 ticks pass without a byte while a load is open, which aborts it with IDLE_TIMEOUT. -/
  | idleTimeout
  /-- STARTUP_STEP (R357): A start-up step of STARTUP takes effect at the boundary or 40 ns after the previous step completes. -/
  | startupStep
  /-- WAIT_LOCK (R357): WAIT_LOCK completes when every named fabric PLL is locked. -/
  | waitLock
  /-- LOCK_TIMEOUT (R357): WAIT_LOCK exceeds 10 ms, which aborts the load and closes the wall again. -/
  | lockTimeout
  /-- FLASH_GO (R344): A write of FLASH_GO loads the image set of SLOT, or is refused with BUSY. -/
  | flashGo (f : Nat) (v : Word)
  /-- CANCEL (R360): A write of 1 to LOAD_CMD.CANCEL aborts the open load with CANCELLED before its start-up boundary. -/
  | cancel (f : Nat) (v : Word)
  /-- FLASH_READ_ERROR (R354): A flash read fails its checks and aborts the load with FLASH_READ. -/
  | flashReadError
  /-- ROUTER_HEADER (R374): A router takes the next hop of a header, forwards or ejects it, or returns it with PATH_CLOSED or BAD_ROUTE. -/
  | routerHeader (r : Nat) (p : Packet)
  /-- LINK_UNIT_RECEIVED (R367): A unit arrives on a link, its CRC is checked, and it is acknowledged or a resend is requested. -/
  | linkUnitReceived (k : Nat) (ok : LinkUnit) (resent : Nat) (lost : List Packet)
  /-- LINK_IDLE_TIMEOUT (R368): No unit or idle pattern for 1 µs on an enabled link declares it failed. -/
  | linkIdleTimeout (k : Nat) (lost : List Packet)
  /-- STREAM (R371): A STREAM packet reaches its destination NI and is delivered to the bound stream. -/
  | stream (p : Packet)
  /-- WRITE (R371): A WRITE request reaches its destination and writes data without a response. -/
  | write (p : Packet)
  /-- WRITE_ACK (R371): A WRITE_ACK request writes data and returns ACK. -/
  | writeAck (p : Packet)
  /-- READ (R371): A READ request returns READ_DATA of AUX units. -/
  | read (p : Packet)
  /-- CFG_FRAME (R371): A CFG_FRAME from the configuration loader delivers one frame to its region. -/
  | cfgFrame (p : Packet)
  /-- ACK (R372): An ACK response is consumed by the requesting NI. -/
  | ack (p : Packet)
  /-- READ_DATA (R372): A READ_DATA response is consumed into the reserved response buffer. -/
  | readData (p : Packet)
  /-- CREDIT (R381): A CREDIT response returns request credits to the sender. -/
  | credit (p : Packet)
  /-- ERR (R373): An ERR response is recorded in NI[n].ERR and raises an event. -/
  | err (p : Packet)
  /-- REQUEST_TIMEOUT (R380): A request's response deadline of K ticks expires, which releases the reservation and returns TIMEOUT. -/
  | requestTimeout (n : Nat)
  /-- NI_DRAIN_DONE (R384): A DRAINING NI has completed its packets and responses, becomes ASLEEP and its domain powers down. -/
  | niDrainDone (n : Nat)
  /-- NI_AWAKE (R384): A domain powered again reports ready, and its NIs become AWAKE. -/
  | niAwake (n : Nat)
  /-- PORT_DRAIN_DONE (R386): A DRAINING port has passed its last packet and emptied its replay buffer, and becomes DISABLED. -/
  | portDrainDone (r : Nat) (p : Nat)
  /-- XL_ENABLE (R391): A write of XL_CTRL.EN starts or stops training of a chip link. -/
  | xlEnable (f : Nat) (l : Nat) (v : Word)
  /-- XL_TRAINED (R391): A chip link completes training and becomes UP. -/
  | xlTrained (l : Nat)
  /-- XL_CONTROL_UNIT (R391): A control unit with the far end's POS, TICK_DIV and sync state arrives, and the link becomes or leaves ACTIVE. -/
  | xlControlUnit (l : Nat) (pos : Nat) (div : Nat) (sync : Bool)
  /-- CAPTURE_TRIGGER (R411): A rise of the stream's trigger source records TRIG_IDX and enters POST. -/
  | captureTrigger (c : Nat)
  /-- FREEZE_GO (R411): A write of 1 to FREEZE_GO freezes the stream as if triggered. -/
  | freezeGo (f : Nat) (c : Nat) (v : Word)
  /-- SEGMENT_MAP_W0_READ (R405): A read of an entry's W0 latches W1 to W3 for the reading function. -/
  | segmentMapW0Read (f : Nat) (e : Nat)
  /-- BAR2_READ (R414): A BAR2 read returns capture data to the segment's owner, or completes with Completer Abort. -/
  | bar2Read (f : Nat) (a : Nat) (n : Nat) (flaws : List Flaw)
  /-- BAR2_WRITE (R414): A BAR2 write is an ownership violation and is dropped. -/
  | bar2Write (f : Nat) (a : Nat) (b : List Byte)
  /-- DOORBELL_READ_DONE (R432): A doorbell read completes, and new producer and consumer indices are taken or rejected with DB_ERR. -/
  | doorbellReadDone (f : Nat) (line : List Byte) (slots : List Slot)
  /-- WAKE_GO (R431): A write of 1 to WAKE.GO issues a doorbell read within 500 ns. -/
  | wakeGo (f : Nat) (v : Word)
  /-- NOP_COMMAND (R436): A NOP descriptor completes at once. -/
  | nopCommand (f : Nat)
  /-- CFG_DATA (R439): A CFG_DATA descriptor delivers its bytes to the loader as one chunk of the image stream. -/
  | cfgData (f : Nat) (b : List Byte)
  /-- SEG_FREE (R413): A SEG_FREE descriptor frees the held segments of a stream or range, or is refused. -/
  | segFree (f : Nat)
  /-- SEG_COPY (R440): A SEG_COPY descriptor copies capture space into a host buffer. -/
  | segCopy (f : Nat) (flaws : List Flaw)
  /-- FW_INSTALL (R526): A FW_INSTALL descriptor checks a firmware image and writes it to the slot not running. -/
  | fwInstall (f : Nat) (b : List Byte)
  /-- SLOT_WRITE (R527): A SLOT_WRITE descriptor checks an image set and writes it to an image slot. -/
  | slotWrite (f : Nat) (b : List Byte)
  /-- FLASH_WRITE_DONE (R528): The erase, program and read-back of FW_INSTALL or SLOT_WRITE complete with OK or FLASH_ERROR. -/
  | flashWriteDone (ok : Bool)
  /-- DATA_BUF (R445): A DATA_BUF descriptor is posted to a data ring to receive chunks. -/
  | dataBuf (f : Nat) (j : Nat)
  /-- DATA_BUF_DEADLINE (R445): Boundary m + DEADLINE comes, and a buffer holding chunks completes with DEADLINE. -/
  | dataBufDeadline (f : Nat) (j : Nat)
  /-- DESCRIPTOR_DEADLINE (R441): A descriptor's DEADLINE expires before its decision point, and it completes with TIMEOUT. -/
  | descriptorDeadline (f : Nat)
  /-- HOST_READ_FAILURE (R443): A device read of host memory fails, which keeps the doorbell indices, halts the ring or fails the descriptor. -/
  | hostReadFailure (f : Nat) (what : HostRead)
  /-- RING_ENABLE (R429): A write of EN to 1 enables a ring, or is refused with SETUP_REFUSED. -/
  | ringEnable (f : Nat) (g : Nat) (v : Word)
  /-- RING_DISABLE (R442): A write of EN to 0 stops a ring, completing the buffer in fill with RING_OFF and others with ABORTED. -/
  | ringDisable (f : Nat) (g : Nat) (v : Word)
  /-- FUNCTION_LEVEL_RESET (R425): An FLR disables a function's rings, stops its graphs, frees its segments and resets its HOST and EVENTS registers. -/
  | functionLevelReset (f : Nat)
  /-- LINK_DOWN (R426): The PCI Express link goes down without PERST_N, and every function is reset. -/
  | linkDown
  /-- D3HOT_ENTRY (R427): A function enters D3hot, and the device stops reading and writing its host memory. -/
  | d3hotEntry (f : Nat)
  /-- D0_RETURN (R427): A function returns to D0, and service resumes at the next boundary. -/
  | d0Return (f : Nat)
  /-- LINK_RETRAIN (R428): The link retrains to a lower rate or width, and LINK is raised. -/
  | linkRetrain
  /-- EVENT_RECORD_WRITE (R447): An event record is written into the next slot of a function's event ring, or counted in EVT_LOST. -/
  | eventRecordWrite (f : Nat)
  /-- MSIX_UNMASK (R448): A vector or function mask clears, and the pending message is sent. -/
  | msixUnmask (f : Nat) (vec : Option Nat)
  /-- HOLDOFF_EXPIRY (R449): A HOLDOFF interval ends, and one message announces the records written during it. -/
  | holdoffExpiry (f : Nat) (vec : Nat)
  /-- FAULTLOG_ACK (R471): A write of n to FAULTLOG.ACK acknowledges the n oldest entries. -/
  | faultlogAck (f : Nat) (v : Word)
  /-- CH_OWNER_WRITE (R555): A CH_OWNER write is judged field by field, and fields are accepted for the next boundary or refused. -/
  | chOwnerWrite (f : Nat) (i : Nat) (v : Word)
  /-- PIN_OWNER_WRITE (R555): A PIN_OWNER write is judged field by field, and fields are accepted for the next boundary or refused. -/
  | pinOwnerWrite (f : Nat) (i : Nat) (v : Word)
  /-- PIN_FUNCTION_SWITCH (R491): A write that changes ALT or ANALOG drops the output at edge 1 and hands the pin to the new function at edge 2. -/
  | pinFunctionSwitch (p : Nat)
  /-- DATA_SET (R483): A write of DATA_SET sets the written 1 bits of DATA_OUT on the pins the writer may write. -/
  | dataSet (f : Nat) (b : Nat) (v : Word)
  /-- DATA_CLR (R483): A write of DATA_CLR clears the written 1 bits of DATA_OUT on the pins the writer may write. -/
  | dataClr (f : Nat) (b : Nat) (v : Word)
  /-- GPIO_BANK_WRITE (R483): A write of DATA_OUT, DIR or IRQ_STAT is merged per pin with the values in force. -/
  | gpioBankWrite (f : Nat) (a : Nat) (v : Word)
  /-- DEBOUNCE_ACCEPT (R494): A new pin level holds for N pin-clock periods and is accepted. -/
  | debounceAccept (p : Nat) (l : Bool)
  /-- TMR_CTRL_WRITE (R500): A write of TMR CTRL with EN sets the channel's mode and compare, or sets LATE when the instant has passed. -/
  | tmrCtrlWrite (f : Nat) (t : Nat) (v : Word)
  /-- TMR_COMPARE (R500): The compare instant is reached, and the channel pulses or toggles its output and raises TMR_COMPARE. -/
  | tmrCompare (t : Nat)
  /-- VCCIO_LOW (R488): A bank's VCCIO falls below 1.0 V, and its outputs go undriven and its inputs to default. -/
  | vccioLow (b : Nat)
  /-- VCCIO_OK (R488): A bank's VCCIO returns above 1.0 V, and debounce restarts on every pin of the bank. -/
  | vccioOk (b : Nat)
  /-- SPI_TXDATA (R498): A write of SPI TXDATA queues a word for transfer, or is dropped with OVF. -/
  | spiTxdata (f : Nat) (u : Nat) (v : Word)
  /-- SPI_RXDATA_READ (R543): A read of SPI RXDATA removes the oldest received word. -/
  | spiRxdataRead (f : Nat) (u : Nat)
  /-- SPI_DONE (R506): The SPI unit becomes idle with its TX FIFO empty after a transfer. -/
  | spiDone (u : Nat) (rx : List Word)
  /-- I2C_CMD (R509): A write of I2C CMD starts a transaction with its START, STOP, READ, ADDR and COUNT. -/
  | i2cCmd (f : Nat) (u : Nat) (v : Word)
  /-- I2C_DATA_WRITE (R509): A write of I2C DATA fills the TX FIFO. -/
  | i2cDataWrite (f : Nat) (u : Nat) (v : Word)
  /-- I2C_DATA_READ (R543): A read of I2C DATA removes the oldest byte from the RX FIFO. -/
  | i2cDataRead (f : Nat) (u : Nat)
  /-- I2C_DONE (R506): An I²C command completes. -/
  | i2cDone (u : Nat) (rx : List Byte)
  /-- I2C_ERROR (R506): A NACK or a loss of arbitration ends an I²C transaction. -/
  | i2cError (u : Nat) (arb : Bool)
  /-- UART_TXDATA (R498): A write of UART TXDATA queues a byte, or is dropped with OVF. -/
  | uartTxdata (f : Nat) (u : Nat) (v : Word)
  /-- UART_RXDATA_READ (R543): A read of UART RXDATA removes the oldest byte. -/
  | uartRxdataRead (f : Nat) (u : Nat)
  /-- UART_BYTE_RECEIVED (R498): A received byte enters the RX FIFO or is dropped, and framing and parity errors are flagged. -/
  | uartByteReceived (u : Nat) (b : Byte) (frameOk : Bool) (parityOk : Bool)
  /-- UART_RX_IDLE (R506): 32 idle bit times pass with data in the RX FIFO, which raises UART_RX. -/
  | uartRxIdle (u : Nat)
  /-- TRIGGER_LINE_EDGE (R505): A TRIG line changes level, feeds the trigger logic and raises RISE or FALL when enabled. -/
  | triggerLineEdge (t : Nat) (l : Bool)
  /-- POWER_ON_RESET (R510): A supply falls below its reset level or the device powers up, which resets everything. -/
  | powerOnReset
  /-- PERST_N (R510): PERST_N low resets the whole device, and its rise starts the boot sequence. -/
  | perstN (l : Bool)
  /-- DEV_RESET (R512): A write of RESET_CTRL with KEY 0xB007 and DEV_RESET 1 begins a warm reset 1 µs later. -/
  | devReset (f : Nat) (v : Word)
  /-- WARM_RESET_START (R512): The warm reset resets every function and starts the boot sequence from step 1. -/
  | warmResetStart
  /-- OTP_READ_DONE (R514): Boot step 1 ends with the OTP read and the factory calibration checked. -/
  | otpReadDone (ok : Bool)
  /-- FIRMWARE_STARTED (R523): The chosen firmware slot reports itself running, so READY is set and BOOTED is raised. -/
  | firmwareStarted
  /-- FIRMWARE_START_TIMEOUT (R524): Started firmware does not report running within 500 ms, so the ROM starts the other slot or runs alone. -/
  | firmwareStartTimeout
  /-- REF_WAIT (R516): The system PLL has not locked 40 ms after t0, and REF_WAIT is set. -/
  | refWait
  /-- SELF_TESTS_DONE (R514): Boot step 4 ends with reference buffers on, slices and cores self-tested and the calibration store chosen. -/
  | selfTestsDone (slices : List Nat) (cores : List Nat)
  /-- BISQUE_LOAD_START (R514): After step 4 and the first tick, Deogen loads the bisque image from flash. -/
  | bisqueLoadStart
  /-- BISQUE_CH_WRITE (R533): A write of BISQUE_CH sets EN and DEC for the next boundary, or is refused for a reserved DEC. -/
  | bisqueChWrite (f : Nat) (q : Nat) (v : Word)
  /-- LANE_DISAGREE (R521): One Deogen lane disagrees and is outvoted and reloaded, or no two lanes agree and Deogen stops. -/
  | laneDisagree (l : Nat)
  /-- LANE_RESYNC_DONE (R521): The disagreeing lane has been reloaded, and LANE_RESYNC is logged. -/
  | laneResyncDone
  /-- SUPPLY_WARN (R562): A rail leaves its warning band, which raises SUPPLY_WARN. -/
  | supplyWarn (r : Nat)
  /-- SUPPLY_OK (R562): A rail returns within its warning band, which raises SUPPLY_OK. -/
  | supplyOk (r : Nat)
  /-- THERM_CLEAR (R577): Every valid reading stays at most Tmax − 10 °C for 1 s, which ends the hold. -/
  | thermClear
  /-- THERMAL_TRIP (R579): A die-sensor comparator above 120 °C stops the quad, cluster and sagger clocks and latches THERM_N low. -/
  | thermalTrip (d : Nat) (v : Int)
  /-- REGISTER_WRITE (R545): A BAR0 write to a register with no row of its own sets its fields, or is refused, held or logged as a violation. -/
  | registerWrite (f : Nat) (a : Nat) (n : Nat) (be : Nat) (v : Word)
  /-- BAR0_READ (R423): A BAR0 read that the access form of R423, or a block's rules such as R479, forbid completes with Completer Abort, is logged in the fault log and raises BAR0_VIOLATION. -/
  | bar0Read (f : Nat) (a : Nat) (n : Nat) (be : Nat) (pads : Word)
  /-- STAR_IN_EDGE (R501): STAR_IN changes level, and the new level feeds source 0x0D8 of sagger trigger inputs, capture streams and every trigger-logic output that selects it. -/
  | starInEdge (l : Bool)
  /-- PTI_EDGE (R502): A pin in ALT5 below index 16 changes its synchronised level, which changes PTI k and every trigger output, TRIG_LEVEL bit and capture trigger that selects it. -/
  | ptiEdge (k : Nat) (l : Bool)
  /-- SAGGER_TRIGGER_OUTPUT_EDGE (R318): A fabric design changes trigger output TO i, which reaches the trigger logic as source 0x100 + 8s + i within the delay of R504. -/
  | saggerTriggerOutputEdge (g : Nat) (i : Nat) (l : Bool)
  /-- TMR_PULSE_END (R500): WIDTH pin-clock periods after a COMPARE_PULSE act, the timer channel lowers its output on its pins and in the trigger logic. -/
  | tmrPulseEnd (t : Nat)
  deriving DecidableEq, Repr

end Sys2Proof
end

