-- ==== Sys2Proof/WellFormed.lean ====
section
/-! DEFINITION. Which commands name something: functions F0–F7, quads, channels, units and ports in the ranges that the spec gives
their tables, BAR0 and BAR2 accesses inside the windows, and packets whose fields fit the header of R369. A command that is not
well formed names nothing that the largest part has. -/

namespace Sys2Proof

/-- The fields of a packet within the widths of R369, at an NI that exists; it holds no more data than LEN announces. -/
def Packet.wf (p : Packet) : Bool :=
  decide (p.cmd < 64) && decide (p.route < 2 ^ 39) && decide (p.hop < 16) && decide (p.len < 128) && decide (p.src < 256)
    && decide (p.tag < 1024) && decide (p.domain < 16) && decide (p.lasth ≤ 16) && decide (p.epoch < 2) && decide (p.aux < 256)
    && decide (p.addr < 2 ^ 64) && decide (p.point < 512) && decide (p.tick < 2 ^ 32) && decide (p.sub < 2 ^ 32)
    && decide (p.dst < 256) && decide (p.data.length ≤ 32 * p.len) && p.marks.all (fun m => decide (m < 16))

/-- A failed host read that names a ring which exists. -/
def HostRead.wf : HostRead → Bool
  | .doorbell => true
  | .descriptor ring => decide (ring < 17)
  | .buffer code => decide (code < 256)

/-- Whether a command is well formed. -/
def Instr.wf : Instr → Bool
  | .systemPllLock => true
  | .tickBoundary => true
  | .tickDivWrite f _ => decide (f < 8)
  | .tickLoRead f => decide (f < 8)
  | .syncCtrlWrite f _ => decide (f < 8)
  | .syncEdge => true
  | .syncOffsetCheck => true
  | .syncReset => true
  | .clkrefLost => true
  | .clkrefQualified _ => true
  | .relockGo f _ => decide (f < 8)
  | .relockComplete => true
  | .quadPllUnlock q => decide (q < 16)
  | .quadPllRelock q => decide (q < 16)
  | .settlingWindowEnd q k => decide (q < 16) && decide (k < 12)
  | .overloadTrip q k => decide (q < 16) && decide (k < 4)
  | .overloadRelease q k => decide (q < 16) && decide (k < 4)
  | .cabComparatorRise q b => decide (q < 16) && decide (b < 8)
  | .cabComparatorFall q b => decide (q < 16) && decide (b < 8)
  | .rstGo f q b _ => decide (f < 8) && decide (q < 16) && decide (b < 8)
  | .cabClip q b => decide (q < 16) && decide (b < 8)
  | .connect f q _ => decide (f < 8) && decide (q < 16)
  | .disconnect f q _ => decide (f < 8) && decide (q < 16)
  | .clearWire f q _ => decide (f < 8) && decide (q < 16)
  | .dacStreamSample q x => decide (q < 16) && decide (x < 65536)
  | .dacUnderrun q => decide (q < 16)
  | .refbufEnable f q _ => decide (f < 8) && decide (q < 16)
  | .refbufReady q => decide (q < 16)
  | .sliceStartupEnd q i => decide (q < 16) && decide (i < 36)
  | .sliceBlockEnd q i _ => decide (q < 16) && decide (i < 36)
  | .injReq f q _ => decide (f < 8) && decide (q < 16)
  | .injectedConversionDone q val => decide (q < 16) && decide (val < 65536)
  | .injectedConversionTimeout q => decide (q < 16)
  | .calConeWrite f _ => decide (f < 8)
  | .standbyRunStep q _ => decide (q < 16)
  | .foregroundRunStep q _ => decide (q < 16)
  | .pilotRunResult q _ => decide (q < 16)
  | .chCalReq f q k _ => decide (f < 8) && decide (q < 16) && decide (k < 4)
  | .calRetryHoldoffEnd q k => decide (q < 16) && decide (k < 4)
  | .storeIntervalExpiry => true
  | .save f _ => decide (f < 8)
  | .storeWriteDone _ => true
  | .chainStart f n _ => decide (f < 8) && decide (n < 80)
  | .chainStop f n _ => decide (f < 8) && decide (n < 80)
  | .chainStopped n => decide (n < 80)
  | .switchGo f n _ => decide (f < 8) && decide (n < 80)
  | .chainInputSample n xs => decide (n < 80) && xs.length == 9
  | .chainPacketClose n => decide (n < 80)
  | .sourceLost n => decide (n < 80)
  | .pcanConverged n => decide (n < 80)
  | .nop n _ => decide (n < 72)
  | .mpy n _ => decide (n < 72)
  | .mpyn n _ => decide (n < 72)
  | .mac n _ => decide (n < 72)
  | .msc n _ => decide (n < 72)
  | .macr n _ => decide (n < 72)
  | .mpyi n _ => decide (n < 72)
  | .maci n _ => decide (n < 72)
  | .macsu n _ => decide (n < 72)
  | .macuu n _ => decide (n < 72)
  | .add n _ => decide (n < 72)
  | .sub n _ => decide (n < 72)
  | .cmp n _ => decide (n < 72)
  | .tfr n _ => decide (n < 72)
  | .neg n _ => decide (n < 72)
  | .abs n _ => decide (n < 72)
  | .clr n _ => decide (n < 72)
  | .rnd n _ => decide (n < 72)
  | .asl n _ => decide (n < 72)
  | .asr n _ => decide (n < 72)
  | .shv n _ => decide (n < 72)
  | .cls n _ => decide (n < 72)
  | .divs n _ => decide (n < 72)
  | .andD n _ => decide (n < 72)
  | .orD n _ => decide (n < 72)
  | .xorD n _ => decide (n < 72)
  | .notD n _ => decide (n < 72)
  | .lsl n _ => decide (n < 72)
  | .lsr n _ => decide (n < 72)
  | .asrd n _ => decide (n < 72)
  | .addd n _ => decide (n < 72)
  | .subd n _ => decide (n < 72)
  | .move n _ => decide (n < 72)
  | .ldi n _ => decide (n < 72)
  | .ldx n _ => decide (n < 72)
  | .ldy n _ => decide (n < 72)
  | .stx n _ => decide (n < 72)
  | .sty n _ => decide (n < 72)
  | .movepRead n _ => decide (n < 72)
  | .movepWrite n _ => decide (n < 72)
  | .bcc n _ => decide (n < 72)
  | .jsr n _ => decide (n < 72)
  | .jmpcc n _ => decide (n < 72)
  | .halt n _ => decide (n < 72)
  | .rti n _ => decide (n < 72)
  | .ands n _ => decide (n < 72)
  | .ors n _ => decide (n < 72)
  | .doImm n _ => decide (n < 72)
  | .dor n _ => decide (n < 72)
  | .enddo n _ => decide (n < 72)
  | .rep n _ => decide (n < 72)
  | .repr n _ => decide (n < 72)
  | .dspTimerExpiry n => decide (n < 72)
  | .interruptEntry n => decide (n < 72)
  | .inputWordArrival n i _ => decide (n < 72) && decide (i < 8)
  | .outputPostDone n j => decide (n < 72) && decide (j.stream < 8)
  | .watchdogTimeout n => decide (n < 72)
  | .spareSelfTest n _ => decide (n < 72)
  | .spareLoadDone n => decide (n < 72)
  | .replayRunAbort n => decide (n < 72)
  | .graphSubmit f _ => decide (f < 8)
  | .graphChange f _ => decide (f < 8)
  | .graphStop f => decide (f < 8)
  | .mapRead f => decide (f < 8)
  | .wheelConfig f => decide (f < 8)
  | .coreLoadDone n => decide (n < 72)
  | .heatMoveCopyDone n => decide (n < 72)
  | .reroute => true
  | .restart f g _ => decide (f < 8) && decide (g < 16)
  | .restartHoldRelease g net => decide (g < 16) && decide (net < 4)
  | .capArm f g _ => decide (f < 8) && decide (g < 16)
  | .capCancel f g _ => decide (f < 8) && decide (g < 16)
  | .captureEdge g plane => decide (g < 16) && plane.length == 1344
  | .capDataRead f g => decide (f < 8) && decide (g < 16)
  | .fabricInputWord g p _ _ => decide (g < 16) && decide (p < 16)
  | .push g p _ _ => decide (g < 16) && decide (p < 16)
  | .eventLineRise g i d => decide (g < 16) && decide (i < 4) && decide (d < 65536)
  | .fabricPllUnlock p => decide (p < 2)
  | .fabricPllRelock p => decide (p < 2)
  | .saggerPowerDown g => decide (g < 16)
  | .imageHeader => true
  | .saggerPowered => true
  | .clearingDone => true
  | .frame => true
  | .trailer => true
  | .tagVerified => true
  | .idleTimeout => true
  | .startupStep => true
  | .waitLock => true
  | .lockTimeout => true
  | .flashGo f _ => decide (f < 8)
  | .cancel f _ => decide (f < 8)
  | .flashReadError => true
  | .routerHeader r p => decide (r < 64) && p.wf
  | .linkUnitReceived k u _ lost => decide (k < 260) && decide (u.crc < 2 ^ 32 ∧ u.seq < 256) && lost.all Packet.wf
  | .linkIdleTimeout k lost => decide (k < 260) && lost.all Packet.wf
  | .stream p => p.wf
  | .write p => p.wf
  | .writeAck p => p.wf
  | .read p => p.wf
  | .cfgFrame p => p.wf
  | .ack p => p.wf
  | .readData p => p.wf
  | .credit p => p.wf
  | .err p => p.wf
  | .requestTimeout n => decide (n < 256)
  | .niDrainDone n => decide (n < 256)
  | .niAwake n => decide (n < 256)
  | .portDrainDone r p => decide (r < 64) && decide (p < 4)
  | .xlEnable f l _ => decide (f < 8) && decide (l < 4)
  | .xlTrained l => decide (l < 4)
  | .xlControlUnit l pos _ _ => decide (l < 4) && decide (pos < 4)
  | .captureTrigger c => decide (c < 256)
  | .freezeGo f c _ => decide (f < 8) && decide (c < 256)
  | .segmentMapW0Read f e => decide (f < 8) && decide (e < 0x80000)
  | .bar2Read f a n _ => decide (f < 8) && decide (a + n ≤ 0x800000000)
  | .bar2Write f a b => decide (f < 8) && decide (a + b.length ≤ 0x800000000)
  | .doorbellReadDone f line slots => decide (f < 8) && line.length == 64 && slots.all (fun x => decide (x.ring < 17) && x.bytes.length == 64)
  | .wakeGo f _ => decide (f < 8)
  | .nopCommand f => decide (f < 8)
  | .cfgData f _ => decide (f < 8)
  | .segFree f => decide (f < 8)
  | .segCopy f _ => decide (f < 8)
  | .fwInstall f _ => decide (f < 8)
  | .slotWrite f _ => decide (f < 8)
  | .flashWriteDone _ => true
  | .dataBuf f j => decide (f < 8) && decide (j < 16)
  | .dataBufDeadline f j => decide (f < 8) && decide (j < 16)
  | .descriptorDeadline f => decide (f < 8)
  | .hostReadFailure f what => decide (f < 8) && what.wf
  | .ringEnable f g _ => decide (f < 8) && decide (g < 18)
  | .ringDisable f g _ => decide (f < 8) && decide (g < 18)
  | .functionLevelReset f => decide (f < 8)
  | .linkDown => true
  | .d3hotEntry f => decide (f < 8)
  | .d0Return f => decide (f < 8)
  | .linkRetrain => true
  | .eventRecordWrite f => decide (f < 8)
  | .msixUnmask f vec => decide (f < 8) && vec.all (fun x => decide (x < 64))
  | .holdoffExpiry f vec => decide (f < 8) && decide (vec < 64)
  | .faultlogAck f _ => decide (f < 8)
  | .chOwnerWrite f i _ => decide (f < 8) && decide (i < 8)
  | .pinOwnerWrite f i _ => decide (f < 8) && decide (i < 56)
  | .pinFunctionSwitch p => decide (p < 448)
  | .dataSet f b _ => decide (f < 8) && decide (b < 14)
  | .dataClr f b _ => decide (f < 8) && decide (b < 14)
  | .gpioBankWrite f a _ => decide (f < 8) && decide (a < 0x1000000)
  | .debounceAccept p _ => decide (p < 448)
  | .tmrCtrlWrite f t _ => decide (f < 8) && decide (t < 16)
  | .tmrCompare t => decide (t < 16)
  | .vccioLow b => decide (b < 14)
  | .vccioOk b => decide (b < 14)
  | .spiTxdata f u _ => decide (f < 8) && decide (u < 4)
  | .spiRxdataRead f u => decide (f < 8) && decide (u < 4)
  | .spiDone u _ => decide (u < 4)
  | .i2cCmd f u _ => decide (f < 8) && decide (u < 4)
  | .i2cDataWrite f u _ => decide (f < 8) && decide (u < 4)
  | .i2cDataRead f u => decide (f < 8) && decide (u < 4)
  | .i2cDone u _ => decide (u < 4)
  | .i2cError u _ => decide (u < 4)
  | .uartTxdata f u _ => decide (f < 8) && decide (u < 2)
  | .uartRxdataRead f u => decide (f < 8) && decide (u < 2)
  | .uartByteReceived u _ _ _ => decide (u < 2)
  | .uartRxIdle u => decide (u < 2)
  | .triggerLineEdge t _ => decide (t < 8)
  | .powerOnReset => true
  | .perstN _ => true
  | .devReset f _ => decide (f < 8)
  | .warmResetStart => true
  | .otpReadDone _ => true
  | .firmwareStarted => true
  | .firmwareStartTimeout => true
  | .refWait => true
  | .selfTestsDone slices cores => slices.all (fun x => decide (x < 576)) && cores.all (fun x => decide (x < 72))
  | .bisqueLoadStart => true
  | .bisqueChWrite f q _ => decide (f < 8) && decide (q < 16)
  | .laneDisagree l => decide (l < 3)
  | .laneResyncDone => true
  | .supplyWarn r => decide (r < 7)
  | .supplyOk r => decide (r < 7)
  | .thermClear => true
  | .thermalTrip d _ => decide (d < 8)
  | .registerWrite f a n be _ => decide (f < 8) && decide (a < 0x1000000) && decide (a + n ≤ 0x1000000) && decide (be < 16)
  | .bar0Read f a n be _ => decide (f < 8) && decide (a < 0x1000000) && decide (a + n ≤ 0x1000000) && decide (be < 16)
  | .starInEdge _ => true
  | .ptiEdge k _ => decide (k < 16)
  | .saggerTriggerOutputEdge g i _ => decide (g < 16) && decide (i < 8)
  | .tmrPulseEnd t => decide (t < 16)

end Sys2Proof
end

