-- ==== Sys2Proof/Decode.lean ====
section
/-! DEFINITION. The commands that a word spells. The table gives no row of this block any bits: a command comes from a host access,
a packet or a happening, never from a word, so no word spells one. -/

namespace Sys2Proof

/-- The command that the table's bits spell: none, since no row has bits. -/
def decodeTableWord (_nbits _w : Nat) : Option Instr := none

end Sys2Proof
end

