-- ==== Sys2Proof/Config.lean ====
section
/-! DEFINITION. What the spec leaves open: opaque constants without a body, so that no proof can see a value. Each is
applied to a plain counter of the state, which a step that uses it advances. -/

namespace Sys2Proof.Config

/-- A value that the spec leaves open, one per use (DESIGN CHOICE, log entry 3). -/
opaque freeValue : Nat → Nat

/-- Which way a quotient that is no whole number is rounded where the spec states no rounding: the codes of a tone, the coefficients of
a pilot canceller (R79, R163; DESIGN CHOICE, log entries 49 and 71). -/
opaque roundUp : Int → Nat → Bool

/-! ### The logic fabric (R297–R306) -/

/-- What a configuration bit of a sagger says: tile `t`, macrocell `m`, bank 0 private, 1 shared, 2 control. -/
inductive Cell where
  /-- Literal `l` of term `i` of a bank is chosen: an input for `l` below 48, its complement from 48 on (R298). -/
  | literal (t bank i l : Nat)
  /-- Private term `i` is used; shared selection `j` of a macrocell is used, and a bit of the term that it selects (R298). -/
  | privateUsed (t i : Nat) | sharedUsed (t m j : Nat) | sharedSel (t m j b : Nat)
  /-- The macrocell borrows its partner's terms; a bit of the input that is a lender's data (R299). -/
  | borrow (t m : Nat) | lent (t m b : Nat)
  /-- ADD mode; a bit of the carry's choice (0 from below, 1 constant 0, 2 constant 1, 3 an input) and of that input (R302). -/
  | add (t m : Nat) | carrySel (t m b : Nat) | carryInput (t m b : Nat)
  /-- The output is inverted; the output is the flip-flop; its clock; its enable and its set or reset with their control terms; whether
  that sets; its initial value (R300, R310). -/
  | invert (t m : Nat) | registered (t m : Nat) | clock (t m b : Nat) | enableUsed (t m : Nat) | enableSel (t m b : Nat)
  | setUsed (t m : Nat) | setSel (t m b : Nat) | setValue (t m : Nat) | initial (t m : Nat)
  /-- RAM mode and initial contents; a tile's write address, its second read address, and its write enable (R303). -/
  | ram (t m : Nat) | ramInitial (t m a : Nat) | writeAddr (t i b : Nat) | readUsed (t : Nat) | readAddr (t i b : Nat)
  | enableTerm (t : Nat) | writeEnable (t b : Nat)
  /-- Selects of the multiplexers of a tile input, a wire of tile `t` and a switch point (R305). -/
  | inputSel (t k b : Nat) | wireSel (t dir span i b : Nat) | pointSel (t r b : Nat)
  /-- A routing register in its path, its clock and its initial value (R306, R310). -/
  | pointUsed (t r : Nat) | pointClock (t r b : Nat) | pointInitial (t r : Nat)
  /-- A bit of the clock net of a stream port, a trigger input or an event line (R309). -/
  | portClock (k b : Nat)
  deriving DecidableEq, Repr

/-- A signal of a sagger's fabric: a port's signal, a tile input, a macrocell's output, the carry out of a macrocell, a routing wire that
starts in a tile (dir 0 along its row, 1 along its column; 1 or 4 tiles long), a switch point with its routing register. -/
inductive Sig where
  | port (n : Nat) | input (t k : Nat) | mac (t m : Nat) | carry (t m : Nat) | wire (t dir span i : Nat) | point (t r : Nat)
  deriving DecidableEq, Repr, Inhabited

/-- Where a configuration bit lies among a sagger's cells, as 4,096 × frame + bit: the spec lays none out (DESIGN CHOICE, log entry 77). -/
opaque cellOf : Cell → Nat

/-- The input of a multiplexer at a select code, where it has one: the spec lists none (DESIGN CHOICE, log entry 77). -/
opaque muxInput : Sig → Nat → Option Sig

/-- A signal of a sagger that the spec leaves open, one per use (DESIGN CHOICE, log entry 77). -/
opaque fabricOpen : Nat → Sig → Bool

/-- The signal of the design that drives POP of input port `p` (R312; DESIGN CHOICE, log entry 77). -/
opaque popSig : Nat → Sig

/-- Whether the pin of sagger `g` in fabric clock mode rises in a period of 500 ps (R307; DESIGN CHOICE, log entry 118). -/
opaque extRise : Nat → Nat → Bool

/-- The phase of a fabric PLL, in units of 1/20000 of its period (R308; DESIGN CHOICE, log entry 77). -/
opaque fpllPhase : Nat → Nat

end Sys2Proof.Config
end

