-- ==== Sys2Proof/Machine/Bits.lean ====
section
/-! DEFINITION. Bit fields, signed fields, rounding and byte order: the reading helpers every family shares.
R11 and R545 give registers fields; R104, R131 and R202 round to nearest with ties to even; R430 and R263 lay words
out least significant byte first; R264 and R338 use CRC-32C. -/

namespace Sys2Proof.Machine

/-- A bit field, from bit `hi` down to bit `lo`. -/
structure Fld where
  hi : Nat
  lo : Nat
  deriving DecidableEq, Repr

/-- The number of bits of a field. -/
def Fld.width (f : Fld) : Nat := f.hi - f.lo + 1

/-- The bits of a word that belong to a field. -/
def Fld.mask (f : Fld) : Word := BitVec.ofNat 32 ((2 ^ f.width - 1) * 2 ^ f.lo)

/-- The value of a field of a register word. -/
def Fld.get (f : Fld) (w : Word) : Nat := (w.toNat / 2 ^ f.lo) % 2 ^ f.width

/-- A register word with one field replaced by the low bits of `x`. -/
def Fld.put (f : Fld) (w : Word) (x : Nat) : Word :=
  (w &&& ~~~ f.mask) ||| BitVec.ofNat 32 ((x % 2 ^ f.width) * 2 ^ f.lo)

/-- Bit `k` of a number. -/
def bitOf (x k : Nat) : Nat := (x / 2 ^ k) % 2

/-- Bits `hi` down to `lo` of a number. -/
def bitsOf (x hi lo : Nat) : Nat := (x / 2 ^ lo) % 2 ^ (hi - lo + 1)

/-- The low `n` bits of `x` read as two's complement. -/
def sx (n x : Nat) : Int :=
  let y := x % 2 ^ n
  if 2 * y < 2 ^ n then (y : Int) else (y : Int) - 2 ^ n

/-- The two's complement code of `i` in `n` bits. -/
def ux (n : Nat) (i : Int) : Nat := (i % ((2 ^ n : Nat) : Int)).toNat

/-- `i` limited to the range from `lo` to `hi`. -/
def clampI (lo hi i : Int) : Int := if i < lo then lo else if hi < i then hi else i

/-- `i` limited to the two's complement range of `n` bits. -/
def satI (n : Nat) (i : Int) : Int := clampI (-(2 ^ (n - 1))) (2 ^ (n - 1) - 1) i

/-- `num / den` to the nearest integer, ties to even. -/
def roundEven (num : Int) (den : Nat) : Int :=
  let q := num.fdiv den
  let r := num.fmod den
  if 2 * r < den then q else if (den : Int) < 2 * r then q + 1 else if q % 2 = 0 then q else q + 1

/-- One bit as a flag. -/
def flag (b : Bool) : Nat := if b then 1 else 0

/-- The `n` low bytes of a number, least significant first. -/
def leBytes : Nat → Nat → List Byte
  | 0, _ => []
  | n + 1, x => BitVec.ofNat 8 x :: leBytes n (x / 256)

/-- The number that bytes spell, least significant first. -/
def fromLE : List Byte → Nat
  | [] => 0
  | b :: bs => b.toNat + 256 * fromLE bs

/-- `n` bytes from position `k` of a list, least significant first. -/
def leAt (bs : List Byte) (k n : Nat) : Nat := fromLE ((bs.drop k).take n)

/-- Eight steps of the reflected CRC-32C register. -/
def crcBits : Nat → Nat → Nat
  | 0, c => c
  | n + 1, c => crcBits n (if c % 2 = 1 then (c / 2) ^^^ 0x82F63B78 else c / 2)

/-- CRC-32C of a byte sequence: initial value and final exclusive-or all ones, reflected. -/
def crc32c (bs : List Byte) : Nat :=
  (bs.foldl (fun c b => crcBits 8 (c ^^^ b.toNat)) 0xFFFFFFFF) ^^^ 0xFFFFFFFF

/-- A tick number of 32 bits completed to 64 bits: the number nearest to the tick counter that ends in them (R444). After a
sync reset to a lower tick it may lie above the counter. -/
def completeTick (now t : Nat) : Nat :=
  let d := (t % 0x100000000 + 0x100000000 - now % 0x100000000) % 0x100000000
  if d < 0x80000000 then now + d else now + d - 0x100000000

/-- The first number of `lo … lo + n - 1` that a test accepts. -/
def firstFrom (p : Nat → Bool) : Nat → Nat → Option Nat
  | _, 0 => none
  | lo, n + 1 => if p lo then some lo else firstFrom p (lo + 1) n

/-- The lowest of the numbers below `n` that a test accepts. -/
def lowest (n : Nat) (p : Nat → Bool) : Option Nat := firstFrom p 0 n

/-- How many of the numbers below `n` a test accepts. -/
def countBelow (p : Nat → Bool) : Nat → Nat
  | 0 => 0
  | n + 1 => countBelow p n + flag (p n)

/-- A state transformer applied for each number below `n`, lowest first. -/
def foldBelow {σ : Type} (f : Nat → σ → σ) (n : Nat) (s : σ) : σ := (List.range n).foldl (fun s k => f k s) s

end Sys2Proof.Machine
end

