-- ==== Sys2Proof/Machine/Layout.lean ====
section
/-! DEFINITION. The BAR0 register map (R541): the address of every register, the place of every field, and, per
register, its fields with their access codes (R11) and reset values (R548). Written from the field maps of the spec;
a reset shown there as a dash is 0 here (R548), and one that "refers to a rule" is put right by `Regs.reset`. -/

namespace Sys2Proof.Machine.Regs

/-- The access codes of R11. -/
inductive Acc where
  | rw | ro | wo | w1c | rwt
  deriving DecidableEq, Repr

/-- One field of a register: its place and its access code. -/
structure Field where
  fld : Fld
  acc : Acc
  deriving DecidableEq, Repr

/-- One register: its fields and its reset value. -/
structure Desc where
  fields : List Field
  reset : Nat
  deriving DecidableEq, Repr

/-- A row of a block's register table: registers at `off + s1*i + s2*j` for `i < c1`, `j < c2`. -/
structure Row where
  off : Nat
  s1 : Nat
  c1 : Nat
  s2 : Nat
  c2 : Nat
  desc : Desc
  deriving DecidableEq, Repr

/-- A block of R541: its base, the stride and number of its instances, and its rows. -/
structure Block where
  base : Nat
  stride : Nat
  count : Nat
  rows : List Row
  deriving DecidableEq, Repr

/-- GLOBAL.IDCODE (R552). -/
def idcode : Nat := 0x0
def idcode_FAMILY : Fld := ⟨31, 28⟩
def idcode_PART : Fld := ⟨27, 12⟩
def idcode_VENDOR : Fld := ⟨11, 1⟩
def idcode_ONE : Fld := ⟨0, 0⟩
def idcodeDesc : Desc := ⟨[⟨idcode_FAMILY, .ro⟩, ⟨idcode_PART, .ro⟩, ⟨idcode_VENDOR, .ro⟩, ⟨idcode_ONE, .ro⟩], 0x50000EB3⟩

/-- GLOBAL.REVISION (R552). -/
def revision : Nat := 0x4
def revision_GRADE : Fld := ⟨9, 8⟩
def revision_STEP : Fld := ⟨7, 0⟩
def revisionDesc : Desc := ⟨[⟨revision_GRADE, .ro⟩, ⟨revision_STEP, .ro⟩], 0x0⟩

/-- GLOBAL.CAPS (R552). -/
def caps : Nat := 0x8
def caps_CORES : Fld := ⟨31, 24⟩
def caps_CHAINS : Fld := ⟨23, 16⟩
def caps_SAGGERS : Fld := ⟨15, 8⟩
def caps_QUADS : Fld := ⟨7, 0⟩
def capsDesc : Desc := ⟨[⟨caps_CORES, .ro⟩, ⟨caps_CHAINS, .ro⟩, ⟨caps_SAGGERS, .ro⟩, ⟨caps_QUADS, .ro⟩], 0x0⟩

/-- GLOBAL.BOOT_STATUS (R540). -/
def bootStatus : Nat := 0x100
def bootStatus_DEOGEN_FAIL : Fld := ⟨8, 8⟩
def bootStatus_REF_WAIT : Fld := ⟨7, 7⟩
def bootStatus_READY : Fld := ⟨3, 3⟩
def bootStatus_STAGE : Fld := ⟨2, 0⟩
def bootStatusDesc : Desc := ⟨[⟨bootStatus_DEOGEN_FAIL, .ro⟩, ⟨bootStatus_REF_WAIT, .ro⟩, ⟨bootStatus_READY, .ro⟩, ⟨bootStatus_STAGE, .ro⟩], 0x0⟩

/-- GLOBAL.RESET_CTRL (R540). -/
def resetCtrl : Nat := 0x104
def resetCtrl_KEY : Fld := ⟨31, 16⟩
def resetCtrl_DEV_RESET : Fld := ⟨0, 0⟩
def resetCtrlDesc : Desc := ⟨[⟨resetCtrl_KEY, .wo⟩, ⟨resetCtrl_DEV_RESET, .wo⟩], 0x0⟩

/-- GLOBAL.FW_STATUS (R540). -/
def fwStatus : Nat := 0x108
def fwStatus_VERSION : Fld := ⟨31, 16⟩
def fwStatus_B_VALID : Fld := ⟨5, 5⟩
def fwStatus_A_VALID : Fld := ⟨4, 4⟩
def fwStatus_PENDING : Fld := ⟨3, 3⟩
def fwStatus_RUNNING : Fld := ⟨1, 0⟩
def fwStatusDesc : Desc := ⟨[⟨fwStatus_VERSION, .ro⟩, ⟨fwStatus_B_VALID, .ro⟩, ⟨fwStatus_A_VALID, .ro⟩, ⟨fwStatus_PENDING, .ro⟩, ⟨fwStatus_RUNNING, .ro⟩], 0x0⟩

/-- GLOBAL.BISQUE_CH (R540). -/
def bisqueCh (q : Nat) : Nat := 0x140 + 0x4 * q
def bisqueCh_REFUSED : Fld := ⟨10, 10⟩
def bisqueCh_STATE : Fld := ⟨9, 8⟩
def bisqueCh_EN : Fld := ⟨3, 3⟩
def bisqueCh_DEC : Fld := ⟨2, 0⟩
def bisqueChDesc : Desc := ⟨[⟨bisqueCh_REFUSED, .w1c⟩, ⟨bisqueCh_STATE, .ro⟩, ⟨bisqueCh_EN, .rwt⟩, ⟨bisqueCh_DEC, .rwt⟩], 0x3⟩

/-- GLOBAL.CH_OWNER (R553). -/
def chOwner (i : Nat) : Nat := 0x200 + 0x4 * i
def chOwner_OWN7 : Fld := ⟨31, 28⟩
def chOwner_OWN6 : Fld := ⟨27, 24⟩
def chOwner_OWN5 : Fld := ⟨23, 20⟩
def chOwner_OWN4 : Fld := ⟨19, 16⟩
def chOwner_OWN3 : Fld := ⟨15, 12⟩
def chOwner_OWN2 : Fld := ⟨11, 8⟩
def chOwner_OWN1 : Fld := ⟨7, 4⟩
def chOwner_OWN0 : Fld := ⟨3, 0⟩
def chOwnerDesc : Desc := ⟨[⟨chOwner_OWN7, .rwt⟩, ⟨chOwner_OWN6, .rwt⟩, ⟨chOwner_OWN5, .rwt⟩, ⟨chOwner_OWN4, .rwt⟩, ⟨chOwner_OWN3, .rwt⟩, ⟨chOwner_OWN2, .rwt⟩, ⟨chOwner_OWN1, .rwt⟩, ⟨chOwner_OWN0, .rwt⟩], 0x11111111⟩

/-- GLOBAL.CH_OWNER_NOW (R553). -/
def chOwnerNow (i : Nat) : Nat := 0x240 + 0x4 * i
def chOwnerNow_OWN7 : Fld := ⟨31, 28⟩
def chOwnerNow_OWN6 : Fld := ⟨27, 24⟩
def chOwnerNow_OWN5 : Fld := ⟨23, 20⟩
def chOwnerNow_OWN4 : Fld := ⟨19, 16⟩
def chOwnerNow_OWN3 : Fld := ⟨15, 12⟩
def chOwnerNow_OWN2 : Fld := ⟨11, 8⟩
def chOwnerNow_OWN1 : Fld := ⟨7, 4⟩
def chOwnerNow_OWN0 : Fld := ⟨3, 0⟩
def chOwnerNowDesc : Desc := ⟨[⟨chOwnerNow_OWN7, .ro⟩, ⟨chOwnerNow_OWN6, .ro⟩, ⟨chOwnerNow_OWN5, .ro⟩, ⟨chOwnerNow_OWN4, .ro⟩, ⟨chOwnerNow_OWN3, .ro⟩, ⟨chOwnerNow_OWN2, .ro⟩, ⟨chOwnerNow_OWN1, .ro⟩, ⟨chOwnerNow_OWN0, .ro⟩], 0x11111111⟩

/-- GLOBAL.PIN_OWNER (R553). -/
def pinOwner (i : Nat) : Nat := 0x300 + 0x4 * i
def pinOwner_OWN7 : Fld := ⟨31, 28⟩
def pinOwner_OWN6 : Fld := ⟨27, 24⟩
def pinOwner_OWN5 : Fld := ⟨23, 20⟩
def pinOwner_OWN4 : Fld := ⟨19, 16⟩
def pinOwner_OWN3 : Fld := ⟨15, 12⟩
def pinOwner_OWN2 : Fld := ⟨11, 8⟩
def pinOwner_OWN1 : Fld := ⟨7, 4⟩
def pinOwner_OWN0 : Fld := ⟨3, 0⟩
def pinOwnerDesc : Desc := ⟨[⟨pinOwner_OWN7, .rwt⟩, ⟨pinOwner_OWN6, .rwt⟩, ⟨pinOwner_OWN5, .rwt⟩, ⟨pinOwner_OWN4, .rwt⟩, ⟨pinOwner_OWN3, .rwt⟩, ⟨pinOwner_OWN2, .rwt⟩, ⟨pinOwner_OWN1, .rwt⟩, ⟨pinOwner_OWN0, .rwt⟩], 0x11111111⟩

/-- GLOBAL.PIN_OWNER_NOW (R553). -/
def pinOwnerNow (i : Nat) : Nat := 0x400 + 0x4 * i
def pinOwnerNow_OWN7 : Fld := ⟨31, 28⟩
def pinOwnerNow_OWN6 : Fld := ⟨27, 24⟩
def pinOwnerNow_OWN5 : Fld := ⟨23, 20⟩
def pinOwnerNow_OWN4 : Fld := ⟨19, 16⟩
def pinOwnerNow_OWN3 : Fld := ⟨15, 12⟩
def pinOwnerNow_OWN2 : Fld := ⟨11, 8⟩
def pinOwnerNow_OWN1 : Fld := ⟨7, 4⟩
def pinOwnerNow_OWN0 : Fld := ⟨3, 0⟩
def pinOwnerNowDesc : Desc := ⟨[⟨pinOwnerNow_OWN7, .ro⟩, ⟨pinOwnerNow_OWN6, .ro⟩, ⟨pinOwnerNow_OWN5, .ro⟩, ⟨pinOwnerNow_OWN4, .ro⟩, ⟨pinOwnerNow_OWN3, .ro⟩, ⟨pinOwnerNow_OWN2, .ro⟩, ⟨pinOwnerNow_OWN1, .ro⟩, ⟨pinOwnerNow_OWN0, .ro⟩], 0x11111111⟩

/-- GLOBAL.OWN_STATUS (R556). -/
def ownStatus : Nat := 0x500
def ownStatus_REFUSED : Fld := ⟨16, 16⟩
def ownStatus_UNIT : Fld := ⟨15, 0⟩
def ownStatusDesc : Desc := ⟨[⟨ownStatus_REFUSED, .w1c⟩, ⟨ownStatus_UNIT, .ro⟩], 0xFFFF⟩

/-- GLOBAL.CHAIN_OWNER (R553). -/
def chainOwner (i : Nat) : Nat := 0x600 + 0x4 * i
def chainOwner_OWN7 : Fld := ⟨31, 28⟩
def chainOwner_OWN6 : Fld := ⟨27, 24⟩
def chainOwner_OWN5 : Fld := ⟨23, 20⟩
def chainOwner_OWN4 : Fld := ⟨19, 16⟩
def chainOwner_OWN3 : Fld := ⟨15, 12⟩
def chainOwner_OWN2 : Fld := ⟨11, 8⟩
def chainOwner_OWN1 : Fld := ⟨7, 4⟩
def chainOwner_OWN0 : Fld := ⟨3, 0⟩
def chainOwnerDesc : Desc := ⟨[⟨chainOwner_OWN7, .ro⟩, ⟨chainOwner_OWN6, .ro⟩, ⟨chainOwner_OWN5, .ro⟩, ⟨chainOwner_OWN4, .ro⟩, ⟨chainOwner_OWN3, .ro⟩, ⟨chainOwner_OWN2, .ro⟩, ⟨chainOwner_OWN1, .ro⟩, ⟨chainOwner_OWN0, .ro⟩], 0xFFFFFFFF⟩

/-- GLOBAL.CORE_OWNER (R553). -/
def coreOwner (i : Nat) : Nat := 0x640 + 0x4 * i
def coreOwner_OWN7 : Fld := ⟨31, 28⟩
def coreOwner_OWN6 : Fld := ⟨27, 24⟩
def coreOwner_OWN5 : Fld := ⟨23, 20⟩
def coreOwner_OWN4 : Fld := ⟨19, 16⟩
def coreOwner_OWN3 : Fld := ⟨15, 12⟩
def coreOwner_OWN2 : Fld := ⟨11, 8⟩
def coreOwner_OWN1 : Fld := ⟨7, 4⟩
def coreOwner_OWN0 : Fld := ⟨3, 0⟩
def coreOwnerDesc : Desc := ⟨[⟨coreOwner_OWN7, .ro⟩, ⟨coreOwner_OWN6, .ro⟩, ⟨coreOwner_OWN5, .ro⟩, ⟨coreOwner_OWN4, .ro⟩, ⟨coreOwner_OWN3, .ro⟩, ⟨coreOwner_OWN2, .ro⟩, ⟨coreOwner_OWN1, .ro⟩, ⟨coreOwner_OWN0, .ro⟩], 0xFFFFFFFF⟩

/-- GLOBAL.SAGGER_OWNER (R553). -/
def saggerOwner (i : Nat) : Nat := 0x680 + 0x4 * i
def saggerOwner_OWN7 : Fld := ⟨31, 28⟩
def saggerOwner_OWN6 : Fld := ⟨27, 24⟩
def saggerOwner_OWN5 : Fld := ⟨23, 20⟩
def saggerOwner_OWN4 : Fld := ⟨19, 16⟩
def saggerOwner_OWN3 : Fld := ⟨15, 12⟩
def saggerOwner_OWN2 : Fld := ⟨11, 8⟩
def saggerOwner_OWN1 : Fld := ⟨7, 4⟩
def saggerOwner_OWN0 : Fld := ⟨3, 0⟩
def saggerOwnerDesc : Desc := ⟨[⟨saggerOwner_OWN7, .ro⟩, ⟨saggerOwner_OWN6, .ro⟩, ⟨saggerOwner_OWN5, .ro⟩, ⟨saggerOwner_OWN4, .ro⟩, ⟨saggerOwner_OWN3, .ro⟩, ⟨saggerOwner_OWN2, .ro⟩, ⟨saggerOwner_OWN1, .ro⟩, ⟨saggerOwner_OWN0, .ro⟩], 0xFFFFFFFF⟩

/-- GLOBAL.CAB_OWNER (R553). -/
def cabOwner (i : Nat) : Nat := 0x6C0 + 0x4 * i
def cabOwner_OWN7 : Fld := ⟨31, 28⟩
def cabOwner_OWN6 : Fld := ⟨27, 24⟩
def cabOwner_OWN5 : Fld := ⟨23, 20⟩
def cabOwner_OWN4 : Fld := ⟨19, 16⟩
def cabOwner_OWN3 : Fld := ⟨15, 12⟩
def cabOwner_OWN2 : Fld := ⟨11, 8⟩
def cabOwner_OWN1 : Fld := ⟨7, 4⟩
def cabOwner_OWN0 : Fld := ⟨3, 0⟩
def cabOwnerDesc : Desc := ⟨[⟨cabOwner_OWN7, .ro⟩, ⟨cabOwner_OWN6, .ro⟩, ⟨cabOwner_OWN5, .ro⟩, ⟨cabOwner_OWN4, .ro⟩, ⟨cabOwner_OWN3, .ro⟩, ⟨cabOwner_OWN2, .ro⟩, ⟨cabOwner_OWN1, .ro⟩, ⟨cabOwner_OWN0, .ro⟩], 0xFFFFFFFF⟩

/-- GLOBAL.DAC_OWNER (R553). -/
def dacOwner (i : Nat) : Nat := 0x700 + 0x4 * i
def dacOwner_OWN7 : Fld := ⟨31, 28⟩
def dacOwner_OWN6 : Fld := ⟨27, 24⟩
def dacOwner_OWN5 : Fld := ⟨23, 20⟩
def dacOwner_OWN4 : Fld := ⟨19, 16⟩
def dacOwner_OWN3 : Fld := ⟨15, 12⟩
def dacOwner_OWN2 : Fld := ⟨11, 8⟩
def dacOwner_OWN1 : Fld := ⟨7, 4⟩
def dacOwner_OWN0 : Fld := ⟨3, 0⟩
def dacOwnerDesc : Desc := ⟨[⟨dacOwner_OWN7, .ro⟩, ⟨dacOwner_OWN6, .ro⟩, ⟨dacOwner_OWN5, .ro⟩, ⟨dacOwner_OWN4, .ro⟩, ⟨dacOwner_OWN3, .ro⟩, ⟨dacOwner_OWN2, .ro⟩, ⟨dacOwner_OWN1, .ro⟩, ⟨dacOwner_OWN0, .ro⟩], 0xFFFFFFFF⟩

/-- HOST.FN[f].CMD_BASE_LO (R453). -/
def cmdBaseLo (f : Nat) : Nat := 0x10000 + 0x1000 * f
def cmdBaseLo_ADDR : Fld := ⟨31, 12⟩
def cmdBaseLoDesc : Desc := ⟨[⟨cmdBaseLo_ADDR, .rw⟩], 0x0⟩

/-- HOST.FN[f].CMD_BASE_HI (R453). -/
def cmdBaseHi (f : Nat) : Nat := 0x10004 + 0x1000 * f
def cmdBaseHi_ADDR : Fld := ⟨31, 0⟩
def cmdBaseHiDesc : Desc := ⟨[⟨cmdBaseHi_ADDR, .rw⟩], 0x0⟩

/-- HOST.FN[f].CMD_CTRL (R453). -/
def cmdCtrl (f : Nat) : Nat := 0x10008 + 0x1000 * f
def cmdCtrl_RIDX : Fld := ⟨31, 16⟩
def cmdCtrl_HALTED : Fld := ⟨7, 7⟩
def cmdCtrl_EN : Fld := ⟨4, 4⟩
def cmdCtrl_SIZE : Fld := ⟨3, 0⟩
def cmdCtrlDesc : Desc := ⟨[⟨cmdCtrl_RIDX, .ro⟩, ⟨cmdCtrl_HALTED, .ro⟩, ⟨cmdCtrl_EN, .rw⟩, ⟨cmdCtrl_SIZE, .rw⟩], 0x4⟩

/-- HOST.FN[f].EVT_BASE_LO (R453). -/
def evtBaseLo (f : Nat) : Nat := 0x10010 + 0x1000 * f
def evtBaseLo_ADDR : Fld := ⟨31, 12⟩
def evtBaseLoDesc : Desc := ⟨[⟨evtBaseLo_ADDR, .rw⟩], 0x0⟩

/-- HOST.FN[f].EVT_BASE_HI (R453). -/
def evtBaseHi (f : Nat) : Nat := 0x10014 + 0x1000 * f
def evtBaseHi_ADDR : Fld := ⟨31, 0⟩
def evtBaseHiDesc : Desc := ⟨[⟨evtBaseHi_ADDR, .rw⟩], 0x0⟩

/-- HOST.FN[f].EVT_CTRL (R453). -/
def evtCtrl (f : Nat) : Nat := 0x10018 + 0x1000 * f
def evtCtrl_WIDX : Fld := ⟨31, 16⟩
def evtCtrl_EN : Fld := ⟨15, 15⟩
def evtCtrl_HOLDOFF : Fld := ⟨14, 5⟩
def evtCtrl_SIZE : Fld := ⟨3, 0⟩
def evtCtrlDesc : Desc := ⟨[⟨evtCtrl_WIDX, .ro⟩, ⟨evtCtrl_EN, .rw⟩, ⟨evtCtrl_HOLDOFF, .rw⟩, ⟨evtCtrl_SIZE, .rw⟩], 0x4⟩

/-- HOST.FN[f].DB_ADDR_LO (R453). -/
def dbAddrLo (f : Nat) : Nat := 0x10020 + 0x1000 * f
def dbAddrLo_ADDR : Fld := ⟨31, 6⟩
def dbAddrLoDesc : Desc := ⟨[⟨dbAddrLo_ADDR, .rw⟩], 0x0⟩

/-- HOST.FN[f].DB_ADDR_HI (R453). -/
def dbAddrHi (f : Nat) : Nat := 0x10024 + 0x1000 * f
def dbAddrHi_ADDR : Fld := ⟨31, 0⟩
def dbAddrHiDesc : Desc := ⟨[⟨dbAddrHi_ADDR, .rw⟩], 0x0⟩

/-- HOST.FN[f].WAKE (R453). -/
def wake (f : Nat) : Nat := 0x10028 + 0x1000 * f
def wake_GO : Fld := ⟨0, 0⟩
def wakeDesc : Desc := ⟨[⟨wake_GO, .wo⟩], 0x0⟩

/-- HOST.FN[f].STATUS (R453). -/
def hostStatus (f : Nat) : Nat := 0x1002C + 0x1000 * f
def hostStatus_READY : Fld := ⟨5, 5⟩
def hostStatus_EVT_OVF : Fld := ⟨4, 4⟩
def hostStatus_DATA_HALT : Fld := ⟨3, 3⟩
def hostStatus_CMD_HALT : Fld := ⟨2, 2⟩
def hostStatus_DB_ERR : Fld := ⟨1, 1⟩
def hostStatus_SETUP_REFUSED : Fld := ⟨0, 0⟩
def hostStatusDesc : Desc := ⟨[⟨hostStatus_READY, .ro⟩, ⟨hostStatus_EVT_OVF, .w1c⟩, ⟨hostStatus_DATA_HALT, .w1c⟩, ⟨hostStatus_CMD_HALT, .w1c⟩, ⟨hostStatus_DB_ERR, .w1c⟩, ⟨hostStatus_SETUP_REFUSED, .w1c⟩], 0x0⟩

/-- HOST.FN[f].EVT_LOST (R453). -/
def evtLost (f : Nat) : Nat := 0x10030 + 0x1000 * f
def evtLost_COUNT : Fld := ⟨31, 0⟩
def evtLostDesc : Desc := ⟨[⟨evtLost_COUNT, .ro⟩], 0x0⟩

/-- HOST.FN[f].DATA_BASE_LO (R453). -/
def dataBaseLo (f k : Nat) : Nat := 0x10100 + 0x1000 * f + 0x10 * k
def dataBaseLo_ADDR : Fld := ⟨31, 12⟩
def dataBaseLoDesc : Desc := ⟨[⟨dataBaseLo_ADDR, .rw⟩], 0x0⟩

/-- HOST.FN[f].DATA_BASE_HI (R453). -/
def dataBaseHi (f k : Nat) : Nat := 0x10104 + 0x1000 * f + 0x10 * k
def dataBaseHi_ADDR : Fld := ⟨31, 0⟩
def dataBaseHiDesc : Desc := ⟨[⟨dataBaseHi_ADDR, .rw⟩], 0x0⟩

/-- HOST.FN[f].DATA_CTRL (R453). -/
def dataCtrl (f k : Nat) : Nat := 0x10108 + 0x1000 * f + 0x10 * k
def dataCtrl_RIDX : Fld := ⟨31, 16⟩
def dataCtrl_ENGINE : Fld := ⟨15, 12⟩
def dataCtrl_HALTED : Fld := ⟨7, 7⟩
def dataCtrl_EN : Fld := ⟨4, 4⟩
def dataCtrl_SIZE : Fld := ⟨3, 0⟩
def dataCtrlDesc : Desc := ⟨[⟨dataCtrl_RIDX, .ro⟩, ⟨dataCtrl_ENGINE, .ro⟩, ⟨dataCtrl_HALTED, .ro⟩, ⟨dataCtrl_EN, .rw⟩, ⟨dataCtrl_SIZE, .rw⟩], 0x4⟩

/-- HOST.FN[f].DATA_DROP (R453). -/
def dataDrop (f k : Nat) : Nat := 0x1010C + 0x1000 * f + 0x10 * k
def dataDrop_COUNT : Fld := ⟨31, 0⟩
def dataDropDesc : Desc := ⟨[⟨dataDrop_COUNT, .ro⟩], 0x0⟩

/-- EVENTS.FN[f].ENABLE (R478). -/
def evEnable (f i : Nat) : Nat := 0x20000 + 0x1000 * f + 0x4 * i
def evEnable_EN : Fld := ⟨31, 0⟩
def evEnableDesc : Desc := ⟨[⟨evEnable_EN, .rw⟩], 0xFFFFFFFF⟩

/-- EVENTS.FN[f].ENABLE[27] (R478). -/
def evEnable27 (f : Nat) : Nat := 0x2006C + 0x1000 * f
def evEnable27_EN : Fld := ⟨7, 0⟩
def evEnable27Desc : Desc := ⟨[⟨evEnable27_EN, .rw⟩], 0xFF⟩

/-- EVENTS.FN[f].VMAP (R478). -/
def vmap (f i : Nat) : Nat := 0x20100 + 0x1000 * f + 0x4 * i
def vmap_V3 : Fld := ⟨29, 24⟩
def vmap_V2 : Fld := ⟨21, 16⟩
def vmap_V1 : Fld := ⟨13, 8⟩
def vmap_V0 : Fld := ⟨5, 0⟩
def vmapDesc : Desc := ⟨[⟨vmap_V3, .rw⟩, ⟨vmap_V2, .rw⟩, ⟨vmap_V1, .rw⟩, ⟨vmap_V0, .rw⟩], 0x0⟩

/-- EVENTS.FN[f].SEQ_NEXT (R478). -/
def evSeqNext (f : Nat) : Nat := 0x20800 + 0x1000 * f
def evSeqNext_SEQ : Fld := ⟨31, 0⟩
def evSeqNextDesc : Desc := ⟨[⟨evSeqNext_SEQ, .ro⟩], 0x0⟩

/-- FAULTLOG.STATUS (R479). -/
def flStatus : Nat := 0x30000
def flStatus_LOST_ANY : Fld := ⟨17, 17⟩
def flStatus_FULL : Fld := ⟨16, 16⟩
def flStatus_OLDEST : Fld := ⟨13, 8⟩
def flStatus_COUNT : Fld := ⟨6, 0⟩
def flStatusDesc : Desc := ⟨[⟨flStatus_LOST_ANY, .w1c⟩, ⟨flStatus_FULL, .ro⟩, ⟨flStatus_OLDEST, .ro⟩, ⟨flStatus_COUNT, .ro⟩], 0x0⟩

/-- FAULTLOG.ACK (R479). -/
def flAck : Nat := 0x30004
def flAck_N : Fld := ⟨6, 0⟩
def flAckDesc : Desc := ⟨[⟨flAck_N, .wo⟩], 0x0⟩

/-- FAULTLOG.LOST (R479). -/
def flLost : Nat := 0x30008
def flLost_COUNT : Fld := ⟨31, 0⟩
def flLostDesc : Desc := ⟨[⟨flLost_COUNT, .ro⟩], 0x0⟩

/-- FAULTLOG.SEQ_NEXT (R479). -/
def flSeqNext : Nat := 0x3000C
def flSeqNext_SEQ : Fld := ⟨31, 0⟩
def flSeqNextDesc : Desc := ⟨[⟨flSeqNext_SEQ, .ro⟩], 0x0⟩

/-- FAULTLOG.ENTRY (R479). -/
def flEntry (i w : Nat) : Nat := 0x30100 + 0x20 * i + 0x4 * w
def flEntry_W : Fld := ⟨31, 0⟩
def flEntryDesc : Desc := ⟨[⟨flEntry_W, .ro⟩], 0x0⟩

/-- TIME.TICK_CTRL (R52). -/
def tickCtrl : Nat := 0x40000
def tickCtrl_TICK_DIV : Fld := ⟨19, 0⟩
def tickCtrlDesc : Desc := ⟨[⟨tickCtrl_TICK_DIV, .rwt⟩], 0x2710⟩

/-- TIME.TICK_LO (R52). -/
def tickLo : Nat := 0x40004
def tickLo_V : Fld := ⟨31, 0⟩
def tickLoDesc : Desc := ⟨[⟨tickLo_V, .ro⟩], 0x0⟩

/-- TIME.TICK_HI (R52). -/
def tickHi : Nat := 0x40008
def tickHi_V : Fld := ⟨31, 0⟩
def tickHiDesc : Desc := ⟨[⟨tickHi_V, .ro⟩], 0x0⟩

/-- TIME.SUBTICK (R52). -/
def subtickReg : Nat := 0x4000C
def subtickReg_V : Fld := ⟨31, 0⟩
def subtickRegDesc : Desc := ⟨[⟨subtickReg_V, .ro⟩], 0x0⟩

/-- TIME.STATUS (R52). -/
def timeStatus : Nat := 0x40010
def timeStatus_SYNC_ERR : Fld := ⟨8, 8⟩
def timeStatus_ARM_REFUSED : Fld := ⟨7, 7⟩
def timeStatus_DIV_REFUSED : Fld := ⟨6, 6⟩
def timeStatus_ALIGNED : Fld := ⟨5, 5⟩
def timeStatus_HOLDOVER : Fld := ⟨4, 4⟩
def timeStatus_RELOCKING : Fld := ⟨3, 3⟩
def timeStatus_QUADS_LOCKED : Fld := ⟨2, 2⟩
def timeStatus_SYS_LOCK : Fld := ⟨1, 1⟩
def timeStatus_REF_PRESENT : Fld := ⟨0, 0⟩
def timeStatusDesc : Desc := ⟨[⟨timeStatus_SYNC_ERR, .w1c⟩, ⟨timeStatus_ARM_REFUSED, .w1c⟩, ⟨timeStatus_DIV_REFUSED, .w1c⟩, ⟨timeStatus_ALIGNED, .ro⟩, ⟨timeStatus_HOLDOVER, .ro⟩, ⟨timeStatus_RELOCKING, .ro⟩, ⟨timeStatus_QUADS_LOCKED, .ro⟩, ⟨timeStatus_SYS_LOCK, .ro⟩, ⟨timeStatus_REF_PRESENT, .ro⟩], 0x0⟩

/-- TIME.REF_CTRL (R52). -/
def refCtrl : Nat := 0x40014
def refCtrl_RELOCK_GO : Fld := ⟨1, 1⟩
def refCtrl_RELOCK : Fld := ⟨0, 0⟩
def refCtrlDesc : Desc := ⟨[⟨refCtrl_RELOCK_GO, .wo⟩, ⟨refCtrl_RELOCK, .rw⟩], 0x0⟩

/-- TIME.SYNC_CTRL (R52). -/
def syncCtrl : Nat := 0x40018
def syncCtrl_DELAY : Fld := ⟨15, 8⟩
def syncCtrl_MODE : Fld := ⟨1, 0⟩
def syncCtrlDesc : Desc := ⟨[⟨syncCtrl_DELAY, .rw⟩, ⟨syncCtrl_MODE, .rw⟩], 0x0⟩

/-- TIME.SYNC_LOAD_LO (R52). -/
def syncLoadLo : Nat := 0x4001C
def syncLoadLo_V : Fld := ⟨31, 0⟩
def syncLoadLoDesc : Desc := ⟨[⟨syncLoadLo_V, .rw⟩], 0x0⟩

/-- TIME.SYNC_LOAD_HI (R52). -/
def syncLoadHi : Nat := 0x40020
def syncLoadHi_V : Fld := ⟨31, 0⟩
def syncLoadHiDesc : Desc := ⟨[⟨syncLoadHi_V, .rw⟩], 0x0⟩

/-- TIME.SYNC_OFFSET (R52). -/
def syncOffset : Nat := 0x40024
def syncOffset_V : Fld := ⟨31, 0⟩
def syncOffsetDesc : Desc := ⟨[⟨syncOffset_V, .ro⟩], 0x0⟩

/-- TIME.HOLD_TICK_LO (R52). -/
def holdTickLo : Nat := 0x40028
def holdTickLo_V : Fld := ⟨31, 0⟩
def holdTickLoDesc : Desc := ⟨[⟨holdTickLo_V, .ro⟩], 0x0⟩

/-- TIME.HOLD_TICK_HI (R52). -/
def holdTickHi : Nat := 0x4002C
def holdTickHi_V : Fld := ⟨31, 0⟩
def holdTickHiDesc : Desc := ⟨[⟨holdTickHi_V, .ro⟩], 0x0⟩

/-- TIME.QPLL_LOCK (R52). -/
def qpllLock : Nat := 0x40030
def qpllLock_LOCK : Fld := ⟨15, 0⟩
def qpllLockDesc : Desc := ⟨[⟨qpllLock_LOCK, .ro⟩], 0x0⟩

/-- TIME.CLKREF_PPM (R52). -/
def clkrefPpm : Nat := 0x40034
def clkrefPpm_V : Fld := ⟨31, 0⟩
def clkrefPpmDesc : Desc := ⟨[⟨clkrefPpm_V, .ro⟩], 0x0⟩

/-- QUAD[q].CH_CTRL (R88). -/
def chCtrl (q k : Nat) : Nat := 0x100000 + 0x10000 * q + 0x20 * k
def chCtrl_INSEL : Fld := ⟨17, 16⟩
def chCtrl_ATT : Fld := ⟨15, 15⟩
def chCtrl_PGA : Fld := ⟨12, 8⟩
def chCtrl_AAF_EN : Fld := ⟨7, 7⟩
def chCtrl_OVLD_IE : Fld := ⟨6, 6⟩
def chCtrl_FC : Fld := ⟨5, 0⟩
def chCtrlDesc : Desc := ⟨[⟨chCtrl_INSEL, .rwt⟩, ⟨chCtrl_ATT, .rwt⟩, ⟨chCtrl_PGA, .rwt⟩, ⟨chCtrl_AAF_EN, .rwt⟩, ⟨chCtrl_OVLD_IE, .rw⟩, ⟨chCtrl_FC, .rwt⟩], 0x803F⟩

/-- QUAD[q].CH_OFFSET (R88). -/
def chOffset (q k : Nat) : Nat := 0x100004 + 0x10000 * q + 0x20 * k
def chOffset_OFS : Fld := ⟨11, 0⟩
def chOffsetDesc : Desc := ⟨[⟨chOffset_OFS, .rwt⟩], 0x0⟩

/-- QUAD[q].CH_STATUS (R88). -/
def chStatus (q k : Nat) : Nat := 0x100008 + 0x10000 * q + 0x20 * k
def chStatus_REFUSED : Fld := ⟨3, 3⟩
def chStatus_CAL_HOLD : Fld := ⟨2, 2⟩
def chStatus_OVLD_NOW : Fld := ⟨1, 1⟩
def chStatus_OVLD : Fld := ⟨0, 0⟩
def chStatusDesc : Desc := ⟨[⟨chStatus_REFUSED, .w1c⟩, ⟨chStatus_CAL_HOLD, .ro⟩, ⟨chStatus_OVLD_NOW, .ro⟩, ⟨chStatus_OVLD, .w1c⟩], 0x0⟩

/-- QUAD[q].REFBUF_CTRL (R88). -/
def refbufCtrl (q : Nat) : Nat := 0x100100 + 0x10000 * q
def refbufCtrl_EN : Fld := ⟨0, 0⟩
def refbufCtrlDesc : Desc := ⟨[⟨refbufCtrl_EN, .rw⟩], 0x0⟩

/-- QUAD[q].REFBUF_STATUS (R88). -/
def refbufStatus (q : Nat) : Nat := 0x100104 + 0x10000 * q
def refbufStatus_DIS_REFUSED : Fld := ⟨2, 2⟩
def refbufStatus_READY : Fld := ⟨1, 1⟩
def refbufStatus_ON : Fld := ⟨0, 0⟩
def refbufStatusDesc : Desc := ⟨[⟨refbufStatus_DIS_REFUSED, .w1c⟩, ⟨refbufStatus_READY, .ro⟩, ⟨refbufStatus_ON, .ro⟩], 0x0⟩

/-- QUAD[q].CALREF_CTRL (R88). -/
def calrefCtrl (q : Nat) : Nat := 0x100108 + 0x10000 * q
def calrefCtrl_LEVEL : Fld := ⟨2, 0⟩
def calrefCtrlDesc : Desc := ⟨[⟨calrefCtrl_LEVEL, .ro⟩], 0x0⟩

/-- QUAD[q].CAB_FUNC (R88). -/
def cabFunc (q b : Nat) : Nat := 0x100200 + 0x10000 * q + 0x20 * b
def cabFunc_OUT1_INV : Fld := ⟨11, 11⟩
def cabFunc_INT_RST : Fld := ⟨10, 9⟩
def cabFunc_RST_GO : Fld := ⟨8, 8⟩
def cabFunc_SIGN : Fld := ⟨7, 5⟩
def cabFunc_FUNC : Fld := ⟨2, 0⟩
def cabFuncDesc : Desc := ⟨[⟨cabFunc_OUT1_INV, .rwt⟩, ⟨cabFunc_INT_RST, .rwt⟩, ⟨cabFunc_RST_GO, .wo⟩, ⟨cabFunc_SIGN, .rwt⟩, ⟨cabFunc_FUNC, .rwt⟩], 0x0⟩

/-- QUAD[q].CAB_RES (R88). -/
def cabRes (q b : Nat) : Nat := 0x100204 + 0x10000 * q + 0x20 * b
def cabRes_RES_Q : Fld := ⟨23, 18⟩
def cabRes_RES_FB : Fld := ⟨13, 8⟩
def cabRes_RES_IN : Fld := ⟨5, 0⟩
def cabResDesc : Desc := ⟨[⟨cabRes_RES_Q, .rwt⟩, ⟨cabRes_RES_FB, .rwt⟩, ⟨cabRes_RES_IN, .rwt⟩], 0x0⟩

/-- QUAD[q].CAB_CAP (R88). -/
def cabCap (q b : Nat) : Nat := 0x100208 + 0x10000 * q + 0x20 * b
def cabCap_CAP_B : Fld := ⟨15, 8⟩
def cabCap_CAP_A : Fld := ⟨7, 0⟩
def cabCapDesc : Desc := ⟨[⟨cabCap_CAP_B, .rwt⟩, ⟨cabCap_CAP_A, .rwt⟩], 0x0⟩

/-- QUAD[q].CAB_CMP (R88). -/
def cabCmp (q b : Nat) : Nat := 0x10020C + 0x10000 * q + 0x20 * b
def cabCmp_CMP_IE : Fld := ⟨16, 16⟩
def cabCmp_HYST : Fld := ⟨15, 14⟩
def cabCmp_CMP_SRC : Fld := ⟨13, 12⟩
def cabCmp_LEVEL : Fld := ⟨9, 0⟩
def cabCmpDesc : Desc := ⟨[⟨cabCmp_CMP_IE, .rw⟩, ⟨cabCmp_HYST, .rwt⟩, ⟨cabCmp_CMP_SRC, .rwt⟩, ⟨cabCmp_LEVEL, .rwt⟩], 0x0⟩

/-- QUAD[q].CAB_STATUS (R88). -/
def cabStatus (q b : Nat) : Nat := 0x100210 + 0x10000 * q + 0x20 * b
def cabStatus_ERR : Fld := ⟨6, 4⟩
def cabStatus_REFUSED : Fld := ⟨3, 3⟩
def cabStatus_CLIP : Fld := ⟨2, 2⟩
def cabStatus_CMP_OUT : Fld := ⟨1, 1⟩
def cabStatus_ACTIVE : Fld := ⟨0, 0⟩
def cabStatusDesc : Desc := ⟨[⟨cabStatus_ERR, .ro⟩, ⟨cabStatus_REFUSED, .w1c⟩, ⟨cabStatus_CLIP, .w1c⟩, ⟨cabStatus_CMP_OUT, .ro⟩, ⟨cabStatus_ACTIVE, .ro⟩], 0x0⟩

/-- QUAD[q].MX_CMD (R88). -/
def mxCmd (q : Nat) : Nat := 0x100400 + 0x10000 * q
def mxCmd_OP : Fld := ⟨31, 30⟩
def mxCmd_WIRE : Fld := ⟨12, 8⟩
def mxCmd_TERM : Fld := ⟨5, 0⟩
def mxCmdDesc : Desc := ⟨[⟨mxCmd_OP, .wo⟩, ⟨mxCmd_WIRE, .wo⟩, ⟨mxCmd_TERM, .wo⟩], 0x0⟩

/-- QUAD[q].MX_STATUS (R88). -/
def mxStatus (q : Nat) : Nat := 0x100404 + 0x10000 * q
def mxStatus_PENDING : Fld := ⟨24, 20⟩
def mxStatus_REFUSED : Fld := ⟨19, 19⟩
def mxStatus_ERR : Fld := ⟨18, 16⟩
def mxStatus_ERR_WIRE : Fld := ⟨12, 8⟩
def mxStatus_ERR_TERM : Fld := ⟨5, 0⟩
def mxStatusDesc : Desc := ⟨[⟨mxStatus_PENDING, .ro⟩, ⟨mxStatus_REFUSED, .w1c⟩, ⟨mxStatus_ERR, .ro⟩, ⟨mxStatus_ERR_WIRE, .ro⟩, ⟨mxStatus_ERR_TERM, .ro⟩], 0x0⟩

/-- QUAD[q].MX_WIRE (R88). -/
def mxWire (q w : Nat) : Nat := 0x100500 + 0x10000 * q + 0x8 * w
def mxWire_DRIVER : Fld := ⟨29, 24⟩
def mxWire_HAS_DRIVER : Fld := ⟨23, 23⟩
def mxWire_LOADS : Fld := ⟨7, 0⟩
def mxWireDesc : Desc := ⟨[⟨mxWire_DRIVER, .ro⟩, ⟨mxWire_HAS_DRIVER, .ro⟩, ⟨mxWire_LOADS, .ro⟩], 0x0⟩

/-- QUAD[q].MX_WIRE_CAB (R88). -/
def mxWireCab (q w : Nat) : Nat := 0x100504 + 0x10000 * q + 0x8 * w
def mxWireCab_CAB_LOADS : Fld := ⟨23, 0⟩
def mxWireCabDesc : Desc := ⟨[⟨mxWireCab_CAB_LOADS, .ro⟩], 0x0⟩

/-- QUAD[q].DAC_CTRL (R88). -/
def dacCtrl (q : Nat) : Nat := 0x100600 + 0x10000 * q
def dacCtrl_ATT : Fld := ⟨9, 8⟩
def dacCtrl_SRC : Fld := ⟨6, 4⟩
def dacCtrl_STREAM_RATE : Fld := ⟨1, 0⟩
def dacCtrlDesc : Desc := ⟨[⟨dacCtrl_ATT, .rwt⟩, ⟨dacCtrl_SRC, .rwt⟩, ⟨dacCtrl_STREAM_RATE, .rwt⟩], 0x300⟩

/-- QUAD[q].DAC_CODE (R88). -/
def dacCode (q : Nat) : Nat := 0x100604 + 0x10000 * q
def dacCode_CODE : Fld := ⟨15, 0⟩
def dacCodeDesc : Desc := ⟨[⟨dacCode_CODE, .rwt⟩], 0x0⟩

/-- QUAD[q].DAC_TONE_FREQ (R88). -/
def dacToneFreq (q : Nat) : Nat := 0x100608 + 0x10000 * q
def dacToneFreq_FTW : Fld := ⟨31, 0⟩
def dacToneFreqDesc : Desc := ⟨[⟨dacToneFreq_FTW, .rwt⟩], 0x0⟩

/-- QUAD[q].DAC_TONE_AMP (R88). -/
def dacToneAmp (q : Nat) : Nat := 0x10060C + 0x10000 * q
def dacToneAmp_AMP : Fld := ⟨15, 0⟩
def dacToneAmpDesc : Desc := ⟨[⟨dacToneAmp_AMP, .rwt⟩], 0x0⟩

/-- QUAD[q].DAC_STATUS (R88). -/
def dacStatus (q : Nat) : Nat := 0x100610 + 0x10000 * q
def dacStatus_UNDERRUN : Fld := ⟨2, 2⟩
def dacStatus_REFUSED : Fld := ⟨1, 1⟩
def dacStatus_BUSY_CAL : Fld := ⟨0, 0⟩
def dacStatusDesc : Desc := ⟨[⟨dacStatus_UNDERRUN, .w1c⟩, ⟨dacStatus_REFUSED, .w1c⟩, ⟨dacStatus_BUSY_CAL, .ro⟩], 0x0⟩

/-- QUAD[q].POOL_STATUS (R124). -/
def poolStatus (q : Nat) : Nat := 0x101000 + 0x10000 * q
def poolStatus_RETIRE : Fld := ⟨27, 27⟩
def poolStatus_ROT_HELD : Fld := ⟨26, 26⟩
def poolStatus_ROT_STOPPED : Fld := ⟨25, 25⟩
def poolStatus_STANDBY : Fld := ⟨23, 18⟩
def poolStatus_RETIRED : Fld := ⟨17, 12⟩
def poolStatus_RESERVE : Fld := ⟨11, 6⟩
def poolStatus_ACTIVE : Fld := ⟨5, 0⟩
def poolStatusDesc : Desc := ⟨[⟨poolStatus_RETIRE, .w1c⟩, ⟨poolStatus_ROT_HELD, .ro⟩, ⟨poolStatus_ROT_STOPPED, .ro⟩, ⟨poolStatus_STANDBY, .ro⟩, ⟨poolStatus_RETIRED, .ro⟩, ⟨poolStatus_RESERVE, .ro⟩, ⟨poolStatus_ACTIVE, .ro⟩], 0x4000000⟩

/-- QUAD[q].CH_POOL (R124). -/
def chPool (q k : Nat) : Nat := 0x101010 + 0x10000 * q + 0x4 * k
def chPool_RAW_TAP : Fld := ⟨15, 15⟩
def chPool_FILL : Fld := ⟨14, 14⟩
def chPool_STATE : Fld := ⟨13, 12⟩
def chPool_NCODE : Fld := ⟨2, 0⟩
def chPoolDesc : Desc := ⟨[⟨chPool_RAW_TAP, .ro⟩, ⟨chPool_FILL, .ro⟩, ⟨chPool_STATE, .ro⟩, ⟨chPool_NCODE, .ro⟩], 0x0⟩

/-- QUAD[q].INJ_REQ (R124). -/
def injReq (q : Nat) : Nat := 0x101080 + 0x10000 * q
def injReq_TAG : Fld := ⟨23, 16⟩
def injReq_IE : Fld := ⟨8, 8⟩
def injReq_MON : Fld := ⟨3, 0⟩
def injReqDesc : Desc := ⟨[⟨injReq_TAG, .wo⟩, ⟨injReq_IE, .wo⟩, ⟨injReq_MON, .wo⟩], 0x0⟩

/-- QUAD[q].INJ_STATUS (R124). -/
def injStatus (q : Nat) : Nat := 0x101084 + 0x10000 * q
def injStatus_REFUSED : Fld := ⟨20, 20⟩
def injStatus_ERR : Fld := ⟨19, 16⟩
def injStatus_CAP : Fld := ⟨11, 8⟩
def injStatus_DEPTH : Fld := ⟨3, 0⟩
def injStatusDesc : Desc := ⟨[⟨injStatus_REFUSED, .w1c⟩, ⟨injStatus_ERR, .ro⟩, ⟨injStatus_CAP, .ro⟩, ⟨injStatus_DEPTH, .ro⟩], 0x800⟩

/-- QUAD[q].INJ_RESULT (R124). -/
def injResult (q m : Nat) : Nat := 0x1010C0 + 0x10000 * q + 0x4 * m
def injResult_STAT : Fld := ⟨31, 30⟩
def injResult_COUNT : Fld := ⟨29, 24⟩
def injResult_TAG : Fld := ⟨23, 16⟩
def injResult_VALUE : Fld := ⟨15, 0⟩
def injResultDesc : Desc := ⟨[⟨injResult_STAT, .ro⟩, ⟨injResult_COUNT, .ro⟩, ⟨injResult_TAG, .ro⟩, ⟨injResult_VALUE, .ro⟩], 0x0⟩

/-- QUAD[q].SLICE (R124). -/
def slice (q s : Nat) : Nat := 0x101100 + 0x10000 * q + 0x4 * s
def slice_CAUSE : Fld := ⟨23, 20⟩
def slice_FAILS : Fld := ⟨19, 18⟩
def slice_PHASE : Fld := ⟨15, 12⟩
def slice_POS : Fld := ⟨11, 8⟩
def slice_CHAN : Fld := ⟨7, 6⟩
def slice_STATE : Fld := ⟨2, 0⟩
def sliceDesc : Desc := ⟨[⟨slice_CAUSE, .ro⟩, ⟨slice_FAILS, .ro⟩, ⟨slice_PHASE, .ro⟩, ⟨slice_POS, .ro⟩, ⟨slice_CHAN, .ro⟩, ⟨slice_STATE, .ro⟩], 0x0⟩

/-- QUAD[q].SLICE_COR.S_OFS (R124). -/
def sOfs (q s : Nat) : Nat := 0x101200 + 0x10000 * q + 0x10 * s
def sOfs_OFS : Fld := ⟨12, 0⟩
def sOfsDesc : Desc := ⟨[⟨sOfs_OFS, .ro⟩], 0x0⟩

/-- QUAD[q].SLICE_COR.S_GAIN (R124). -/
def sGain (q s : Nat) : Nat := 0x101204 + 0x10000 * q + 0x10 * s
def sGain_GAIN : Fld := ⟨17, 0⟩
def sGainDesc : Desc := ⟨[⟨sGain_GAIN, .ro⟩], 0x0⟩

/-- QUAD[q].SLICE_COR.S_BW (R124). -/
def sBw (q s : Nat) : Nat := 0x101208 + 0x10000 * q + 0x10 * s
def sBw_HP : Fld := ⟨31, 16⟩
def sBw_HM : Fld := ⟨15, 0⟩
def sBwDesc : Desc := ⟨[⟨sBw_HP, .ro⟩, ⟨sBw_HM, .ro⟩], 0x0⟩

/-- QUAD[q].SLICE_COR.S_SKEW (R124). -/
def sSkew (q s : Nat) : Nat := 0x10120C + 0x10000 * q + 0x10 * s
def sSkew_SKEW : Fld := ⟨10, 0⟩
def sSkewDesc : Desc := ⟨[⟨sSkew_SKEW, .ro⟩], 0x0⟩

/-- QUAD[q].CH_COR.C_OFS (R124). -/
def cOfs (q k : Nat) : Nat := 0x101480 + 0x10000 * q + 0x8 * k
def cOfs_OFS : Fld := ⟨12, 0⟩
def cOfsDesc : Desc := ⟨[⟨cOfs_OFS, .ro⟩], 0x0⟩

/-- QUAD[q].CH_COR.C_GAIN (R124). -/
def cGain (q k : Nat) : Nat := 0x101484 + 0x10000 * q + 0x8 * k
def cGain_GAIN : Fld := ⟨17, 0⟩
def cGainDesc : Desc := ⟨[⟨cGain_GAIN, .ro⟩], 0x0⟩

/-- QUAD[q].CAL_QSTATUS (R157). -/
def calQstatus (q : Nat) : Nat := 0x101800 + 0x10000 * q
def calQstatus_SKEW_SUSP : Fld := ⟨23, 23⟩
def calQstatus_RUN_FAIL : Fld := ⟨22, 22⟩
def calQstatus_TEMP_STALE : Fld := ⟨21, 21⟩
def calQstatus_FG_ACTIVE : Fld := ⟨20, 20⟩
def calQstatus_FG_CHAN : Fld := ⟨19, 18⟩
def calQstatus_STEP : Fld := ⟨17, 15⟩
def calQstatus_TARGET : Fld := ⟨11, 6⟩
def calQstatusDesc : Desc := ⟨[⟨calQstatus_SKEW_SUSP, .ro⟩, ⟨calQstatus_RUN_FAIL, .w1c⟩, ⟨calQstatus_TEMP_STALE, .ro⟩, ⟨calQstatus_FG_ACTIVE, .ro⟩, ⟨calQstatus_FG_CHAN, .ro⟩, ⟨calQstatus_STEP, .ro⟩, ⟨calQstatus_TARGET, .ro⟩], 0xFC0⟩

/-- QUAD[q].CAL_QTEMP (R157). -/
def calQtemp (q : Nat) : Nat := 0x101804 + 0x10000 * q
def calQtemp_SRC : Fld := ⟨31, 30⟩
def calQtemp_TEMP : Fld := ⟨15, 0⟩
def calQtempDesc : Desc := ⟨[⟨calQtemp_SRC, .ro⟩, ⟨calQtemp_TEMP, .ro⟩], 0x0⟩

/-- QUAD[q].CAL_RUNS (R157). -/
def calRuns (q : Nat) : Nat := 0x101808 + 0x10000 * q
def calRuns_COUNT : Fld := ⟨31, 0⟩
def calRunsDesc : Desc := ⟨[⟨calRuns_COUNT, .ro⟩], 0x0⟩

/-- QUAD[q].CAL_RUN_FAILS (R157). -/
def calRunFails (q : Nat) : Nat := 0x10180C + 0x10000 * q
def calRunFails_COUNT : Fld := ⟨31, 0⟩
def calRunFailsDesc : Desc := ⟨[⟨calRunFails_COUNT, .ro⟩], 0x0⟩

/-- QUAD[q].PILOT_GUARD_LO (R157). -/
def pilotGuardLo (q : Nat) : Nat := 0x101810 + 0x10000 * q
def pilotGuardLo_F : Fld := ⟨17, 0⟩
def pilotGuardLoDesc : Desc := ⟨[⟨pilotGuardLo_F, .ro⟩], 0x0⟩

/-- QUAD[q].PILOT_GUARD_HI (R157). -/
def pilotGuardHi (q : Nat) : Nat := 0x101814 + 0x10000 * q
def pilotGuardHi_F : Fld := ⟨17, 0⟩
def pilotGuardHiDesc : Desc := ⟨[⟨pilotGuardHi_F, .ro⟩], 0x0⟩

/-- QUAD[q].PILOT_STATUS (R157). -/
def pilotStatus (q : Nat) : Nat := 0x101818 + 0x10000 * q
def pilotStatus_RUNNING : Fld := ⟨8, 8⟩
def pilotStatus_OPTED : Fld := ⟨7, 4⟩
def pilotStatus_TONE_ON : Fld := ⟨3, 3⟩
def pilotStatus_DAC_LOST : Fld := ⟨2, 2⟩
def pilotStatus_RUN_CHAN : Fld := ⟨1, 0⟩
def pilotStatusDesc : Desc := ⟨[⟨pilotStatus_RUNNING, .ro⟩, ⟨pilotStatus_OPTED, .ro⟩, ⟨pilotStatus_TONE_ON, .ro⟩, ⟨pilotStatus_DAC_LOST, .w1c⟩, ⟨pilotStatus_RUN_CHAN, .ro⟩], 0x0⟩

/-- QUAD[q].CH_CAL_CTRL (R157). -/
def chCalCtrl (q k : Nat) : Nat := 0x101840 + 0x10000 * q + 0x20 * k
def chCalCtrl_REQ : Fld := ⟨1, 1⟩
def chCalCtrl_CAL_APPLY : Fld := ⟨0, 0⟩
def chCalCtrlDesc : Desc := ⟨[⟨chCalCtrl_REQ, .wo⟩, ⟨chCalCtrl_CAL_APPLY, .rw⟩], 0x0⟩

/-- QUAD[q].CH_CAL_STATUS (R157). -/
def chCalStatus (q k : Nat) : Nat := 0x101844 + 0x10000 * q + 0x20 * k
def chCalStatus_LAST_RESULT : Fld := ⟨11, 8⟩
def chCalStatus_METHOD : Fld := ⟨7, 6⟩
def chCalStatus_FAIL : Fld := ⟨4, 4⟩
def chCalStatus_APPLIED : Fld := ⟨3, 3⟩
def chCalStatus_RUNNING : Fld := ⟨2, 2⟩
def chCalStatus_PENDING : Fld := ⟨1, 1⟩
def chCalStatus_DUE : Fld := ⟨0, 0⟩
def chCalStatusDesc : Desc := ⟨[⟨chCalStatus_LAST_RESULT, .ro⟩, ⟨chCalStatus_METHOD, .ro⟩, ⟨chCalStatus_FAIL, .w1c⟩, ⟨chCalStatus_APPLIED, .w1c⟩, ⟨chCalStatus_RUNNING, .ro⟩, ⟨chCalStatus_PENDING, .ro⟩, ⟨chCalStatus_DUE, .ro⟩], 0x1⟩

/-- QUAD[q].CH_CAL_TEMP (R157). -/
def chCalTemp (q k : Nat) : Nat := 0x101848 + 0x10000 * q + 0x20 * k
def chCalTemp_T : Fld := ⟨15, 0⟩
def chCalTempDesc : Desc := ⟨[⟨chCalTemp_T, .ro⟩], 0x0⟩

/-- QUAD[q].CH_CAL_TICK_LO (R157). -/
def chCalTickLo (q k : Nat) : Nat := 0x10184C + 0x10000 * q + 0x20 * k
def chCalTickLo_V : Fld := ⟨31, 0⟩
def chCalTickLoDesc : Desc := ⟨[⟨chCalTickLo_V, .ro⟩], 0x0⟩

/-- QUAD[q].CH_CAL_TICK_HI (R157). -/
def chCalTickHi (q k : Nat) : Nat := 0x101850 + 0x10000 * q + 0x20 * k
def chCalTickHi_V : Fld := ⟨31, 0⟩
def chCalTickHiDesc : Desc := ⟨[⟨chCalTickHi_V, .ro⟩], 0x0⟩

/-- QUAD[q].CH_CAL_SUBTICK (R157). -/
def chCalSubtick (q k : Nat) : Nat := 0x101854 + 0x10000 * q + 0x20 * k
def chCalSubtick_V : Fld := ⟨31, 0⟩
def chCalSubtickDesc : Desc := ⟨[⟨chCalSubtick_V, .ro⟩], 0x0⟩

/-- QUAD[q].SLICE_CAL (R157). -/
def sliceCal (q s : Nat) : Nat := 0x101900 + 0x10000 * q + 0x4 * s
def sliceCal_FAILS : Fld := ⟨23, 22⟩
def sliceCal_FIRST : Fld := ⟨21, 21⟩
def sliceCal_TEMP : Fld := ⟨15, 0⟩
def sliceCalDesc : Desc := ⟨[⟨sliceCal_FAILS, .ro⟩, ⟨sliceCal_FIRST, .ro⟩, ⟨sliceCal_TEMP, .ro⟩], 0x200000⟩

/-- CHAIN[n].CTRL (R191). -/
def chainCtrl (n : Nat) : Nat := 0x200000 + 0x1000 * n
def chainCtrl_COARSE_MODE : Fld := ⟨28, 27⟩
def chainCtrl_PCAN_EN : Fld := ⟨26, 26⟩
def chainCtrl_SCS : Fld := ⟨25, 25⟩
def chainCtrl_NCO_X2 : Fld := ⟨24, 24⟩
def chainCtrl_NCO_EN : Fld := ⟨23, 23⟩
def chainCtrl_FIR_DEC : Fld := ⟨22, 18⟩
def chainCtrl_HB2_EN : Fld := ⟨17, 17⟩
def chainCtrl_HB1_EN : Fld := ⟨16, 16⟩
def chainCtrl_CIC_ORDER : Fld := ⟨15, 13⟩
def chainCtrl_DEC : Fld := ⟨12, 0⟩
def chainCtrlDesc : Desc := ⟨[⟨chainCtrl_COARSE_MODE, .rw⟩, ⟨chainCtrl_PCAN_EN, .ro⟩, ⟨chainCtrl_SCS, .rw⟩, ⟨chainCtrl_NCO_X2, .rw⟩, ⟨chainCtrl_NCO_EN, .rw⟩, ⟨chainCtrl_FIR_DEC, .rw⟩, ⟨chainCtrl_HB2_EN, .rw⟩, ⟨chainCtrl_HB1_EN, .rw⟩, ⟨chainCtrl_CIC_ORDER, .rw⟩, ⟨chainCtrl_DEC, .rw⟩], 0x4A000⟩

/-- CHAIN[n].SRC (R191). -/
def chainSrc (n : Nat) : Nat := 0x200004 + 0x1000 * n
def chainSrc_CH : Fld := ⟨5, 0⟩
def chainSrcDesc : Desc := ⟨[⟨chainSrc_CH, .rwt⟩], 0x0⟩

/-- CHAIN[n].NCO_FTW (R191). -/
def ncoFtw (n : Nat) : Nat := 0x200008 + 0x1000 * n
def ncoFtw_FTW : Fld := ⟨31, 0⟩
def ncoFtwDesc : Desc := ⟨[⟨ncoFtw_FTW, .rwt⟩], 0x0⟩

/-- CHAIN[n].NCO_PHASE (R191). -/
def ncoPhase (n : Nat) : Nat := 0x20000C + 0x1000 * n
def ncoPhase_PHASE : Fld := ⟨31, 0⟩
def ncoPhaseDesc : Desc := ⟨[⟨ncoPhase_PHASE, .rwt⟩], 0x0⟩

/-- CHAIN[n].GAIN (R191). -/
def chainGain (n : Nat) : Nat := 0x200010 + 0x1000 * n
def chainGain_GAIN_SH : Fld := ⟨3, 0⟩
def chainGainDesc : Desc := ⟨[⟨chainGain_GAIN_SH, .rwt⟩], 0x0⟩

/-- CHAIN[n].FIR_CTRL (R191). -/
def firCtrl (n : Nat) : Nat := 0x200014 + 0x1000 * n
def firCtrl_TAPS : Fld := ⟨8, 0⟩
def firCtrlDesc : Desc := ⟨[⟨firCtrl_TAPS, .rw⟩], 0x0⟩

/-- CHAIN[n].CMD (R191). -/
def chainCmd (n : Nat) : Nat := 0x200018 + 0x1000 * n
def chainCmd_STOP : Fld := ⟨1, 1⟩
def chainCmd_START : Fld := ⟨0, 0⟩
def chainCmdDesc : Desc := ⟨[⟨chainCmd_STOP, .wo⟩, ⟨chainCmd_START, .wo⟩], 0x0⟩

/-- CHAIN[n].STATUS (R191). -/
def chainStatus (n : Nat) : Nat := 0x20001C + 0x1000 * n
def chainStatus_SW_ERR : Fld := ⟨19, 16⟩
def chainStatus_START_ERR : Fld := ⟨15, 12⟩
def chainStatus_SW_DONE : Fld := ⟨8, 8⟩
def chainStatus_CLIP : Fld := ⟨7, 7⟩
def chainStatus_REFUSED : Fld := ⟨6, 6⟩
def chainStatus_START_FAIL : Fld := ⟨5, 5⟩
def chainStatus_SETTLING : Fld := ⟨4, 4⟩
def chainStatus_STATE : Fld := ⟨1, 0⟩
def chainStatusDesc : Desc := ⟨[⟨chainStatus_SW_ERR, .ro⟩, ⟨chainStatus_START_ERR, .ro⟩, ⟨chainStatus_SW_DONE, .w1c⟩, ⟨chainStatus_CLIP, .w1c⟩, ⟨chainStatus_REFUSED, .w1c⟩, ⟨chainStatus_START_FAIL, .w1c⟩, ⟨chainStatus_SETTLING, .ro⟩, ⟨chainStatus_STATE, .ro⟩], 0x0⟩

/-- CHAIN[n].SETTLE (R191). -/
def chainSettle (n : Nat) : Nat := 0x200020 + 0x1000 * n
def chainSettle_SETTLE : Fld := ⟨15, 0⟩
def chainSettleDesc : Desc := ⟨[⟨chainSettle_SETTLE, .ro⟩], 0x0⟩

/-- CHAIN[n].SPAN (R191). -/
def chainSpan (n : Nat) : Nat := 0x200024 + 0x1000 * n
def chainSpan_SPAN : Fld := ⟨23, 0⟩
def chainSpanDesc : Desc := ⟨[⟨chainSpan_SPAN, .ro⟩], 0x0⟩

/-- CHAIN[n].COARSE (R191). -/
def coarse (n : Nat) : Nat := 0x200028 + 0x1000 * n
def coarse_VALUE : Fld := ⟨31, 16⟩
def coarse_S : Fld := ⟨7, 7⟩
def coarse_C : Fld := ⟨6, 6⟩
def coarse_M : Fld := ⟨4, 4⟩
def coarse_OUT : Fld := ⟨0, 0⟩
def coarseDesc : Desc := ⟨[⟨coarse_VALUE, .ro⟩, ⟨coarse_S, .ro⟩, ⟨coarse_C, .ro⟩, ⟨coarse_M, .ro⟩, ⟨coarse_OUT, .ro⟩], 0x0⟩

/-- CHAIN[n].COARSE_THR (R191). -/
def coarseThr (n : Nat) : Nat := 0x20002C + 0x1000 * n
def coarseThr_HI : Fld := ⟨31, 16⟩
def coarseThr_LO : Fld := ⟨15, 0⟩
def coarseThrDesc : Desc := ⟨[⟨coarseThr_HI, .rwt⟩, ⟨coarseThr_LO, .rwt⟩], 0x7FFF7FFF⟩

/-- CHAIN[n].COARSE_CTRL (R191). -/
def coarseCtrl (n : Nat) : Nat := 0x200030 + 0x1000 * n
def coarseCtrl_IE : Fld := ⟨1, 1⟩
def coarseCtrl_EN : Fld := ⟨0, 0⟩
def coarseCtrlDesc : Desc := ⟨[⟨coarseCtrl_IE, .rw⟩, ⟨coarseCtrl_EN, .rw⟩], 0x0⟩

/-- CHAIN[n].SWITCH (R191). -/
def chainSwitch (n : Nat) : Nat := 0x200034 + 0x1000 * n
def chainSwitch_GO : Fld := ⟨8, 8⟩
def chainSwitch_PARTNER : Fld := ⟨6, 0⟩
def chainSwitchDesc : Desc := ⟨[⟨chainSwitch_GO, .wo⟩, ⟨chainSwitch_PARTNER, .rw⟩], 0x7F⟩

/-- CHAIN[n].PCAN (R191). -/
def pcan (n : Nat) : Nat := 0x200038 + 0x1000 * n
def pcan_CONV : Fld := ⟨1, 1⟩
def pcan_EN : Fld := ⟨0, 0⟩
def pcanDesc : Desc := ⟨[⟨pcan_CONV, .ro⟩, ⟨pcan_EN, .ro⟩], 0x0⟩

/-- CHAIN[n].COEF (R191). -/
def coef (n k : Nat) : Nat := 0x200400 + 0x1000 * n + 0x4 * k
def coef_C : Fld := ⟨23, 0⟩
def coefDesc : Desc := ⟨[⟨coef_C, .rw⟩], 0x0⟩

/-- DSP[n].STATE (R233). -/
def dspState (n : Nat) : Nat := 0x300000 + 0x1000 * n
def dspState_PARTNER : Fld := ⟨23, 16⟩
def dspState_CAUSE : Fld := ⟨11, 8⟩
def dspState_RUN : Fld := ⟨5, 4⟩
def dspState_STATE : Fld := ⟨2, 0⟩
def dspStateDesc : Desc := ⟨[⟨dspState_PARTNER, .ro⟩, ⟨dspState_CAUSE, .ro⟩, ⟨dspState_RUN, .ro⟩, ⟨dspState_STATE, .ro⟩], 0xFF0000⟩

/-- DSP[n].STATUS (R233). -/
def dspStatus (n : Nat) : Nat := 0x300004 + 0x1000 * n
def dspStatus_CATCHUP : Fld := ⟨7, 7⟩
def dspStatus_DROPPED : Fld := ⟨5, 5⟩
def dspStatus_ECC_CORR : Fld := ⟨4, 4⟩
def dspStatus_WCET_EXC : Fld := ⟨3, 3⟩
def dspStatus_PFAULT : Fld := ⟨2, 2⟩
def dspStatus_OVERRUN : Fld := ⟨1, 1⟩
def dspStatus_RETIRE : Fld := ⟨0, 0⟩
def dspStatusDesc : Desc := ⟨[⟨dspStatus_CATCHUP, .ro⟩, ⟨dspStatus_DROPPED, .w1c⟩, ⟨dspStatus_ECC_CORR, .w1c⟩, ⟨dspStatus_WCET_EXC, .w1c⟩, ⟨dspStatus_PFAULT, .w1c⟩, ⟨dspStatus_OVERRUN, .w1c⟩, ⟨dspStatus_RETIRE, .w1c⟩], 0x0⟩

/-- DSP[n].CYCLES_LAST (R233). -/
def cyclesLast (n : Nat) : Nat := 0x300008 + 0x1000 * n
def cyclesLast_V : Fld := ⟨31, 0⟩
def cyclesLastDesc : Desc := ⟨[⟨cyclesLast_V, .ro⟩], 0x0⟩

/-- DSP[n].CYCLES_MAX (R233). -/
def cyclesMax (n : Nat) : Nat := 0x30000C + 0x1000 * n
def cyclesMax_V : Fld := ⟨31, 0⟩
def cyclesMaxDesc : Desc := ⟨[⟨cyclesMax_V, .ro⟩], 0x0⟩

/-- DSP[n].BUDGET (R233). -/
def budget (n : Nat) : Nat := 0x300010 + 0x1000 * n
def budget_V : Fld := ⟨31, 0⟩
def budgetDesc : Desc := ⟨[⟨budget_V, .ro⟩], 0x0⟩

/-- DSP[n].WCET (R233). -/
def wcet (n : Nat) : Nat := 0x300014 + 0x1000 * n
def wcet_V : Fld := ⟨31, 0⟩
def wcetDesc : Desc := ⟨[⟨wcet_V, .ro⟩], 0x0⟩

/-- DSP[n].OVERRUNS (R233). -/
def overruns (n : Nat) : Nat := 0x300018 + 0x1000 * n
def overruns_V : Fld := ⟨31, 0⟩
def overrunsDesc : Desc := ⟨[⟨overruns_V, .ro⟩], 0x0⟩

/-- DSP[n].PFAULTS (R233). -/
def pfaults (n : Nat) : Nat := 0x30001C + 0x1000 * n
def pfaults_V : Fld := ⟨31, 0⟩
def pfaultsDesc : Desc := ⟨[⟨pfaults_V, .ro⟩], 0x0⟩

/-- DSP[n].PFAULT_INFO (R233). -/
def pfaultInfo (n : Nat) : Nat := 0x300020 + 0x1000 * n
def pfaultInfo_CODE : Fld := ⟨31, 28⟩
def pfaultInfo_PC : Fld := ⟨13, 0⟩
def pfaultInfoDesc : Desc := ⟨[⟨pfaultInfo_CODE, .ro⟩, ⟨pfaultInfo_PC, .ro⟩], 0x0⟩

/-- DSP[n].ECC_COUNT (R233). -/
def eccCount (n : Nat) : Nat := 0x300024 + 0x1000 * n
def eccCount_V : Fld := ⟨31, 0⟩
def eccCountDesc : Desc := ⟨[⟨eccCount_V, .ro⟩], 0x0⟩

/-- DSP[n].LAG (R233). -/
def lag (n : Nat) : Nat := 0x300028 + 0x1000 * n
def lag_PENDING : Fld := ⟨2, 0⟩
def lagDesc : Desc := ⟨[⟨lag_PENDING, .ro⟩], 0x0⟩

/-- NOC.BOARD (R398). -/
def board : Nat := 0x400000
def board_POS : Fld := ⟨1, 0⟩
def boardDesc : Desc := ⟨[⟨board_POS, .ro⟩], 0x0⟩

/-- NOC.XL_CTRL (R398). -/
def xlCtrl (l : Nat) : Nat := 0x400100 + 0x10 * l
def xlCtrl_EN : Fld := ⟨0, 0⟩
def xlCtrlDesc : Desc := ⟨[⟨xlCtrl_EN, .rw⟩], 0x0⟩

/-- NOC.XL_STATUS (R398). -/
def xlStatus (l : Nat) : Nat := 0x400104 + 0x10 * l
def xlStatus_PEER_POS : Fld := ⟨11, 10⟩
def xlStatus_PEER_SYNC : Fld := ⟨9, 9⟩
def xlStatus_DIV_MATCH : Fld := ⟨8, 8⟩
def xlStatus_WENT_DOWN : Fld := ⟨3, 3⟩
def xlStatus_STATE : Fld := ⟨2, 0⟩
def xlStatusDesc : Desc := ⟨[⟨xlStatus_PEER_POS, .ro⟩, ⟨xlStatus_PEER_SYNC, .ro⟩, ⟨xlStatus_DIV_MATCH, .ro⟩, ⟨xlStatus_WENT_DOWN, .w1c⟩, ⟨xlStatus_STATE, .ro⟩], 0x0⟩

/-- NOC.XL_DROP (R398). -/
def xlDrop (l : Nat) : Nat := 0x400108 + 0x10 * l
def xlDrop_COUNT : Fld := ⟨31, 0⟩
def xlDropDesc : Desc := ⟨[⟨xlDrop_COUNT, .ro⟩], 0x0⟩

/-- NOC.XL_NOTAG (R398). -/
def xlNotag (l : Nat) : Nat := 0x40010C + 0x10 * l
def xlNotag_COUNT : Fld := ⟨31, 0⟩
def xlNotagDesc : Desc := ⟨[⟨xlNotag_COUNT, .ro⟩], 0x0⟩

/-- NOC.RT.PORT_CTRL (R398). -/
def portCtrl (r : Nat) : Nat := 0x401000 + 0x40 * r
def portCtrl_EN : Fld := ⟨3, 0⟩
def portCtrlDesc : Desc := ⟨[⟨portCtrl_EN, .ro⟩], 0xF⟩

/-- NOC.RT.PORT_STATUS (R398). -/
def portStatus (r : Nat) : Nat := 0x401004 + 0x40 * r
def portStatus_STATE : Fld := ⟨7, 0⟩
def portStatusDesc : Desc := ⟨[⟨portStatus_STATE, .ro⟩], 0x0⟩

/-- NOC.RT.REPLAY (R398). -/
def rtReplay (r p : Nat) : Nat := 0x401010 + 0x40 * r + 0x4 * p
def rtReplay_COUNT : Fld := ⟨31, 0⟩
def rtReplayDesc : Desc := ⟨[⟨rtReplay_COUNT, .ro⟩], 0x0⟩

/-- NOC.RT.CLOSED (R398). -/
def rtClosed (r : Nat) : Nat := 0x401020 + 0x40 * r
def rtClosed_COUNT : Fld := ⟨31, 0⟩
def rtClosedDesc : Desc := ⟨[⟨rtClosed_COUNT, .ro⟩], 0x0⟩

/-- NOC.NI.STATUS (R398). -/
def niStatus (n : Nat) : Nat := 0x402000 + 0x20 * n
def niStatus_DOMAIN : Fld := ⟨23, 20⟩
def niStatus_EPOCH : Fld := ⟨19, 19⟩
def niStatus_PWR : Fld := ⟨18, 17⟩
def niStatus_CREDIT_FREE : Fld := ⟨11, 0⟩
def niStatusDesc : Desc := ⟨[⟨niStatus_DOMAIN, .ro⟩, ⟨niStatus_EPOCH, .ro⟩, ⟨niStatus_PWR, .ro⟩, ⟨niStatus_CREDIT_FREE, .ro⟩], 0x0⟩

/-- NOC.NI.ERR (R398). -/
def niErr (n : Nat) : Nat := 0x402004 + 0x20 * n
def niErr_CODE : Fld := ⟨31, 24⟩
def niErr_ERR : Fld := ⟨23, 23⟩
def niErr_COUNT : Fld := ⟨15, 0⟩
def niErrDesc : Desc := ⟨[⟨niErr_CODE, .ro⟩, ⟨niErr_ERR, .w1c⟩, ⟨niErr_COUNT, .ro⟩], 0x0⟩

/-- NOC.NI.ERR_ADDR_LO (R398). -/
def niErrAddrLo (n : Nat) : Nat := 0x402008 + 0x20 * n
def niErrAddrLo_ADDR : Fld := ⟨31, 0⟩
def niErrAddrLoDesc : Desc := ⟨[⟨niErrAddrLo_ADDR, .ro⟩], 0x0⟩

/-- NOC.NI.ERR_ADDR_HI (R398). -/
def niErrAddrHi (n : Nat) : Nat := 0x40200C + 0x20 * n
def niErrAddrHi_ADDR : Fld := ⟨31, 0⟩
def niErrAddrHiDesc : Desc := ⟨[⟨niErrAddrHi_ADDR, .ro⟩], 0x0⟩

/-- NOC.NI.ERR_POINT (R398). -/
def niErrPoint (n : Nat) : Nat := 0x402010 + 0x20 * n
def niErrPoint_DEST : Fld := ⟨15, 8⟩
def niErrPoint_POINT : Fld := ⟨7, 0⟩
def niErrPointDesc : Desc := ⟨[⟨niErrPoint_DEST, .ro⟩, ⟨niErrPoint_POINT, .ro⟩], 0x0⟩

/-- NOC.NI.LATE (R398). -/
def niLate (n : Nat) : Nat := 0x402014 + 0x20 * n
def niLate_COUNT : Fld := ⟨31, 0⟩
def niLateDesc : Desc := ⟨[⟨niLate_COUNT, .ro⟩], 0x0⟩

/-- NOC.NI.POISONED (R398). -/
def niPoisoned (n : Nat) : Nat := 0x402018 + 0x20 * n
def niPoisoned_COUNT : Fld := ⟨31, 0⟩
def niPoisonedDesc : Desc := ⟨[⟨niPoisoned_COUNT, .ro⟩], 0x0⟩

/-- CONFIG.LOAD_CMD (R364). -/
def loadCmd : Nat := 0x500000
def loadCmd_SLOT : Fld := ⟨8, 8⟩
def loadCmd_FLASH_GO : Fld := ⟨1, 1⟩
def loadCmd_CANCEL : Fld := ⟨0, 0⟩
def loadCmdDesc : Desc := ⟨[⟨loadCmd_SLOT, .wo⟩, ⟨loadCmd_FLASH_GO, .wo⟩, ⟨loadCmd_CANCEL, .wo⟩], 0x0⟩

/-- CONFIG.LOAD_STATUS (R364). -/
def loadStatus : Nat := 0x500004
def loadStatus_ERR : Fld := ⟨31, 24⟩
def loadStatus_FAILED : Fld := ⟨23, 23⟩
def loadStatus_DONE : Fld := ⟨22, 22⟩
def loadStatus_MX_REFUSED : Fld := ⟨21, 21⟩
def loadStatus_REGION : Fld := ⟨20, 16⟩
def loadStatus_KIND : Fld := ⟨15, 14⟩
def loadStatus_SRC : Fld := ⟨13, 12⟩
def loadStatus_STATE : Fld := ⟨2, 0⟩
def loadStatusDesc : Desc := ⟨[⟨loadStatus_ERR, .ro⟩, ⟨loadStatus_FAILED, .w1c⟩, ⟨loadStatus_DONE, .w1c⟩, ⟨loadStatus_MX_REFUSED, .w1c⟩, ⟨loadStatus_REGION, .ro⟩, ⟨loadStatus_KIND, .ro⟩, ⟨loadStatus_SRC, .ro⟩, ⟨loadStatus_STATE, .ro⟩], 0x0⟩

/-- CONFIG.LOAD_PROGRESS (R364). -/
def loadProgress : Nat := 0x500008
def loadProgress_EPOCHS : Fld := ⟨31, 20⟩
def loadProgress_FRAMES : Fld := ⟨11, 0⟩
def loadProgressDesc : Desc := ⟨[⟨loadProgress_EPOCHS, .ro⟩, ⟨loadProgress_FRAMES, .ro⟩], 0x0⟩

/-- CONFIG.ERR_ADDR (R364). -/
def errAddr : Nat := 0x50000C
def errAddr_VALID : Fld := ⟨31, 31⟩
def errAddr_ADDR : Fld := ⟨23, 0⟩
def errAddrDesc : Desc := ⟨[⟨errAddr_VALID, .ro⟩, ⟨errAddr_ADDR, .ro⟩], 0x0⟩

/-- CONFIG.ERR_INFO (R364). -/
def errInfo : Nat := 0x500010
def errInfo_EPOCH : Fld := ⟨31, 16⟩
def errInfo_INDEX : Fld := ⟨11, 0⟩
def errInfoDesc : Desc := ⟨[⟨errInfo_EPOCH, .ro⟩, ⟨errInfo_INDEX, .ro⟩], 0x0⟩

/-- CONFIG.IMAGE_STATUS (R364). -/
def imageStatus : Nat := 0x500014
def imageStatus_PROD_RELEASED : Fld := ⟨7, 7⟩
def imageStatus_BISQUE_OK : Fld := ⟨6, 6⟩
def imageStatus_PROD_SRC : Fld := ⟨5, 4⟩
def imageStatus_SLOT_B_FAIL : Fld := ⟨3, 3⟩
def imageStatus_SLOT_A_FAIL : Fld := ⟨2, 2⟩
def imageStatus_FALLBACK : Fld := ⟨1, 1⟩
def imageStatus_BISQUE_FAIL : Fld := ⟨0, 0⟩
def imageStatusDesc : Desc := ⟨[⟨imageStatus_PROD_RELEASED, .ro⟩, ⟨imageStatus_BISQUE_OK, .ro⟩, ⟨imageStatus_PROD_SRC, .ro⟩, ⟨imageStatus_SLOT_B_FAIL, .ro⟩, ⟨imageStatus_SLOT_A_FAIL, .ro⟩, ⟨imageStatus_FALLBACK, .ro⟩, ⟨imageStatus_BISQUE_FAIL, .ro⟩], 0x0⟩

/-- CONFIG.SECURITY (R364). -/
def security : Nat := 0x500018
def security_ENC_ONLY : Fld := ⟨1, 1⟩
def security_KEY_SET : Fld := ⟨0, 0⟩
def securityDesc : Desc := ⟨[⟨security_ENC_ONLY, .ro⟩, ⟨security_KEY_SET, .ro⟩], 0x0⟩

/-- CONFIG.MX_REFUSED_COUNT (R364). -/
def mxRefusedCount : Nat := 0x50001C
def mxRefusedCount_COUNT : Fld := ⟨31, 0⟩
def mxRefusedCountDesc : Desc := ⟨[⟨mxRefusedCount_COUNT, .ro⟩], 0x0⟩

/-- CONFIG.LOAD_COUNT (R364). -/
def loadCount : Nat := 0x500020
def loadCount_COUNT : Fld := ⟨31, 0⟩
def loadCountDesc : Desc := ⟨[⟨loadCount_COUNT, .ro⟩], 0x0⟩

/-- CONFIG.FAIL_COUNT (R364). -/
def failCount : Nat := 0x500024
def failCount_COUNT : Fld := ⟨31, 0⟩
def failCountDesc : Desc := ⟨[⟨failCount_COUNT, .ro⟩], 0x0⟩

/-- SAGGER[s].STATE (R330). -/
def sagState (s : Nat) : Nat := 0x510000 + 0x1000 * s
def sagState_TRIG_REFUSED : Fld := ⟨5, 5⟩
def sagState_POWERED : Fld := ⟨4, 4⟩
def sagState_STATE : Fld := ⟨2, 0⟩
def sagStateDesc : Desc := ⟨[⟨sagState_TRIG_REFUSED, .w1c⟩, ⟨sagState_POWERED, .ro⟩, ⟨sagState_STATE, .ro⟩], 0x0⟩

/-- SAGGER[s].FUNC_ID (R330). -/
def funcId (s : Nat) : Nat := 0x510004 + 0x1000 * s
def funcId_ID : Fld := ⟨31, 0⟩
def funcIdDesc : Desc := ⟨[⟨funcId_ID, .ro⟩], 0x0⟩

/-- SAGGER[s].CLKSEL (R330). -/
def clksel (s : Nat) : Nat := 0x510008 + 0x1000 * s
def clksel_FCLK3 : Fld := ⟨15, 12⟩
def clksel_FCLK2 : Fld := ⟨11, 8⟩
def clksel_FCLK1 : Fld := ⟨7, 4⟩
def clksel_FCLK0 : Fld := ⟨3, 0⟩
def clkselDesc : Desc := ⟨[⟨clksel_FCLK3, .ro⟩, ⟨clksel_FCLK2, .ro⟩, ⟨clksel_FCLK1, .ro⟩, ⟨clksel_FCLK0, .ro⟩], 0x7777⟩

/-- SAGGER[s].CMD (R330). -/
def sagCmd (s : Nat) : Nat := 0x51000C + 0x1000 * s
def sagCmd_CAP_CANCEL : Fld := ⟨2, 2⟩
def sagCmd_CAP_ARM : Fld := ⟨1, 1⟩
def sagCmd_RESTART : Fld := ⟨0, 0⟩
def sagCmdDesc : Desc := ⟨[⟨sagCmd_CAP_CANCEL, .wo⟩, ⟨sagCmd_CAP_ARM, .wo⟩, ⟨sagCmd_RESTART, .wo⟩], 0x0⟩

/-- SAGGER[s].CAP_CTRL (R330). -/
def capCtrl (s : Nat) : Nat := 0x510010 + 0x1000 * s
def capCtrl_MODE : Fld := ⟨31, 30⟩
def capCtrl_CLK : Fld := ⟨29, 28⟩
def capCtrl_TRIG : Fld := ⟨20, 16⟩
def capCtrl_DELAY : Fld := ⟨15, 0⟩
def capCtrlDesc : Desc := ⟨[⟨capCtrl_MODE, .rw⟩, ⟨capCtrl_CLK, .rw⟩, ⟨capCtrl_TRIG, .rw⟩, ⟨capCtrl_DELAY, .rw⟩], 0x0⟩

/-- SAGGER[s].CAP_TICK_LO (R330). -/
def capTickLo (s : Nat) : Nat := 0x510014 + 0x1000 * s
def capTickLo_V : Fld := ⟨31, 0⟩
def capTickLoDesc : Desc := ⟨[⟨capTickLo_V, .rw⟩], 0x0⟩

/-- SAGGER[s].CAP_TICK_HI (R330). -/
def capTickHi (s : Nat) : Nat := 0x510018 + 0x1000 * s
def capTickHi_V : Fld := ⟨31, 0⟩
def capTickHiDesc : Desc := ⟨[⟨capTickHi_V, .rw⟩], 0x0⟩

/-- SAGGER[s].CAP_STATUS (R330). -/
def capStatus (s : Nat) : Nat := 0x51001C + 0x1000 * s
def capStatus_SEQ : Fld := ⟨23, 16⟩
def capStatus_ERR : Fld := ⟨11, 8⟩
def capStatus_REFUSED : Fld := ⟨2, 2⟩
def capStatus_STATE : Fld := ⟨1, 0⟩
def capStatusDesc : Desc := ⟨[⟨capStatus_SEQ, .ro⟩, ⟨capStatus_ERR, .ro⟩, ⟨capStatus_REFUSED, .w1c⟩, ⟨capStatus_STATE, .ro⟩], 0x0⟩

/-- SAGGER[s].CAP_ADDR (R330). -/
def capAddr (s : Nat) : Nat := 0x510020 + 0x1000 * s
def capAddr_ADDR : Fld := ⟨10, 0⟩
def capAddrDesc : Desc := ⟨[⟨capAddr_ADDR, .rw⟩], 0x0⟩

/-- SAGGER[s].CAP_DATA (R330). -/
def capData (s : Nat) : Nat := 0x510024 + 0x1000 * s
def capData_V : Fld := ⟨31, 0⟩
def capDataDesc : Desc := ⟨[⟨capData_V, .ro⟩], 0x0⟩

/-- SAGGER[s].CAP_STAMP_LO (R330). -/
def capStampLo (s : Nat) : Nat := 0x510028 + 0x1000 * s
def capStampLo_V : Fld := ⟨31, 0⟩
def capStampLoDesc : Desc := ⟨[⟨capStampLo_V, .ro⟩], 0x0⟩

/-- SAGGER[s].CAP_STAMP_SUB (R330). -/
def capStampSub (s : Nat) : Nat := 0x51002C + 0x1000 * s
def capStampSub_V : Fld := ⟨31, 0⟩
def capStampSubDesc : Desc := ⟨[⟨capStampSub_V, .ro⟩], 0x0⟩

/-- SAGGER[s].PORT_STATUS (R330). -/
def sagPort (s : Nat) : Nat := 0x510030 + 0x1000 * s
def sagPort_OUT_ERR : Fld := ⟨31, 16⟩
def sagPort_IN_OVF : Fld := ⟨15, 0⟩
def sagPortDesc : Desc := ⟨[⟨sagPort_OUT_ERR, .w1c⟩, ⟨sagPort_IN_OVF, .w1c⟩], 0x0⟩

/-- SAGGER[s].EVT_CTRL (R330). -/
def sagEvt (s : Nat) : Nat := 0x510034 + 0x1000 * s
def sagEvt_EN : Fld := ⟨3, 0⟩
def sagEvtDesc : Desc := ⟨[⟨sagEvt_EN, .rw⟩], 0x0⟩

/-- SAGGER[s].IN_LOST (R330). -/
def inLost (s : Nat) : Nat := 0x510038 + 0x1000 * s
def inLost_COUNT : Fld := ⟨31, 0⟩
def inLostDesc : Desc := ⟨[⟨inLost_COUNT, .ro⟩], 0x0⟩

/-- SAGGER[s].TRIG_SEL (R330). -/
def trigSel (s i : Nat) : Nat := 0x510080 + 0x1000 * s + 0x4 * i
def trigSel_SRC : Fld := ⟨8, 0⟩
def trigSelDesc : Desc := ⟨[⟨trigSel_SRC, .rwt⟩], 0x1FF⟩

/-- CONFIG.FPLL_STATUS (R330). -/
def fpllStatus (j : Nat) : Nat := 0x520000 + 0x4 * j
def fpllStatus_LOCK : Fld := ⟨16, 16⟩
def fpllStatus_FREQ : Fld := ⟨15, 0⟩
def fpllStatusDesc : Desc := ⟨[⟨fpllStatus_LOCK, .ro⟩, ⟨fpllStatus_FREQ, .ro⟩], 0x0⟩

/-- GPIO[b].DATA_OUT (R507). -/
def dataOut (b : Nat) : Nat := 0x600000 + 0x1000 * b
def dataOut_V : Fld := ⟨31, 0⟩
def dataOutDesc : Desc := ⟨[⟨dataOut_V, .rw⟩], 0x0⟩

/-- GPIO[b].DATA_SET (R507). -/
def dataSet (b : Nat) : Nat := 0x600004 + 0x1000 * b
def dataSet_V : Fld := ⟨31, 0⟩
def dataSetDesc : Desc := ⟨[⟨dataSet_V, .wo⟩], 0x0⟩

/-- GPIO[b].DATA_CLR (R507). -/
def dataClr (b : Nat) : Nat := 0x600008 + 0x1000 * b
def dataClr_V : Fld := ⟨31, 0⟩
def dataClrDesc : Desc := ⟨[⟨dataClr_V, .wo⟩], 0x0⟩

/-- GPIO[b].DIR (R507). -/
def dir (b : Nat) : Nat := 0x60000C + 0x1000 * b
def dir_V : Fld := ⟨31, 0⟩
def dirDesc : Desc := ⟨[⟨dir_V, .rw⟩], 0x0⟩

/-- GPIO[b].DATA_IN (R507). -/
def dataIn (b : Nat) : Nat := 0x600010 + 0x1000 * b
def dataIn_V : Fld := ⟨31, 0⟩
def dataInDesc : Desc := ⟨[⟨dataIn_V, .ro⟩], 0x0⟩

/-- GPIO[b].IRQ_STAT (R507). -/
def irqStat (b : Nat) : Nat := 0x600014 + 0x1000 * b
def irqStat_V : Fld := ⟨31, 0⟩
def irqStatDesc : Desc := ⟨[⟨irqStat_V, .w1c⟩], 0x0⟩

/-- GPIO[b].BANK_CTRL (R507). -/
def bankCtrl (b : Nat) : Nat := 0x600018 + 0x1000 * b
def bankCtrl_PRESCALE : Fld := ⟨11, 8⟩
def bankCtrl_PAD_READ : Fld := ⟨0, 0⟩
def bankCtrlDesc : Desc := ⟨[⟨bankCtrl_PRESCALE, .rw⟩, ⟨bankCtrl_PAD_READ, .rw⟩], 0x0⟩

/-- GPIO[b].BANK_STATUS (R507). -/
def bankStatus (b : Nat) : Nat := 0x60001C + 0x1000 * b
def bankStatus_VCCIO_OK : Fld := ⟨0, 0⟩
def bankStatusDesc : Desc := ⟨[⟨bankStatus_VCCIO_OK, .ro⟩], 0x0⟩

/-- GPIO[b].PIN_CFG (R507). -/
def pinCfg (b i : Nat) : Nat := 0x600080 + 0x1000 * b + 0x4 * i
def pinCfg_DEBOUNCE : Fld := ⟨31, 24⟩
def pinCfg_IRQ : Fld := ⟨23, 21⟩
def pinCfg_IE : Fld := ⟨20, 20⟩
def pinCfg_PULL : Fld := ⟨17, 16⟩
def pinCfg_DRIVE : Fld := ⟨15, 14⟩
def pinCfg_HYST : Fld := ⟨12, 12⟩
def pinCfg_THRESH : Fld := ⟨11, 11⟩
def pinCfg_ANALOG : Fld := ⟨10, 10⟩
def pinCfg_CONFLICT : Fld := ⟨9, 9⟩
def pinCfg_REFUSED : Fld := ⟨8, 8⟩
def pinCfg_ALT : Fld := ⟨3, 0⟩
def pinCfgDesc : Desc := ⟨[⟨pinCfg_DEBOUNCE, .rw⟩, ⟨pinCfg_IRQ, .rw⟩, ⟨pinCfg_IE, .rw⟩, ⟨pinCfg_PULL, .rw⟩, ⟨pinCfg_DRIVE, .rw⟩, ⟨pinCfg_HYST, .rw⟩, ⟨pinCfg_THRESH, .rw⟩, ⟨pinCfg_ANALOG, .rw⟩, ⟨pinCfg_CONFLICT, .ro⟩, ⟨pinCfg_REFUSED, .w1c⟩, ⟨pinCfg_ALT, .rw⟩], 0x5000⟩

/-- GPIO.TRIG_OUT (R508). -/
def trigOut (i : Nat) : Nat := 0x60E000 + 0x4 * i
def trigOut_MODE : Fld := ⟨13, 12⟩
def trigOut_INV : Fld := ⟨9, 9⟩
def trigOut_SRC : Fld := ⟨8, 0⟩
def trigOutDesc : Desc := ⟨[⟨trigOut_MODE, .rwt⟩, ⟨trigOut_INV, .rwt⟩, ⟨trigOut_SRC, .rwt⟩], 0x1FF⟩

/-- GPIO.STAR_OUT (R508). -/
def starOut : Nat := 0x60E020
def starOut_MODE : Fld := ⟨13, 12⟩
def starOut_INV : Fld := ⟨9, 9⟩
def starOut_SRC : Fld := ⟨8, 0⟩
def starOutDesc : Desc := ⟨[⟨starOut_MODE, .rwt⟩, ⟨starOut_INV, .rwt⟩, ⟨starOut_SRC, .rwt⟩], 0x1FF⟩

/-- GPIO.PTO (R508). -/
def pto (k : Nat) : Nat := 0x60E040 + 0x4 * k
def pto_MODE : Fld := ⟨13, 12⟩
def pto_INV : Fld := ⟨9, 9⟩
def pto_SRC : Fld := ⟨8, 0⟩
def ptoDesc : Desc := ⟨[⟨pto_MODE, .rwt⟩, ⟨pto_INV, .rwt⟩, ⟨pto_SRC, .rwt⟩], 0x1FF⟩

/-- GPIO.TRIG_IN (R508). -/
def trigIn : Nat := 0x60E080
def trigIn_FALL_EN : Fld := ⟨31, 24⟩
def trigIn_RISE_EN : Fld := ⟨23, 16⟩
def trigIn_INV : Fld := ⟨8, 0⟩
def trigInDesc : Desc := ⟨[⟨trigIn_FALL_EN, .rw⟩, ⟨trigIn_RISE_EN, .rw⟩, ⟨trigIn_INV, .rwt⟩], 0x0⟩

/-- GPIO.TRIG_LEVEL (R508). -/
def trigLevel : Nat := 0x60E084
def trigLevel_PTI : Fld := ⟨31, 16⟩
def trigLevel_LINES : Fld := ⟨8, 0⟩
def trigLevelDesc : Desc := ⟨[⟨trigLevel_PTI, .ro⟩, ⟨trigLevel_LINES, .ro⟩], 0x0⟩

/-- GPIO.TRIG_STATUS (R508). -/
def trigStatus : Nat := 0x60E088
def trigStatus_REFUSED : Fld := ⟨0, 0⟩
def trigStatusDesc : Desc := ⟨[⟨trigStatus_REFUSED, .w1c⟩], 0x0⟩

/-- SPI[u].CTRL (R509). -/
def spiCtrl (u : Nat) : Nat := 0x60F000 + 0x100 * u
def spiCtrl_EN : Fld := ⟨31, 31⟩
def spiCtrl_MODE : Fld := ⟨25, 24⟩
def spiCtrl_BITS : Fld := ⟨20, 16⟩
def spiCtrl_DIV : Fld := ⟨15, 8⟩
def spiCtrl_CS : Fld := ⟨1, 0⟩
def spiCtrlDesc : Desc := ⟨[⟨spiCtrl_EN, .rw⟩, ⟨spiCtrl_MODE, .rw⟩, ⟨spiCtrl_BITS, .rw⟩, ⟨spiCtrl_DIV, .rw⟩, ⟨spiCtrl_CS, .rw⟩], 0x0⟩

/-- SPI[u].TXDATA (R509). -/
def spiTx (u : Nat) : Nat := 0x60F004 + 0x100 * u
def spiTx_V : Fld := ⟨31, 0⟩
def spiTxDesc : Desc := ⟨[⟨spiTx_V, .wo⟩], 0x0⟩

/-- SPI[u].RXDATA (R509). -/
def spiRx (u : Nat) : Nat := 0x60F008 + 0x100 * u
def spiRx_V : Fld := ⟨31, 0⟩
def spiRxDesc : Desc := ⟨[⟨spiRx_V, .ro⟩], 0x0⟩

/-- SPI[u].STATUS (R509). -/
def spiStatus (u : Nat) : Nat := 0x60F00C + 0x100 * u
def spiStatus_BUSY : Fld := ⟨31, 31⟩
def spiStatus_TXL : Fld := ⟨20, 16⟩
def spiStatus_RXL : Fld := ⟨12, 8⟩
def spiStatus_OVF : Fld := ⟨2, 2⟩
def spiStatus_DONE : Fld := ⟨1, 1⟩
def spiStatusDesc : Desc := ⟨[⟨spiStatus_BUSY, .ro⟩, ⟨spiStatus_TXL, .ro⟩, ⟨spiStatus_RXL, .ro⟩, ⟨spiStatus_OVF, .w1c⟩, ⟨spiStatus_DONE, .w1c⟩], 0x0⟩

/-- I2C[u].CTRL (R509). -/
def i2cCtrl (u : Nat) : Nat := 0x60F400 + 0x100 * u
def i2cCtrl_EN : Fld := ⟨31, 31⟩
def i2cCtrl_SPEED : Fld := ⟨9, 8⟩
def i2cCtrl_TEN : Fld := ⟨0, 0⟩
def i2cCtrlDesc : Desc := ⟨[⟨i2cCtrl_EN, .rw⟩, ⟨i2cCtrl_SPEED, .rw⟩, ⟨i2cCtrl_TEN, .rw⟩], 0x0⟩

/-- I2C[u].CMD (R509). -/
def i2cCmd (u : Nat) : Nat := 0x60F404 + 0x100 * u
def i2cCmd_START : Fld := ⟨31, 31⟩
def i2cCmd_STOP : Fld := ⟨30, 30⟩
def i2cCmd_READ : Fld := ⟨29, 29⟩
def i2cCmd_ADDR : Fld := ⟨25, 16⟩
def i2cCmd_COUNT : Fld := ⟨4, 0⟩
def i2cCmdDesc : Desc := ⟨[⟨i2cCmd_START, .wo⟩, ⟨i2cCmd_STOP, .wo⟩, ⟨i2cCmd_READ, .wo⟩, ⟨i2cCmd_ADDR, .wo⟩, ⟨i2cCmd_COUNT, .wo⟩], 0x0⟩

/-- I2C[u].DATA (R509). -/
def i2cData (u : Nat) : Nat := 0x60F408 + 0x100 * u
def i2cData_D : Fld := ⟨7, 0⟩
def i2cDataDesc : Desc := ⟨[⟨i2cData_D, .rw⟩], 0x0⟩

/-- I2C[u].STATUS (R509). -/
def i2cStatus (u : Nat) : Nat := 0x60F40C + 0x100 * u
def i2cStatus_BUSY : Fld := ⟨31, 31⟩
def i2cStatus_LEVEL : Fld := ⟨12, 8⟩
def i2cStatus_ARB_LOST : Fld := ⟨3, 3⟩
def i2cStatus_NACK : Fld := ⟨2, 2⟩
def i2cStatus_DONE : Fld := ⟨1, 1⟩
def i2cStatusDesc : Desc := ⟨[⟨i2cStatus_BUSY, .ro⟩, ⟨i2cStatus_LEVEL, .ro⟩, ⟨i2cStatus_ARB_LOST, .w1c⟩, ⟨i2cStatus_NACK, .w1c⟩, ⟨i2cStatus_DONE, .w1c⟩], 0x0⟩

/-- UART[u].CTRL (R509). -/
def uartCtrl (u : Nat) : Nat := 0x60F800 + 0x100 * u
def uartCtrl_EN : Fld := ⟨31, 31⟩
def uartCtrl_RTSCTS : Fld := ⟨30, 30⟩
def uartCtrl_PARITY : Fld := ⟨29, 28⟩
def uartCtrl_STOP2 : Fld := ⟨27, 27⟩
def uartCtrl_BITS7 : Fld := ⟨26, 26⟩
def uartCtrl_DIV : Fld := ⟨19, 0⟩
def uartCtrlDesc : Desc := ⟨[⟨uartCtrl_EN, .rw⟩, ⟨uartCtrl_RTSCTS, .rw⟩, ⟨uartCtrl_PARITY, .rw⟩, ⟨uartCtrl_STOP2, .rw⟩, ⟨uartCtrl_BITS7, .rw⟩, ⟨uartCtrl_DIV, .rw⟩], 0x10⟩

/-- UART[u].TXDATA (R509). -/
def uartTx (u : Nat) : Nat := 0x60F804 + 0x100 * u
def uartTx_D : Fld := ⟨7, 0⟩
def uartTxDesc : Desc := ⟨[⟨uartTx_D, .wo⟩], 0x0⟩

/-- UART[u].RXDATA (R509). -/
def uartRx (u : Nat) : Nat := 0x60F808 + 0x100 * u
def uartRx_VALID : Fld := ⟨8, 8⟩
def uartRx_D : Fld := ⟨7, 0⟩
def uartRxDesc : Desc := ⟨[⟨uartRx_VALID, .ro⟩, ⟨uartRx_D, .ro⟩], 0x0⟩

/-- UART[u].STATUS (R509). -/
def uartStatus (u : Nat) : Nat := 0x60F80C + 0x100 * u
def uartStatus_TXL : Fld := ⟨20, 16⟩
def uartStatus_RXL : Fld := ⟨12, 8⟩
def uartStatus_FRAME : Fld := ⟨3, 3⟩
def uartStatus_PARITY : Fld := ⟨2, 2⟩
def uartStatus_OVF : Fld := ⟨1, 1⟩
def uartStatusDesc : Desc := ⟨[⟨uartStatus_TXL, .ro⟩, ⟨uartStatus_RXL, .ro⟩, ⟨uartStatus_FRAME, .w1c⟩, ⟨uartStatus_PARITY, .w1c⟩, ⟨uartStatus_OVF, .w1c⟩], 0x0⟩

/-- TMR[n].CTRL (R509). -/
def tmrCtrl (n : Nat) : Nat := 0x60FA00 + 0x20 * n
def tmrCtrl_EN : Fld := ⟨31, 31⟩
def tmrCtrl_MODE : Fld := ⟨29, 28⟩
def tmrCtrl_EDGE : Fld := ⟨25, 24⟩
def tmrCtrl_WIDTH : Fld := ⟨15, 0⟩
def tmrCtrlDesc : Desc := ⟨[⟨tmrCtrl_EN, .rw⟩, ⟨tmrCtrl_MODE, .rw⟩, ⟨tmrCtrl_EDGE, .rw⟩, ⟨tmrCtrl_WIDTH, .rw⟩], 0x0⟩

/-- TMR[n].CMP_TICK_LO (R509). -/
def cmpTickLo (n : Nat) : Nat := 0x60FA04 + 0x20 * n
def cmpTickLo_V : Fld := ⟨31, 0⟩
def cmpTickLoDesc : Desc := ⟨[⟨cmpTickLo_V, .rw⟩], 0x0⟩

/-- TMR[n].CMP_TICK_HI (R509). -/
def cmpTickHi (n : Nat) : Nat := 0x60FA08 + 0x20 * n
def cmpTickHi_V : Fld := ⟨31, 0⟩
def cmpTickHiDesc : Desc := ⟨[⟨cmpTickHi_V, .rw⟩], 0x0⟩

/-- TMR[n].CMP_SUB (R509). -/
def cmpSub (n : Nat) : Nat := 0x60FA0C + 0x20 * n
def cmpSub_V : Fld := ⟨31, 0⟩
def cmpSubDesc : Desc := ⟨[⟨cmpSub_V, .rw⟩], 0x0⟩

/-- TMR[n].CAP_TICK_LO (R509). -/
def tmrCapTickLo (n : Nat) : Nat := 0x60FA10 + 0x20 * n
def tmrCapTickLo_V : Fld := ⟨31, 0⟩
def tmrCapTickLoDesc : Desc := ⟨[⟨tmrCapTickLo_V, .ro⟩], 0x0⟩

/-- TMR[n].CAP_TICK_HI (R509). -/
def tmrCapTickHi (n : Nat) : Nat := 0x60FA14 + 0x20 * n
def tmrCapTickHi_V : Fld := ⟨31, 0⟩
def tmrCapTickHiDesc : Desc := ⟨[⟨tmrCapTickHi_V, .ro⟩], 0x0⟩

/-- TMR[n].CAP_SUB (R509). -/
def tmrCapSub (n : Nat) : Nat := 0x60FA18 + 0x20 * n
def tmrCapSub_V : Fld := ⟨31, 0⟩
def tmrCapSubDesc : Desc := ⟨[⟨tmrCapSub_V, .ro⟩], 0x0⟩

/-- TMR[n].STATUS (R509). -/
def tmrStatus (n : Nat) : Nat := 0x60FA1C + 0x20 * n
def tmrStatus_LATE : Fld := ⟨3, 3⟩
def tmrStatus_MISSED : Fld := ⟨2, 2⟩
def tmrStatus_CMP : Fld := ⟨1, 1⟩
def tmrStatus_CAP : Fld := ⟨0, 0⟩
def tmrStatusDesc : Desc := ⟨[⟨tmrStatus_LATE, .w1c⟩, ⟨tmrStatus_MISSED, .w1c⟩, ⟨tmrStatus_CMP, .w1c⟩, ⟨tmrStatus_CAP, .w1c⟩], 0x0⟩

/-- CAL.CTRL (R158). -/
def calCtrl : Nat := 0x700000
def calCtrl_STORE_EN : Fld := ⟨17, 17⟩
def calCtrl_FG_EN : Fld := ⟨16, 16⟩
def calCtrl_CAL_CONE : Fld := ⟨7, 0⟩
def calCtrlDesc : Desc := ⟨[⟨calCtrl_STORE_EN, .rw⟩, ⟨calCtrl_FG_EN, .rw⟩, ⟨calCtrl_CAL_CONE, .rwt⟩], 0x30010⟩

/-- CAL.STATUS (R158). -/
def calStatus : Nat := 0x700004
def calStatus_ACTIVE_COPY : Fld := ⟨11, 10⟩
def calStatus_OTP_ERR : Fld := ⟨9, 9⟩
def calStatus_STORE_BUSY : Fld := ⟨8, 8⟩
def calStatus_STORE_FAIL : Fld := ⟨1, 1⟩
def calStatus_CONE_REFUSED : Fld := ⟨0, 0⟩
def calStatusDesc : Desc := ⟨[⟨calStatus_ACTIVE_COPY, .ro⟩, ⟨calStatus_OTP_ERR, .ro⟩, ⟨calStatus_STORE_BUSY, .ro⟩, ⟨calStatus_STORE_FAIL, .w1c⟩, ⟨calStatus_CONE_REFUSED, .w1c⟩], 0x0⟩

/-- CAL.STORE_CMD (R158). -/
def storeCmd : Nat := 0x70000C
def storeCmd_SAVE : Fld := ⟨0, 0⟩
def storeCmdDesc : Desc := ⟨[⟨storeCmd_SAVE, .wo⟩], 0x0⟩

/-- CAL.STORE_INTERVAL (R158). -/
def storeInterval : Nat := 0x700010
def storeInterval_SECONDS : Fld := ⟨15, 0⟩
def storeIntervalDesc : Desc := ⟨[⟨storeInterval_SECONDS, .rw⟩], 0x3C⟩

/-- CAL.STORE_GEN (R158). -/
def storeGen : Nat := 0x700008
def storeGen_V : Fld := ⟨31, 0⟩
def storeGenDesc : Desc := ⟨[⟨storeGen_V, .ro⟩], 0x0⟩

/-- CAL.TEMP_PERIOD (R158). -/
def tempPeriod : Nat := 0x700014
def tempPeriod_V : Fld := ⟨31, 0⟩
def tempPeriodDesc : Desc := ⟨[⟨tempPeriod_V, .ro⟩], 0x0⟩

/-- CAL.DIE_TEMP (R158). -/
def dieTemp (d : Nat) : Nat := 0x700020 + 0x4 * d
def dieTemp_SRC : Fld := ⟨31, 30⟩
def dieTemp_TEMP : Fld := ⟨15, 0⟩
def dieTempDesc : Desc := ⟨[⟨dieTemp_SRC, .ro⟩, ⟨dieTemp_TEMP, .ro⟩], 0x0⟩

/-- CAL.PENDING_LO (R158). -/
def pendingLo : Nat := 0x700040
def pendingLo_V : Fld := ⟨31, 0⟩
def pendingLoDesc : Desc := ⟨[⟨pendingLo_V, .ro⟩], 0x0⟩

/-- CAL.PENDING_HI (R158). -/
def pendingHi : Nat := 0x700044
def pendingHi_V : Fld := ⟨31, 0⟩
def pendingHiDesc : Desc := ⟨[⟨pendingHi_V, .ro⟩], 0x0⟩

/-- CAL.DEVICE_ID_LO (R158). -/
def deviceIdLo : Nat := 0x700048
def deviceIdLo_V : Fld := ⟨31, 0⟩
def deviceIdLoDesc : Desc := ⟨[⟨deviceIdLo_V, .ro⟩], 0x0⟩

/-- CAL.DEVICE_ID_HI (R158). -/
def deviceIdHi : Nat := 0x70004C
def deviceIdHi_V : Fld := ⟨31, 0⟩
def deviceIdHiDesc : Desc := ⟨[⟨deviceIdHi_V, .ro⟩], 0x0⟩

/-- MEM.STACK_STATUS (R419). -/
def stackStatus (st : Nat) : Nat := 0x800000 + 0x4 * st
def stackStatus_ECC_ERR : Fld := ⟨2, 2⟩
def stackStatus_ASLEEP : Fld := ⟨1, 1⟩
def stackStatus_READY : Fld := ⟨0, 0⟩
def stackStatusDesc : Desc := ⟨[⟨stackStatus_ECC_ERR, .w1c⟩, ⟨stackStatus_ASLEEP, .ro⟩, ⟨stackStatus_READY, .ro⟩], 0x2⟩

/-- MEM.FREE (R419). -/
def memFree (st : Nat) : Nat := 0x800010 + 0x4 * st
def memFree_V : Fld := ⟨31, 0⟩
def memFreeDesc : Desc := ⟨[⟨memFree_V, .ro⟩], 0x0⟩

/-- MEM.LARGEST (R419). -/
def memLargest (st : Nat) : Nat := 0x800018 + 0x4 * st
def memLargest_V : Fld := ⟨31, 0⟩
def memLargestDesc : Desc := ⟨[⟨memLargest_V, .ro⟩], 0x0⟩

/-- MEM.ECC_CORR (R419). -/
def eccCorr (st : Nat) : Nat := 0x800020 + 0x4 * st
def eccCorr_V : Fld := ⟨31, 0⟩
def eccCorrDesc : Desc := ⟨[⟨eccCorr_V, .ro⟩], 0x0⟩

/-- MEM.ECC_UNCORR (R419). -/
def eccUncorr (st : Nat) : Nat := 0x800028 + 0x4 * st
def eccUncorr_V : Fld := ⟨31, 0⟩
def eccUncorrDesc : Desc := ⟨[⟨eccUncorr_V, .ro⟩], 0x0⟩

/-- MEM.ECC_ADDR_LO (R419). -/
def eccAddrLo (st : Nat) : Nat := 0x800030 + 0x8 * st
def eccAddrLo_V : Fld := ⟨31, 0⟩
def eccAddrLoDesc : Desc := ⟨[⟨eccAddrLo_V, .ro⟩], 0x0⟩

/-- MEM.ECC_ADDR_HI (R419). -/
def eccAddrHi (st : Nat) : Nat := 0x800034 + 0x8 * st
def eccAddrHi_V : Fld := ⟨2, 0⟩
def eccAddrHiDesc : Desc := ⟨[⟨eccAddrHi_V, .ro⟩], 0x0⟩

/-- MEM.CAP_STREAM[k].CTRL (R419). -/
def capStrCtrl (k : Nat) : Nat := 0x801000 + 0x40 * k
def capStrCtrl_POST : Fld := ⟨31, 16⟩
def capStrCtrl_FREEZE_GO : Fld := ⟨15, 15⟩
def capStrCtrl_TRIG_SRC : Fld := ⟨8, 0⟩
def capStrCtrlDesc : Desc := ⟨[⟨capStrCtrl_POST, .rw⟩, ⟨capStrCtrl_FREEZE_GO, .wo⟩, ⟨capStrCtrl_TRIG_SRC, .rwt⟩], 0x1FF⟩

/-- MEM.CAP_STREAM[k].STATUS (R419). -/
def capStrStatus (k : Nat) : Nat := 0x801004 + 0x40 * k
def capStrStatus_REFUSED : Fld := ⟨12, 12⟩
def capStrStatus_OWNER : Fld := ⟨11, 8⟩
def capStrStatus_FULL : Fld := ⟨7, 7⟩
def capStrStatus_FROZEN : Fld := ⟨6, 6⟩
def capStrStatus_RAW : Fld := ⟨5, 5⟩
def capStrStatus_STACK : Fld := ⟨4, 4⟩
def capStrStatus_MODE : Fld := ⟨3, 3⟩
def capStrStatus_STATE : Fld := ⟨2, 0⟩
def capStrStatusDesc : Desc := ⟨[⟨capStrStatus_REFUSED, .w1c⟩, ⟨capStrStatus_OWNER, .ro⟩, ⟨capStrStatus_FULL, .w1c⟩, ⟨capStrStatus_FROZEN, .w1c⟩, ⟨capStrStatus_RAW, .ro⟩, ⟨capStrStatus_STACK, .ro⟩, ⟨capStrStatus_MODE, .ro⟩, ⟨capStrStatus_STATE, .ro⟩], 0xF00⟩

/-- MEM.CAP_STREAM[k].FIRST_SEG (R419). -/
def firstSeg (k : Nat) : Nat := 0x801008 + 0x40 * k
def firstSeg_SEG : Fld := ⟨18, 0⟩
def firstSegDesc : Desc := ⟨[⟨firstSeg_SEG, .ro⟩], 0x0⟩

/-- MEM.CAP_STREAM[k].SEGMENTS (R419). -/
def capSegments (k : Nat) : Nat := 0x80100C + 0x40 * k
def capSegments_COUNT : Fld := ⟨18, 0⟩
def capSegmentsDesc : Desc := ⟨[⟨capSegments_COUNT, .ro⟩], 0x0⟩

/-- MEM.CAP_STREAM[k].MARK_SEG (R419). -/
def markSeg (k : Nat) : Nat := 0x801010 + 0x40 * k
def markSeg_SEG : Fld := ⟨18, 0⟩
def markSegDesc : Desc := ⟨[⟨markSeg_SEG, .ro⟩], 0x7FFFF⟩

/-- MEM.CAP_STREAM[k].SEQ_NOW (R419). -/
def seqNow (k : Nat) : Nat := 0x801014 + 0x40 * k
def seqNow_SEQ : Fld := ⟨31, 0⟩
def seqNowDesc : Desc := ⟨[⟨seqNow_SEQ, .ro⟩], 0x0⟩

/-- MEM.CAP_STREAM[k].START_IDX_LO (R419). -/
def startIdxLo (k : Nat) : Nat := 0x801018 + 0x40 * k
def startIdxLo_V : Fld := ⟨31, 0⟩
def startIdxLoDesc : Desc := ⟨[⟨startIdxLo_V, .ro⟩], 0x0⟩

/-- MEM.CAP_STREAM[k].START_IDX_HI (R419). -/
def startIdxHi (k : Nat) : Nat := 0x80101C + 0x40 * k
def startIdxHi_V : Fld := ⟨31, 0⟩
def startIdxHiDesc : Desc := ⟨[⟨startIdxHi_V, .ro⟩], 0x0⟩

/-- MEM.CAP_STREAM[k].TRIG_IDX_LO (R419). -/
def trigIdxLo (k : Nat) : Nat := 0x801020 + 0x40 * k
def trigIdxLo_V : Fld := ⟨31, 0⟩
def trigIdxLoDesc : Desc := ⟨[⟨trigIdxLo_V, .ro⟩], 0x0⟩

/-- MEM.CAP_STREAM[k].TRIG_IDX_HI (R419). -/
def trigIdxHi (k : Nat) : Nat := 0x801024 + 0x40 * k
def trigIdxHi_V : Fld := ⟨31, 0⟩
def trigIdxHiDesc : Desc := ⟨[⟨trigIdxHi_V, .ro⟩], 0x0⟩

/-- MEM.CAP_STREAM[k].WRITTEN_LO (R419). -/
def writtenLo (k : Nat) : Nat := 0x801028 + 0x40 * k
def writtenLo_V : Fld := ⟨31, 0⟩
def writtenLoDesc : Desc := ⟨[⟨writtenLo_V, .ro⟩], 0x0⟩

/-- MEM.CAP_STREAM[k].WRITTEN_HI (R419). -/
def writtenHi (k : Nat) : Nat := 0x80102C + 0x40 * k
def writtenHi_V : Fld := ⟨31, 0⟩
def writtenHiDesc : Desc := ⟨[⟨writtenHi_V, .ro⟩], 0x0⟩

/-- MEM.CAP_STREAM[k].DROPPED (R419). -/
def dropped (k : Nat) : Nat := 0x801030 + 0x40 * k
def dropped_V : Fld := ⟨31, 0⟩
def droppedDesc : Desc := ⟨[⟨dropped_V, .ro⟩], 0x0⟩

def globalRows0 : List Row := [
  ⟨0x0, 0x0, 1, 0x0, 1, idcodeDesc⟩,
  ⟨0x4, 0x0, 1, 0x0, 1, revisionDesc⟩,
  ⟨0x8, 0x0, 1, 0x0, 1, capsDesc⟩,
  ⟨0x100, 0x0, 1, 0x0, 1, bootStatusDesc⟩,
  ⟨0x104, 0x0, 1, 0x0, 1, resetCtrlDesc⟩,
  ⟨0x108, 0x0, 1, 0x0, 1, fwStatusDesc⟩,
  ⟨0x140, 0x4, 16, 0x0, 1, bisqueChDesc⟩,
  ⟨0x200, 0x4, 8, 0x0, 1, chOwnerDesc⟩,
  ⟨0x240, 0x4, 8, 0x0, 1, chOwnerNowDesc⟩,
  ⟨0x300, 0x4, 56, 0x0, 1, pinOwnerDesc⟩,
  ⟨0x400, 0x4, 56, 0x0, 1, pinOwnerNowDesc⟩,
  ⟨0x500, 0x0, 1, 0x0, 1, ownStatusDesc⟩,
  ⟨0x600, 0x4, 10, 0x0, 1, chainOwnerDesc⟩,
  ⟨0x640, 0x4, 9, 0x0, 1, coreOwnerDesc⟩,
  ⟨0x680, 0x4, 2, 0x0, 1, saggerOwnerDesc⟩,
  ⟨0x6C0, 0x4, 16, 0x0, 1, cabOwnerDesc⟩]
def globalRows1 : List Row := [
  ⟨0x700, 0x4, 2, 0x0, 1, dacOwnerDesc⟩]
/-- The registers of block GLOBAL. -/
def globalRows : List Row := globalRows0 ++ globalRows1

def hostRows0 : List Row := [
  ⟨0x0, 0x0, 1, 0x0, 1, cmdBaseLoDesc⟩,
  ⟨0x4, 0x0, 1, 0x0, 1, cmdBaseHiDesc⟩,
  ⟨0x8, 0x0, 1, 0x0, 1, cmdCtrlDesc⟩,
  ⟨0x10, 0x0, 1, 0x0, 1, evtBaseLoDesc⟩,
  ⟨0x14, 0x0, 1, 0x0, 1, evtBaseHiDesc⟩,
  ⟨0x18, 0x0, 1, 0x0, 1, evtCtrlDesc⟩,
  ⟨0x20, 0x0, 1, 0x0, 1, dbAddrLoDesc⟩,
  ⟨0x24, 0x0, 1, 0x0, 1, dbAddrHiDesc⟩,
  ⟨0x28, 0x0, 1, 0x0, 1, wakeDesc⟩,
  ⟨0x2C, 0x0, 1, 0x0, 1, hostStatusDesc⟩,
  ⟨0x30, 0x0, 1, 0x0, 1, evtLostDesc⟩,
  ⟨0x100, 0x10, 16, 0x0, 1, dataBaseLoDesc⟩,
  ⟨0x104, 0x10, 16, 0x0, 1, dataBaseHiDesc⟩,
  ⟨0x108, 0x10, 16, 0x0, 1, dataCtrlDesc⟩,
  ⟨0x10C, 0x10, 16, 0x0, 1, dataDropDesc⟩]
/-- The registers of block HOST. -/
def hostRows : List Row := hostRows0

def eventsRows0 : List Row := [
  ⟨0x0, 0x4, 27, 0x0, 1, evEnableDesc⟩,
  ⟨0x6C, 0x0, 1, 0x0, 1, evEnable27Desc⟩,
  ⟨0x70, 0x4, 4, 0x0, 1, ⟨[], 0⟩⟩,
  ⟨0x100, 0x4, 256, 0x0, 1, vmapDesc⟩,
  ⟨0x800, 0x0, 1, 0x0, 1, evSeqNextDesc⟩]
/-- The registers of block EVENTS. -/
def eventsRows : List Row := eventsRows0

def faultlogRows0 : List Row := [
  ⟨0x0, 0x0, 1, 0x0, 1, flStatusDesc⟩,
  ⟨0x4, 0x0, 1, 0x0, 1, flAckDesc⟩,
  ⟨0x8, 0x0, 1, 0x0, 1, flLostDesc⟩,
  ⟨0xC, 0x0, 1, 0x0, 1, flSeqNextDesc⟩,
  ⟨0x100, 0x20, 64, 0x4, 8, flEntryDesc⟩]
/-- The registers of block FAULTLOG. -/
def faultlogRows : List Row := faultlogRows0

def timeRows0 : List Row := [
  ⟨0x0, 0x0, 1, 0x0, 1, tickCtrlDesc⟩,
  ⟨0x4, 0x0, 1, 0x0, 1, tickLoDesc⟩,
  ⟨0x8, 0x0, 1, 0x0, 1, tickHiDesc⟩,
  ⟨0xC, 0x0, 1, 0x0, 1, subtickRegDesc⟩,
  ⟨0x10, 0x0, 1, 0x0, 1, timeStatusDesc⟩,
  ⟨0x14, 0x0, 1, 0x0, 1, refCtrlDesc⟩,
  ⟨0x18, 0x0, 1, 0x0, 1, syncCtrlDesc⟩,
  ⟨0x1C, 0x0, 1, 0x0, 1, syncLoadLoDesc⟩,
  ⟨0x20, 0x0, 1, 0x0, 1, syncLoadHiDesc⟩,
  ⟨0x24, 0x0, 1, 0x0, 1, syncOffsetDesc⟩,
  ⟨0x28, 0x0, 1, 0x0, 1, holdTickLoDesc⟩,
  ⟨0x2C, 0x0, 1, 0x0, 1, holdTickHiDesc⟩,
  ⟨0x30, 0x0, 1, 0x0, 1, qpllLockDesc⟩,
  ⟨0x34, 0x0, 1, 0x0, 1, clkrefPpmDesc⟩]
/-- The registers of block TIME. -/
def timeRows : List Row := timeRows0

def quadRows0 : List Row := [
  ⟨0x0, 0x20, 4, 0x0, 1, chCtrlDesc⟩,
  ⟨0x4, 0x20, 4, 0x0, 1, chOffsetDesc⟩,
  ⟨0x8, 0x20, 4, 0x0, 1, chStatusDesc⟩,
  ⟨0x100, 0x0, 1, 0x0, 1, refbufCtrlDesc⟩,
  ⟨0x104, 0x0, 1, 0x0, 1, refbufStatusDesc⟩,
  ⟨0x108, 0x0, 1, 0x0, 1, calrefCtrlDesc⟩,
  ⟨0x200, 0x20, 8, 0x0, 1, cabFuncDesc⟩,
  ⟨0x204, 0x20, 8, 0x0, 1, cabResDesc⟩,
  ⟨0x208, 0x20, 8, 0x0, 1, cabCapDesc⟩,
  ⟨0x20C, 0x20, 8, 0x0, 1, cabCmpDesc⟩,
  ⟨0x210, 0x20, 8, 0x0, 1, cabStatusDesc⟩,
  ⟨0x400, 0x0, 1, 0x0, 1, mxCmdDesc⟩,
  ⟨0x404, 0x0, 1, 0x0, 1, mxStatusDesc⟩,
  ⟨0x500, 0x8, 32, 0x0, 1, mxWireDesc⟩,
  ⟨0x504, 0x8, 32, 0x0, 1, mxWireCabDesc⟩,
  ⟨0x600, 0x0, 1, 0x0, 1, dacCtrlDesc⟩]
def quadRows1 : List Row := [
  ⟨0x604, 0x0, 1, 0x0, 1, dacCodeDesc⟩,
  ⟨0x608, 0x0, 1, 0x0, 1, dacToneFreqDesc⟩,
  ⟨0x60C, 0x0, 1, 0x0, 1, dacToneAmpDesc⟩,
  ⟨0x610, 0x0, 1, 0x0, 1, dacStatusDesc⟩,
  ⟨0x1000, 0x0, 1, 0x0, 1, poolStatusDesc⟩,
  ⟨0x1010, 0x4, 4, 0x0, 1, chPoolDesc⟩,
  ⟨0x1080, 0x0, 1, 0x0, 1, injReqDesc⟩,
  ⟨0x1084, 0x0, 1, 0x0, 1, injStatusDesc⟩,
  ⟨0x10C0, 0x4, 16, 0x0, 1, injResultDesc⟩,
  ⟨0x1100, 0x4, 36, 0x0, 1, sliceDesc⟩,
  ⟨0x1200, 0x10, 36, 0x0, 1, sOfsDesc⟩,
  ⟨0x1204, 0x10, 36, 0x0, 1, sGainDesc⟩,
  ⟨0x1208, 0x10, 36, 0x0, 1, sBwDesc⟩,
  ⟨0x120C, 0x10, 36, 0x0, 1, sSkewDesc⟩,
  ⟨0x1480, 0x8, 4, 0x0, 1, cOfsDesc⟩,
  ⟨0x1484, 0x8, 4, 0x0, 1, cGainDesc⟩]
def quadRows2 : List Row := [
  ⟨0x1800, 0x0, 1, 0x0, 1, calQstatusDesc⟩,
  ⟨0x1804, 0x0, 1, 0x0, 1, calQtempDesc⟩,
  ⟨0x1808, 0x0, 1, 0x0, 1, calRunsDesc⟩,
  ⟨0x180C, 0x0, 1, 0x0, 1, calRunFailsDesc⟩,
  ⟨0x1810, 0x0, 1, 0x0, 1, pilotGuardLoDesc⟩,
  ⟨0x1814, 0x0, 1, 0x0, 1, pilotGuardHiDesc⟩,
  ⟨0x1818, 0x0, 1, 0x0, 1, pilotStatusDesc⟩,
  ⟨0x1840, 0x20, 4, 0x0, 1, chCalCtrlDesc⟩,
  ⟨0x1844, 0x20, 4, 0x0, 1, chCalStatusDesc⟩,
  ⟨0x1848, 0x20, 4, 0x0, 1, chCalTempDesc⟩,
  ⟨0x184C, 0x20, 4, 0x0, 1, chCalTickLoDesc⟩,
  ⟨0x1850, 0x20, 4, 0x0, 1, chCalTickHiDesc⟩,
  ⟨0x1854, 0x20, 4, 0x0, 1, chCalSubtickDesc⟩,
  ⟨0x1900, 0x4, 36, 0x0, 1, sliceCalDesc⟩]
/-- The registers of block QUAD. -/
def quadRows : List Row := quadRows0 ++ quadRows1 ++ quadRows2

def chainRows0 : List Row := [
  ⟨0x0, 0x0, 1, 0x0, 1, chainCtrlDesc⟩,
  ⟨0x4, 0x0, 1, 0x0, 1, chainSrcDesc⟩,
  ⟨0x8, 0x0, 1, 0x0, 1, ncoFtwDesc⟩,
  ⟨0xC, 0x0, 1, 0x0, 1, ncoPhaseDesc⟩,
  ⟨0x10, 0x0, 1, 0x0, 1, chainGainDesc⟩,
  ⟨0x14, 0x0, 1, 0x0, 1, firCtrlDesc⟩,
  ⟨0x18, 0x0, 1, 0x0, 1, chainCmdDesc⟩,
  ⟨0x1C, 0x0, 1, 0x0, 1, chainStatusDesc⟩,
  ⟨0x20, 0x0, 1, 0x0, 1, chainSettleDesc⟩,
  ⟨0x24, 0x0, 1, 0x0, 1, chainSpanDesc⟩,
  ⟨0x28, 0x0, 1, 0x0, 1, coarseDesc⟩,
  ⟨0x2C, 0x0, 1, 0x0, 1, coarseThrDesc⟩,
  ⟨0x30, 0x0, 1, 0x0, 1, coarseCtrlDesc⟩,
  ⟨0x34, 0x0, 1, 0x0, 1, chainSwitchDesc⟩,
  ⟨0x38, 0x0, 1, 0x0, 1, pcanDesc⟩,
  ⟨0x400, 0x4, 256, 0x0, 1, coefDesc⟩]
/-- The registers of block CHAIN. -/
def chainRows : List Row := chainRows0

def dspRows0 : List Row := [
  ⟨0x0, 0x0, 1, 0x0, 1, dspStateDesc⟩,
  ⟨0x4, 0x0, 1, 0x0, 1, dspStatusDesc⟩,
  ⟨0x8, 0x0, 1, 0x0, 1, cyclesLastDesc⟩,
  ⟨0xC, 0x0, 1, 0x0, 1, cyclesMaxDesc⟩,
  ⟨0x10, 0x0, 1, 0x0, 1, budgetDesc⟩,
  ⟨0x14, 0x0, 1, 0x0, 1, wcetDesc⟩,
  ⟨0x18, 0x0, 1, 0x0, 1, overrunsDesc⟩,
  ⟨0x1C, 0x0, 1, 0x0, 1, pfaultsDesc⟩,
  ⟨0x20, 0x0, 1, 0x0, 1, pfaultInfoDesc⟩,
  ⟨0x24, 0x0, 1, 0x0, 1, eccCountDesc⟩,
  ⟨0x28, 0x0, 1, 0x0, 1, lagDesc⟩]
/-- The registers of block DSP. -/
def dspRows : List Row := dspRows0

def nocRows0 : List Row := [
  ⟨0x0, 0x0, 1, 0x0, 1, boardDesc⟩,
  ⟨0x100, 0x10, 4, 0x0, 1, xlCtrlDesc⟩,
  ⟨0x104, 0x10, 4, 0x0, 1, xlStatusDesc⟩,
  ⟨0x108, 0x10, 4, 0x0, 1, xlDropDesc⟩,
  ⟨0x10C, 0x10, 4, 0x0, 1, xlNotagDesc⟩,
  ⟨0x1000, 0x40, 64, 0x0, 1, portCtrlDesc⟩,
  ⟨0x1004, 0x40, 64, 0x0, 1, portStatusDesc⟩,
  ⟨0x1010, 0x40, 64, 0x4, 4, rtReplayDesc⟩,
  ⟨0x1020, 0x40, 64, 0x0, 1, rtClosedDesc⟩,
  ⟨0x2000, 0x20, 256, 0x0, 1, niStatusDesc⟩,
  ⟨0x2004, 0x20, 256, 0x0, 1, niErrDesc⟩,
  ⟨0x2008, 0x20, 256, 0x0, 1, niErrAddrLoDesc⟩,
  ⟨0x200C, 0x20, 256, 0x0, 1, niErrAddrHiDesc⟩,
  ⟨0x2010, 0x20, 256, 0x0, 1, niErrPointDesc⟩,
  ⟨0x2014, 0x20, 256, 0x0, 1, niLateDesc⟩,
  ⟨0x2018, 0x20, 256, 0x0, 1, niPoisonedDesc⟩]
/-- The registers of block NOC. -/
def nocRows : List Row := nocRows0

def configRows0 : List Row := [
  ⟨0x0, 0x0, 1, 0x0, 1, loadCmdDesc⟩,
  ⟨0x4, 0x0, 1, 0x0, 1, loadStatusDesc⟩,
  ⟨0x8, 0x0, 1, 0x0, 1, loadProgressDesc⟩,
  ⟨0xC, 0x0, 1, 0x0, 1, errAddrDesc⟩,
  ⟨0x10, 0x0, 1, 0x0, 1, errInfoDesc⟩,
  ⟨0x14, 0x0, 1, 0x0, 1, imageStatusDesc⟩,
  ⟨0x18, 0x0, 1, 0x0, 1, securityDesc⟩,
  ⟨0x1C, 0x0, 1, 0x0, 1, mxRefusedCountDesc⟩,
  ⟨0x20, 0x0, 1, 0x0, 1, loadCountDesc⟩,
  ⟨0x24, 0x0, 1, 0x0, 1, failCountDesc⟩]
/-- The registers of block CONFIG. -/
def configRows : List Row := configRows0

def saggerRows0 : List Row := [
  ⟨0x0, 0x0, 1, 0x0, 1, sagStateDesc⟩,
  ⟨0x4, 0x0, 1, 0x0, 1, funcIdDesc⟩,
  ⟨0x8, 0x0, 1, 0x0, 1, clkselDesc⟩,
  ⟨0xC, 0x0, 1, 0x0, 1, sagCmdDesc⟩,
  ⟨0x10, 0x0, 1, 0x0, 1, capCtrlDesc⟩,
  ⟨0x14, 0x0, 1, 0x0, 1, capTickLoDesc⟩,
  ⟨0x18, 0x0, 1, 0x0, 1, capTickHiDesc⟩,
  ⟨0x1C, 0x0, 1, 0x0, 1, capStatusDesc⟩,
  ⟨0x20, 0x0, 1, 0x0, 1, capAddrDesc⟩,
  ⟨0x24, 0x0, 1, 0x0, 1, capDataDesc⟩,
  ⟨0x28, 0x0, 1, 0x0, 1, capStampLoDesc⟩,
  ⟨0x2C, 0x0, 1, 0x0, 1, capStampSubDesc⟩,
  ⟨0x30, 0x0, 1, 0x0, 1, sagPortDesc⟩,
  ⟨0x34, 0x0, 1, 0x0, 1, sagEvtDesc⟩,
  ⟨0x38, 0x0, 1, 0x0, 1, inLostDesc⟩,
  ⟨0x80, 0x4, 32, 0x0, 1, trigSelDesc⟩]
/-- The registers of block SAGGER. -/
def saggerRows : List Row := saggerRows0

def fpllRows0 : List Row := [
  ⟨0x0, 0x4, 2, 0x0, 1, fpllStatusDesc⟩]
/-- The registers of block FPLL. -/
def fpllRows : List Row := fpllRows0

def gpioRows0 : List Row := [
  ⟨0x0, 0x0, 1, 0x0, 1, dataOutDesc⟩,
  ⟨0x4, 0x0, 1, 0x0, 1, dataSetDesc⟩,
  ⟨0x8, 0x0, 1, 0x0, 1, dataClrDesc⟩,
  ⟨0xC, 0x0, 1, 0x0, 1, dirDesc⟩,
  ⟨0x10, 0x0, 1, 0x0, 1, dataInDesc⟩,
  ⟨0x14, 0x0, 1, 0x0, 1, irqStatDesc⟩,
  ⟨0x18, 0x0, 1, 0x0, 1, bankCtrlDesc⟩,
  ⟨0x1C, 0x0, 1, 0x0, 1, bankStatusDesc⟩,
  ⟨0x80, 0x4, 32, 0x0, 1, pinCfgDesc⟩]
/-- The registers of block GPIO. -/
def gpioRows : List Row := gpioRows0

def trigRows0 : List Row := [
  ⟨0x0, 0x4, 8, 0x0, 1, trigOutDesc⟩,
  ⟨0x20, 0x0, 1, 0x0, 1, starOutDesc⟩,
  ⟨0x40, 0x4, 16, 0x0, 1, ptoDesc⟩,
  ⟨0x80, 0x0, 1, 0x0, 1, trigInDesc⟩,
  ⟨0x84, 0x0, 1, 0x0, 1, trigLevelDesc⟩,
  ⟨0x88, 0x0, 1, 0x0, 1, trigStatusDesc⟩]
/-- The registers of block TRIG. -/
def trigRows : List Row := trigRows0

def spiRows0 : List Row := [
  ⟨0x0, 0x0, 1, 0x0, 1, spiCtrlDesc⟩,
  ⟨0x4, 0x0, 1, 0x0, 1, spiTxDesc⟩,
  ⟨0x8, 0x0, 1, 0x0, 1, spiRxDesc⟩,
  ⟨0xC, 0x0, 1, 0x0, 1, spiStatusDesc⟩]
/-- The registers of block SPI. -/
def spiRows : List Row := spiRows0

def i2cRows0 : List Row := [
  ⟨0x0, 0x0, 1, 0x0, 1, i2cCtrlDesc⟩,
  ⟨0x4, 0x0, 1, 0x0, 1, i2cCmdDesc⟩,
  ⟨0x8, 0x0, 1, 0x0, 1, i2cDataDesc⟩,
  ⟨0xC, 0x0, 1, 0x0, 1, i2cStatusDesc⟩]
/-- The registers of block I2C. -/
def i2cRows : List Row := i2cRows0

def uartRows0 : List Row := [
  ⟨0x0, 0x0, 1, 0x0, 1, uartCtrlDesc⟩,
  ⟨0x4, 0x0, 1, 0x0, 1, uartTxDesc⟩,
  ⟨0x8, 0x0, 1, 0x0, 1, uartRxDesc⟩,
  ⟨0xC, 0x0, 1, 0x0, 1, uartStatusDesc⟩]
/-- The registers of block UART. -/
def uartRows : List Row := uartRows0

def tmrRows0 : List Row := [
  ⟨0x0, 0x0, 1, 0x0, 1, tmrCtrlDesc⟩,
  ⟨0x4, 0x0, 1, 0x0, 1, cmpTickLoDesc⟩,
  ⟨0x8, 0x0, 1, 0x0, 1, cmpTickHiDesc⟩,
  ⟨0xC, 0x0, 1, 0x0, 1, cmpSubDesc⟩,
  ⟨0x10, 0x0, 1, 0x0, 1, tmrCapTickLoDesc⟩,
  ⟨0x14, 0x0, 1, 0x0, 1, tmrCapTickHiDesc⟩,
  ⟨0x18, 0x0, 1, 0x0, 1, tmrCapSubDesc⟩,
  ⟨0x1C, 0x0, 1, 0x0, 1, tmrStatusDesc⟩]
/-- The registers of block TMR. -/
def tmrRows : List Row := tmrRows0

def calRows0 : List Row := [
  ⟨0x0, 0x0, 1, 0x0, 1, calCtrlDesc⟩,
  ⟨0x4, 0x0, 1, 0x0, 1, calStatusDesc⟩,
  ⟨0xC, 0x0, 1, 0x0, 1, storeCmdDesc⟩,
  ⟨0x10, 0x0, 1, 0x0, 1, storeIntervalDesc⟩,
  ⟨0x8, 0x0, 1, 0x0, 1, storeGenDesc⟩,
  ⟨0x14, 0x0, 1, 0x0, 1, tempPeriodDesc⟩,
  ⟨0x20, 0x4, 8, 0x0, 1, dieTempDesc⟩,
  ⟨0x40, 0x0, 1, 0x0, 1, pendingLoDesc⟩,
  ⟨0x44, 0x0, 1, 0x0, 1, pendingHiDesc⟩,
  ⟨0x48, 0x0, 1, 0x0, 1, deviceIdLoDesc⟩,
  ⟨0x4C, 0x0, 1, 0x0, 1, deviceIdHiDesc⟩]
/-- The registers of block CAL. -/
def calRows : List Row := calRows0

def memRows0 : List Row := [
  ⟨0x0, 0x4, 2, 0x0, 1, stackStatusDesc⟩,
  ⟨0x10, 0x4, 2, 0x0, 1, memFreeDesc⟩,
  ⟨0x18, 0x4, 2, 0x0, 1, memLargestDesc⟩,
  ⟨0x20, 0x4, 2, 0x0, 1, eccCorrDesc⟩,
  ⟨0x28, 0x4, 2, 0x0, 1, eccUncorrDesc⟩,
  ⟨0x30, 0x8, 2, 0x0, 1, eccAddrLoDesc⟩,
  ⟨0x34, 0x8, 2, 0x0, 1, eccAddrHiDesc⟩]
/-- The registers of block MEM. -/
def memRows : List Row := memRows0

def capsRows0 : List Row := [
  ⟨0x0, 0x0, 1, 0x0, 1, capStrCtrlDesc⟩,
  ⟨0x4, 0x0, 1, 0x0, 1, capStrStatusDesc⟩,
  ⟨0x8, 0x0, 1, 0x0, 1, firstSegDesc⟩,
  ⟨0xC, 0x0, 1, 0x0, 1, capSegmentsDesc⟩,
  ⟨0x10, 0x0, 1, 0x0, 1, markSegDesc⟩,
  ⟨0x14, 0x0, 1, 0x0, 1, seqNowDesc⟩,
  ⟨0x18, 0x0, 1, 0x0, 1, startIdxLoDesc⟩,
  ⟨0x1C, 0x0, 1, 0x0, 1, startIdxHiDesc⟩,
  ⟨0x20, 0x0, 1, 0x0, 1, trigIdxLoDesc⟩,
  ⟨0x24, 0x0, 1, 0x0, 1, trigIdxHiDesc⟩,
  ⟨0x28, 0x0, 1, 0x0, 1, writtenLoDesc⟩,
  ⟨0x2C, 0x0, 1, 0x0, 1, writtenHiDesc⟩,
  ⟨0x30, 0x0, 1, 0x0, 1, droppedDesc⟩]
/-- The registers of block CAPS. -/
def capsRows : List Row := capsRows0

/-- The blocks of BAR0 (R541), less the segment-map window and the MSI-X structures, which are not register rows. ENABLE[28–31] hold reserved bits only. -/
def blocks : List Block := [
  ⟨0x0, 0x0, 1, globalRows⟩,
  ⟨0x10000, 0x1000, 8, hostRows⟩,
  ⟨0x20000, 0x1000, 8, eventsRows⟩,
  ⟨0x30000, 0x0, 1, faultlogRows⟩,
  ⟨0x40000, 0x0, 1, timeRows⟩,
  ⟨0x100000, 0x10000, 16, quadRows⟩,
  ⟨0x200000, 0x1000, 80, chainRows⟩,
  ⟨0x300000, 0x1000, 72, dspRows⟩,
  ⟨0x400000, 0x0, 1, nocRows⟩,
  ⟨0x500000, 0x0, 1, configRows⟩,
  ⟨0x510000, 0x1000, 16, saggerRows⟩,
  ⟨0x520000, 0x0, 1, fpllRows⟩,
  ⟨0x600000, 0x1000, 14, gpioRows⟩,
  ⟨0x60E000, 0x0, 1, trigRows⟩,
  ⟨0x60F000, 0x100, 4, spiRows⟩,
  ⟨0x60F400, 0x100, 4, i2cRows⟩,
  ⟨0x60F800, 0x100, 2, uartRows⟩,
  ⟨0x60FA00, 0x20, 16, tmrRows⟩,
  ⟨0x700000, 0x0, 1, calRows⟩,
  ⟨0x800000, 0x0, 1, memRows⟩,
  ⟨0x801000, 0x40, 256, capsRows⟩]

end Sys2Proof.Machine.Regs
end

