-- ==== Sys2Proof/Machine/Regs.lean ====
section
/-! DEFINITION. Finding a register by its BAR0 offset (R541), what each register holds after reset (R548), and what a
plain write does to its fields (R11, R15, R545). -/

namespace Sys2Proof.Machine.Regs

/-- The register of a row that lies at `x` in its block. -/
def Row.hit (r : Row) (x : Nat) : Bool :=
  let d := x - r.off
  let i := if r.s1 = 0 then 0 else d / r.s1
  let e := d - r.s1 * i
  let j := if r.s2 = 0 then 0 else e / r.s2
  decide (r.off ≤ x ∧ i < r.c1 ∧ j < r.c2 ∧ e = r.s2 * j)

/-- The offset within an instance of a block, where one holds `off`. -/
def Block.inner (b : Block) (off : Nat) : Option Nat :=
  let d := off - b.base
  let i := if b.stride = 0 then 0 else d / b.stride
  if b.base ≤ off ∧ i < b.count then some (d - b.stride * i) else none

/-- The register of a list of rows that lies at `x`. -/
def rowAt : List Row → Nat → Option Desc
  | [], _ => none
  | r :: rs, x => if r.hit x then some r.desc else rowAt rs x

/-- The register of a list of blocks that lies at `off`. -/
def blockAt : List Block → Nat → Option Desc
  | [], _ => none
  | b :: bs, off =>
    match b.inner off with
    | some x => match rowAt b.rows x with
      | some d => some d
      | none => blockAt bs off
    | none => blockAt bs off

/-- The fields of the register at a BAR0 offset; none where the offset names no register (R542). -/
def find (off : Nat) : Option Desc := blockAt blocks off

/-- The row of R454 that a source belongs to: its vector after reset (R478). -/
def vectorRow (src : Nat) : Nat :=
  if src < 448 then 0 else if src < 576 then 1 else if src < 648 then 2 else if src < 728 then 3
  else if src < 744 then 4 else if src < 760 then 5 else if src < 824 then 6 else if src < 828 then 7
  else if src < 832 then 8 else if src < 848 then 9 else if src < 856 then 10 else if src < 872 then 11 else 0

/-- VMAP[i] after reset. -/
def vmapReset (i : Nat) : Nat :=
  vectorRow (4 * i) + vectorRow (4 * i + 1) * 0x100 + vectorRow (4 * i + 2) * 0x10000
    + vectorRow (4 * i + 3) * 0x1000000

/-- A register's value after device reset: its map's Reset column, or the rule that the column refers to — VMAP (R478),
MX_WIRE (R70), ENGINE and SIZE of DATA_CTRL (R453). -/
def reset (off : Nat) : Word :=
  let q := (off - 0x100000) / 0x10000
  let w := (off - mxWire q 0) / 8
  let f := (off - 0x10000) / 0x1000
  let i := (off - 0x20000) / 0x1000
  let j := (off - vmap i 0) / 4
  if vmap 0 0 ≤ off ∧ i < 8 ∧ vmap i 0 ≤ off ∧ j < 256 ∧ off = vmap i j then BitVec.ofNat 32 (vmapReset j)
  else if mxWire 0 0 ≤ off ∧ q < 16 ∧ w < 4 ∧ off = mxWire q w then
    BitVec.ofNat 32 (w * 0x1000000 + 0x800000 + 2 ^ w)
  else if dataCtrl 0 0 ≤ off ∧ f < 8 ∧ ((off - dataCtrl f 0) / 16) < 16 ∧ off = dataCtrl f ((off - dataCtrl f 0) / 16)
  then BitVec.ofNat 32 ((2 * f + (off - dataCtrl f 0) / 16 / 8) * 0x1000 + 4)
  else match find off with
    | some d => BitVec.ofNat 32 d.reset
    | none => 0

/-- The bits of the fields of one access code. -/
def Desc.bits (d : Desc) (a : Acc) : Word :=
  d.fields.foldl (fun m f => if f.acc = a then m ||| f.fld.mask else m) 0

/-- What a write of `v` leaves in a register that held `w`: RW and RWT fields take the value, W1C bits written 1 are
cleared, all else stays (R11, R15, R545). -/
def Desc.write (d : Desc) (w v : Word) : Word :=
  let set := d.bits .rw ||| d.bits .rwt
  (w &&& ~~~ set &&& ~~~ (d.bits .w1c &&& v)) ||| (v &&& set)

/-- Whether a register has a field that only a tick boundary brings into force. -/
def Desc.timed (d : Desc) : Bool := d.fields.any (fun f => f.acc = .rwt)

/-- Whether a register has any field that a write acts on. -/
def Desc.writable (d : Desc) : Bool := d.fields.any (fun f => f.acc ≠ .ro)

end Sys2Proof.Machine.Regs
end

