-- ==== Sys2Proof/Machine/Map.lean ====
section
/-! DEFINITION. A sparse map over a default: the one form in which the model holds register files, memories and
per-unit records. Keys rise strictly and no entry equals what an unlisted key reads as, so that equal contents are
equal data. -/

namespace Sys2Proof.Machine

/-- Entries by key; an unlisted key reads as the default of the map's owner. -/
abbrev FMap (α : Type) := List (Nat × α)

variable {α : Type}

/-- What key `k` reads as. -/
def FMap.get (d : Nat → α) : FMap α → Nat → α
  | [], k => d k
  | (k', v) :: m, k => if k = k' then v else FMap.get d m k

/-- The map without any entry for `k`. -/
def FMap.del : FMap α → Nat → FMap α
  | [], _ => []
  | (k', v) :: m, k => if k = k' then FMap.del m k else (k', v) :: FMap.del m k

/-- An entry put in its place by rising key. -/
def FMap.ins : FMap α → Nat → α → FMap α
  | [], k, v => [(k, v)]
  | (k', v') :: m, k, v => if k < k' then (k, v) :: (k', v') :: m else (k', v') :: FMap.ins m k v

/-- The map in which `k` reads as `v`. -/
def FMap.set [DecidableEq α] (d : Nat → α) (m : FMap α) (k : Nat) (v : α) : FMap α :=
  if v = d k then FMap.del m k else FMap.ins (FMap.del m k) k v

/-- The map whose keys below `n` read as a function gives. -/
def FMap.ofFn [DecidableEq α] (d : Nat → α) (n : Nat) (f : Nat → α) : FMap α :=
  (List.range n).filterMap (fun k => if f k = d k then none else some (k, f k))

/-- The keys rise strictly, above `b` where one is given. -/
def FMap.rises : Option Nat → FMap α → Bool
  | _, [] => true
  | none, (k, _) :: m => FMap.rises (some k) m
  | some b, (k, _) :: m => decide (b < k) && FMap.rises (some k) m

/-- No entry equals the default. -/
def FMap.tight [DecidableEq α] (d : Nat → α) : FMap α → Bool
  | [] => true
  | (k, v) :: m => decide (v ≠ d k) && FMap.tight d m

/-- The canonical form. -/
def FMap.wf [DecidableEq α] (d : Nat → α) (m : FMap α) : Bool := FMap.rises none m && FMap.tight d m

end Sys2Proof.Machine
end

