-- ==== Sys2Proof/Machine/Records.lean ====
section
/-! DEFINITION. The plain-data records that the state is made of: what each unit holds beside its registers. -/

namespace Sys2Proof.Machine

/-- The ordering codes of R1. -/
inductive Part where
  | ka6416C | ka6416E | ka3216C
  deriving DecidableEq, Repr

/-- The tick clock: held at 0 until lock, locked with the first boundary due at an instant, or running (R31). -/
inductive Clock where
  | held
  | locked (at_ : Nat)
  | running
  deriving DecidableEq, Repr

/-- A power domain's state (R17, R384). -/
inductive Power where
  | on | draining | off | waking
  deriving DecidableEq, Repr

/-- A sync reset that a sync edge has committed: the instant of its forced boundary and the tick it loads (R593). -/
structure SyncReset where
  due : Nat
  load : Nat
  deriving DecidableEq, Repr

/-- One accepted matrix command: its operation (0 CONNECT, 1 DISCONNECT, 2 CLEAR_WIRE), wire and terminal (R72). -/
structure MxCmd where
  op : Nat
  wire : Nat
  term : Nat
  deriving DecidableEq, Repr

/-- An event record before it is written: what W0–W7 of R458 are made of, but SEQ. -/
structure Event where
  source : Nat
  reason : Nat
  owner : Nat
  slot : Option Nat
  tick : Nat
  sub : Nat
  arg0 : Nat
  arg1 : Nat
  arg2 : Nat
  deriving DecidableEq, Repr

/-- What a fault-log entry is made of (R472), but SEQ and REPEAT. -/
structure FaultRec where
  cls : Nat
  requester : Nat
  resOwner : Nat
  source : Nat
  addr : Nat
  addr2 : Nat
  code : Nat
  info : Nat
  tick : Nat
  deriving DecidableEq, Repr

/-- One request for an injected conversion (R119): its monitor input, tag and IE bit, the owner code that made it
(0 Deogen) and the boundary that began the tick in which it was accepted, as the count of boundaries. -/
structure InjReq where
  mon : Nat
  tag : Nat
  ie : Bool
  by_ : Nat
  at_ : Nat
  deriving DecidableEq, Repr

/-- What stands at a CAB as its comparator or its outputs change: the differential levels in µV at IN0 to IN2, as far as channels, pins
and other CABs drive them, a channel's being what reaches that channel; the integral of IN0 since the integrator's last reset in µV·ps;
the band-pass output of a biquad, and what a second-order low-pass of its f0 and Q with unit gain at DC makes of IN0, in µV (R61). -/
structure CabIn where
  in0 : Int
  in1 : Int
  in2 : Int
  integral : Int
  bp : Int
  lp : Int
  deriving DecidableEq, Repr

/-- Why a slice is in start-up (R96, R97, R113, R114). -/
inductive WakeFor where
  | graph      -- woken one tick ahead of a graph start
  | added      -- a position that the Wheel adds: samples carry S
  | replacing  -- a position of a retired slice: samples are filled
  | standby    -- to become the standby
  deriving DecidableEq, Repr

/-- A start-up in progress: when it ends and what for. -/
structure Wake where
  until_ : Nat
  why : WakeFor
  deriving DecidableEq, Repr

/-- A retired slice that the next boundary replaces and reports (R113, R115). -/
structure Retired where
  quad : Nat
  slice : Nat
  chan : Nat
  pos : Nat
  cause : Nat
  tick : Nat
  standby : Bool
  deriving DecidableEq, Repr

/-- A position that is filled and marked M from an instant on, because its slice has been retired (R111, R113), and the instant at which
that ended or will end, where it is known. -/
structure Filled where
  quad : Nat
  chan : Nat
  pos : Nat
  from_ : Nat
  until_ : Option Nat
  deriving DecidableEq, Repr

/-- A standby run (R130): its target slice (none: the quad had no ACTIVE slice), the step code, the ticks left in the
step, whether the present tick is the run's own, whether the step's measurement has come, the sums of 4,096 raw codes of the REF steps,
the offset and gain found, the skew and tap found (none: the standby keeps its own), and whether the run is complete and waits for its
exchange. -/
structure Run where
  target : Option Nat
  step : Nat
  left : Nat
  own : Bool
  done : Bool
  m0 : Int
  mp : Int
  mn : Int
  ofs : Int
  gain : Int
  track : Option (Int × Int)
  complete : Bool
  deriving DecidableEq, Repr

/-- A foreground run (R140–R142): its channel, whether it has begun, its level (0 LVL0, 1 LVLP, 2 LVLN), the ticks left
in the level, whether the present tick is the run's own, whether its measurement has come, the sums of 4,096 u values in 2⁻⁸ LSB,
whether the DAC is its source, whether only the offset is measured, the quad temperature at its start, and what INSEL and the DAC held
before it. -/
structure FgRun where
  chan : Nat
  begun : Bool
  level : Nat
  left : Nat
  own : Bool
  done : Bool
  m0 : Int
  mp : Int
  mn : Int
  dac : Bool
  refOnly : Bool
  temp : Int
  insel : Nat
  dacCtrl : Word
  dacCode : Word
  deriving DecidableEq, Repr

/-- A pilot run (R145): its channel, the quad temperature at its start, and the instant of its first sample. -/
structure PilotRun where
  chan : Nat
  temp : Int
  from_ : Nat
  deriving DecidableEq, Repr

/-- A channel result that waits for its boundary (R149): offset, gain, the temperature at the run's start, and the
LAST_RESULT code. -/
structure ChResult where
  ofs : Int
  gain : Int
  temp : Int
  result : Nat
  deriving DecidableEq, Repr

/-- What the calibration store keeps of a channel (R153): C_OFS, C_GAIN, the CH_CTRL word, T_last and A_prev. -/
structure StoredChan where
  ofs : Nat
  gain : Nat
  ctrl : Nat
  temp : Nat
  aPrev : Nat
  deriving DecidableEq, Repr

/-- The corrections of a slice as its registers hold them (R103). -/
structure SliceCor where
  ofs : Nat
  gain : Nat
  bw : Nat
  skew : Nat
  deriving DecidableEq, Repr

/-- A channel's factory coefficients for one ATT and PGA setting: offset and gain codes, and their temperature
coefficients in thousandths of a code per °C (R138, R152). -/
structure ChanCor where
  ofs : Int
  gain : Int
  ofsTc : Int
  gainTc : Int
  deriving DecidableEq, Repr

/-- A sensor's history (R127): its last valid reading with the count of boundaries at it, how many periods in a row failed the step
test only, and how many valid readings in a row exceeded HOT (R286) and Tmax + 10 °C (R578). -/
structure Sensor where
  value : Option Int
  at_ : Nat
  jumps : Nat
  hot : Nat
  above : Nat
  deriving DecidableEq, Repr

/-- An element of a Clousk graph (R260, R264): its ID, kind, pin and parameter words. -/
structure Elem where
  id : Nat
  kind : Nat
  pin : Nat
  params : List Nat
  deriving DecidableEq, Repr

/-- An edge of a Clousk graph (R264). -/
structure Edge where
  frm : Nat
  fromPort : Nat
  analog : Bool
  to_ : Nat
  toPort : Nat
  words : Nat
  deriving DecidableEq, Repr

/-- A Clousk graph as parsed (R263, R264). -/
structure GraphFile where
  idcode : Nat
  tickDiv : Nat
  elems : List Elem
  edges : List Edge
  deriving DecidableEq, Repr

/-- An element with the unit it holds (a unit code of R262), the tick since which it holds it, the FLAGS of its map
record (R291), its capture stream (R406), and the instant of its last heat move (R288). -/
structure PlacedElem where
  el : Elem
  unit : Nat
  since : Nat
  flags : Nat
  stream : Nat
  movedAt : Option Nat
  deriving DecidableEq, Repr

/-- An edge as placed: the wire of an analogue edge; or, for a digital one, its NIs, the hops of its route, its entry of
the route table, the stream number bound at its destination (R371) and the remote tag (R393). -/
structure PlacedEdge where
  ed : Edge
  words : Nat
  units : Nat
  wire : Nat
  src : Nat
  dst : Nat
  hops : List Nat
  entry : Nat
  num : Nat
  tag : Nat
  since : Nat
  stopped : Bool
  deriving DecidableEq, Repr

/-- The phases of a graph (R291). -/
inductive Phase where
  | admitted | running | changing | stopping | stopped
  deriving DecidableEq, Repr

/-- A change of a graph that waits for its tick (R280, R281): the new version as placed, the boundary at which the tick of the decision
began, as the count of boundaries, the change tick, and the chains that are started early with the tick of their start. -/
structure Change where
  elems : List PlacedElem
  edges : List PlacedEdge
  decided : Nat
  at_ : Nat
  early : List (Nat × Nat)
  deriving DecidableEq, Repr

/-- A graph that the Wheel has admitted (R265): `genAt` is the count of boundaries at the latest advance of its generation (R292),
`decided` that in its decision tick, `stopAt` the tick of a stop, and `ends` the count of boundaries at which a stop that has begun
completes (R283). -/
structure Graph where
  fn : Nat
  handle : Nat
  phase : Phase
  elems : List PlacedElem
  edges : List PlacedEdge
  gen : Nat
  genAt : Nat
  changeTick : Nat
  decided : Nat
  start : Nat
  change : Option Change
  stopAt : Option Nat
  ends : Nat
  deriving DecidableEq, Repr

/-- What a change has removed from a graph, and what is released two boundaries later (R280, R283): the count of boundaries at which that
comes, the version of the graph before the change, and its elements and edges that are gone. -/
structure Leaving where
  at_ : Nat
  g : Graph
  elems : List PlacedElem
  edges : List PlacedEdge
  deriving DecidableEq, Repr

/-- A value between the stages of a chain, in units of 2⁻⁸ LSB: I and Q, and the flags C and M (R162, R172). -/
structure Pt where
  i : Int
  q : Int
  c : Bool
  m : Bool
  deriving DecidableEq, Repr

/-- An input of the coarse path with its flags (R177, R178). -/
structure CoarsePt where
  x : Int
  s : Bool
  c : Bool
  m : Bool
  deriving DecidableEq, Repr

/-- What a chain holds beside its registers (R159–R190): the histories of its stages, newest first; the index that
follows its last input of this tick; the outputs still to carry S; whether the last input carried S; the coarse window
and the inputs since the latest restart point; the tick of its start and that of its last input; whether its input is
lost; a STOP that waits and the instant of the STOP boundary; the partner of a swap that waits; the open packet, each word
with the instant at which it leaves the chain (R187), with its timestamp and streams; inputs since PCAN_EN was set and the
canceller's coefficients in units of 2⁻²² LSB; and u and y of the source's last sample that was not filled, of those the chain has taken. Starts and
inputs are counted in tick boundaries. -/
structure ChainSt where
  cic : List Pt
  hb1 : List Pt
  hb2 : List Pt
  fir : List Pt
  next : Nat
  settle : Nat
  inS : Bool
  window : List CoarsePt
  fresh : Nat
  started : Nat
  lastIn : Option Nat
  lost : Bool
  stop : Bool
  stopAt : Nat
  switch : Option Nat
  pkt : List (Nat × Word)
  pktTick : Nat
  pktSub : Nat
  pktTo : List PlacedEdge
  pcanIn : Nat
  ci : Int
  cq : Int
  last : Option (Int × Int)
  deriving DecidableEq, Repr

/-- A register bank of a core (R198, R222): D, ACC, P and SRG. -/
structure Bank where
  d : Vector DWord 8
  acc : Vector (BitVec 56) 4
  p : Vector (BitVec 15) 8
  srg : DWord
  deriving DecidableEq, Repr

/-- An entry of the loop stack (R209, R252). -/
structure Loop where
  lc : Nat
  la : Nat
  ls : Nat
  deriving DecidableEq, Repr

/-- The binding of an input stream (R210): port, LEN, memory, the two buffers and their flag areas. -/
structure InPort where
  port : Nat
  len : Nat
  y : Bool
  base0 : Nat
  base1 : Nat
  flagged : Bool
  f0 : Nat
  f1 : Nat
  deriving DecidableEq, Repr

/-- The binding of an output stream (R214). -/
structure OutPort where
  port : Nat
  w : Nat
  record : Bool
  deriving DecidableEq, Repr

/-- The sample words of one input stream for one run (R211, R212). -/
structure Rx where
  words : List Word
  ovf : Bool
  deriving DecidableEq, Repr

/-- The input of one run: its tick and the words of each input port (R226, R228). -/
structure RunIn where
  tick : Nat
  rx : List (Nat × Rx)
  deriving DecidableEq, Repr

/-- A post that the output engine has not yet read to its end (R213), with the cycle of the run at which it was made. -/
structure Post where
  y : Bool
  addr : Nat
  fy : Bool
  faddr : Nat
  flags : Nat
  packed : Bool
  count : Nat
  at_ : Nat
  deriving DecidableEq, Repr

/-- An output stream at run time (R213–R215, R228): words posted and formed in this run, EXCESS, the post in progress,
the index of the next word that goes out, the open packet, the words of this run already sent, the words that a replay is not to send
again, and whether the run's words have been completed. -/
structure OutSt where
  posted : Nat
  formed : Nat
  excess : Bool
  busy : Option Post
  seq : Nat
  pkt : List Word
  sent : Nat
  skip : Nat
  closed : Bool
  deriving DecidableEq, Repr

/-- A task as loaded (R196, R260): the graph element it comes from, its images, persistent extents, WCET and streams. -/
structure Task where
  fn : Nat
  handle : Nat
  elem : Nat
  prog : List IWord
  xAddr : Nat
  xWords : List DWord
  yAddr : Nat
  yWords : List DWord
  persX : Nat
  persY : Nat
  wcet : Nat
  ins : List InPort
  outs : List OutPort
  deriving DecidableEq, Repr

/-- A DSP core beside its BAR0 registers (R192–R231, R252–R258). `irqSet` are the bits of IRQ_STAT that hardware has set at cycle `irqAt` of
the run (R12). -/
structure Core where
  task : Option Task
  bank : Bank
  shadow : Bank
  s : Vector (BitVec 16) 8
  m : Vector DWord 8
  lc : Nat
  la : Nat
  ls : Nat
  stack : List Loop
  lcWait : List (Nat × Nat)
  laWait : List (Nat × Nat)
  x : FMap DWord
  y : FMap DWord
  prog : FMap IWord
  pc : Nat
  ret : Nat
  inIsr : Bool
  running : Bool
  ended : Bool
  faulted : Bool
  cycles : Nat
  runTick : Nat
  first : Bool
  replay : Bool
  hazP : List Nat
  hazD : List Nat
  timer : Nat
  irqStat : Nat
  irqSet : Nat
  irqAt : Nat
  irqEn : Nat
  src : FMap Nat
  fsrc : FMap Nat
  out : FMap OutSt
  work : FMap Rx
  rx : FMap Rx
  phase : Nat
  kept : List RunIn
  persX : List DWord
  persY : List DWord
  pend : List RunIn
  loaded : Bool
  home : Option Nat
  stopped : Bool
  failTick : Nat
  reported : Bool
  deriving DecidableEq, Repr

/-- A descriptor that the device has read and not yet completed (R435): its ring (0 the command ring, 1 + k data ring k),
its slot and host address, its 64 bytes, the boundary at which it counts as read (R431), and that of its expiry (R441).
Boundaries are counted from power-up. -/
structure HostDesc where
  ring : Nat
  slot : Nat
  addr : Nat
  bytes : List Byte
  readAt : Nat
  expiry : Option Nat
  deriving DecidableEq, Repr

/-- What the current buffer of a data ring holds (R445): chunks, bytes, the tick of the first, the boundary at which the
buffer expires. -/
structure Fill where
  chunks : Nat
  bytes : Nat
  tick : Nat
  expiry : Option Nat
  deriving DecidableEq, Repr

/-- A host function beside its registers (R425–R449): descriptors read; buffers posted to each data ring, the first being
filled; producer indices taken (0 command, 1 + k data ring k) and the consumer index; the boundary at which what an outstanding
doorbell read finds counts as read, whether one more read is to follow and the boundary at which it counts, and rings disabled meanwhile; D3hot; drop counts per edge and rings that have
said DATA_DROP in this tick; whether DB_ERROR was said; the MSI-X table, its pending bits, enable and function mask;
vectors within their holdoff, the instants at which it ends, and those owed a message; the Completer Abort Error Mask of its AER capability (R424); the SEQ of the first record lost and how many; completions that wait for
the return to D0, each as descriptor, STATUS, RESULT, DETAIL, XFER and TICK; whether it has returned to D0 and waits for the boundary (R427);
Bus Master Enable (R429) and Max Read Request Size (R420, R423), as the host sets them; a doorbell read that failed and is made again
(R443); and the timestamp of the first record lost (R459). -/
structure FnSt where
  cmds : List HostDesc
  bufs : FMap (List HostDesc)
  fill : FMap Fill
  prod : FMap Nat
  cons : Nat
  reading : Option Nat
  again : Bool
  againAt : Nat
  ignore : List Nat
  d3 : Bool
  lost : FMap Nat
  dropSaid : List Nat
  dbSaid : Bool
  msix : FMap Word
  msixPend : List Nat
  msixOn : Bool
  msixMask : Bool
  holding : List Nat
  holdEnd : FMap Nat
  owed : List Nat
  aerMask : Bool
  lostSeq : Nat
  lostNow : Nat
  later : List (HostDesc × Nat × Nat × Nat × Nat × Nat)
  waking : Bool
  busMaster : Bool
  readSize : Nat
  retry : Bool
  lostAt : Nat × Nat
  deriving DecidableEq, Repr

/-- A function after its reset (R425, R549). Bus Master Enable is as a host that uses the device sets it, and Max Read Request Size the largest
(DESIGN CHOICE, log entry 36). -/
def idleFn : FnSt where
  cmds := []
  bufs := []
  fill := []
  prod := []
  cons := 0
  reading := none
  again := false
  againAt := 0
  ignore := []
  d3 := false
  lost := []
  dropSaid := []
  dbSaid := false
  msix := []
  msixPend := []
  msixOn := false
  msixMask := false
  holding := []
  holdEnd := []
  owed := []
  aerMask := true
  lostSeq := 0
  lostNow := 0
  later := []
  waking := false
  busMaster := true
  readSize := 4096
  retry := false
  lostAt := (0, 0)

/-- A segment map entry (R403). -/
structure Seg where
  owner : Nat
  state : Nat
  marks : Bool
  flags : Nat
  ecc : Bool
  units : Nat
  stream : Nat
  seq : Nat
  tick : Nat
  deriving DecidableEq, Repr

/-- A capture stream beside its registers (R406–R412): the function, handle and edge it belongs to; the bytes and the mark
nibble of the unit in progress; whether a first word has come; a trigger that waits for its word, as the count of 500 ps
periods at which it came; the SEQ whose filling closes the stream; whether a graph stop closes it; whether the trigger came in the tick of
that stop (R416); the index of the first word that a task has sent to it (R409). -/
structure CapSt where
  fn : Nat
  handle : Nat
  edge : Nat
  part : List Byte
  nibble : Nat
  begun : Bool
  trig : Option Nat
  last : Option Nat
  ending : Bool
  late : Bool
  lead : Option Nat
  deriving DecidableEq, Repr

/-- A sagger beside its registers (R294–R327): a restart that waits for its boundary; nets still held; an armed capture and
CAP_STATUS.STATE before it; the shadow plane; the words of each input FIFO; words pushed in this tick and the open packet
of each stream of each output port; what has been said in this tick (IN_OVERFLOW of input port p at p, OUT_EXCESS and OUT_OVERFLOW of output port p at
16 + p and 32 + p); rises counted and
lines that have raised USER in this tick; the boundary at which a sagger that was switched out or stopped is restarted and
becomes FIRED; whether its pushes are discarded; the park states of its pins while they are parked;
the FUNCTION_ID and CLKSEL of its image, and the start-up steps that have completed (the codes of R335); the instants of the latest
arm and of the latest restart; CAP_CTRL and CAP_TICK as an arm took them, and the count of edges at which a capture on a net that is not
coherent falls (R322); of such nets the edges counted, the count at which the latest TICK pulse rises and the tick shown until then (R309),
and the count at the latest restart (R311); its flip-flops by 16t + m, routing registers by 64t + r and RAM bits by 64 × (16j + m) + a, where an
unlisted one holds its initial value (R300, R303, R306, R310), all three also as they were before the latest edge, with its instant (R324); each
trigger input as the latest edge of its clock took it, the edges for which it still reads 0, and what the design saw of it last (R317, R322),
with the levels of all 32 sources in the nine periods before; the event edge of an armed capture in units of 250 ps; the words that the design
has popped of each input port since the word before; and the levels of the pins when the wall closed (R359). -/
structure Sagger where
  restart : Bool
  held : List Nat
  armed : Bool
  was : Nat
  plane : FMap Word
  fifo : FMap (List Word)
  pushed : FMap Nat
  pkt : FMap (List Word)
  said : List Nat
  rises : FMap Nat
  lines : List Nat
  leave : Option Nat
  mute : Bool
  parked : Bool
  park : Nat
  image : Nat
  clocks : Nat
  released : List Nat
  armedAt : Nat
  heldAt : Nat
  setting : Word
  want : Nat
  due : Option Nat
  edges : FMap Nat
  late : FMap Nat
  shown : FMap Nat
  heldEdges : FMap Nat
  ff : FMap Bool
  rr : FMap Bool
  ram : FMap Bool
  wasAt : Nat
  wasFf : FMap Bool
  wasRr : FMap Bool
  wasRam : FMap Bool
  ti : FMap Bool
  tiMask : FMap Nat
  tiWas : FMap Bool
  tiPast : List Nat
  event : Option Nat
  popped : FMap Nat
  wall : List Bool
  deriving DecidableEq, Repr

/-- A function switch of a pin in progress (R491, R492): the instants of edge 1 and edge 2, and whether edge 1 has come. -/
structure Switch where
  edge1 : Nat
  edge2 : Nat
  dropped : Bool
  deriving DecidableEq, Repr

/-- A transmit FIFO and its shift register (R498): the words queued with the instant at which each enters the shift register
(none while the unit may not send), the instant at which the latest word sent ends, and the words sent since the last report. -/
structure TxQueue where
  queue : List (Nat × Option Nat)
  last : Nat
  sent : Nat
  deriving DecidableEq, Repr

/-- An I²C controller beside its registers (R498): its FIFOs, and the command in progress. -/
structure I2cSt where
  tx : List Byte
  rx : List Byte
  cmd : Option Word
  deriving DecidableEq, Repr

/-- A timer channel beside its registers (R499, R500): the compare instant that it waits for, as tick and sub-tick, its
output, and the instant at which a pulse ends. -/
structure TmrSt where
  armed : Option (Nat × Nat)
  out : Bool
  pulseEnd : Option Nat
  deriving DecidableEq, Repr

/-- The image being loaded, as its header gives it (R334). -/
structure ImageHdr where
  kind : Nat
  region : Nat
  enc : Bool
  startup : Nat
  frames : Nat
  length : Nat
  epochFrames : Nat
  func : Nat
  nonce : List Nat
  clksel : Nat
  park : Nat
  fpll0 : Nat
  fpll1 : Nat
  deriving DecidableEq, Repr

/-- A load (R342–R361): whether the host is the source; else the flash address of its image and the slot it came from (0 the
bisque image, 1 slot A, 2 slot B); its header once accepted; bytes taken, and those that the host has delivered and the loader
has not taken; CFG_DATA descriptors not yet complete, each with the place in the stream that follows its last byte; the boundary
of the deadline of R353; frames taken and the frame addresses written; the key, authenticated data and ciphertext of the epoch
so far, and the address of its first frame; trailers whose judgement is outstanding, each with its verdict, epoch and first frame;
matrix frames held for start-up with their address; the start-up steps to come, the instant at which the next is due, and since
when WAIT_LOCK waits; and the instant before which clearing does not end and no frame is taken (R350, R351). -/
structure Load where
  host : Bool
  base : Nat
  slot : Nat
  hdr : Option ImageHdr
  taken : Nat
  inbox : List Byte
  descs : List (HostDesc × Nat)
  ended : Bool
  deadline : Nat
  index : Nat
  written : List Nat
  lastAddr : Option Nat
  key : List Nat
  aad : List Nat
  cipher : List Nat
  firstAddr : Nat
  tags : List (Bool × Nat × Nat)
  matrix : List (Nat × List Word)
  steps : List Nat
  stepAt : Option Nat
  waitFrom : Option Nat
  readyAt : Nat
  deriving DecidableEq, Repr

/-- The image set of a flash slot being loaded (R344): the slot (1 A, 2 B), the next entry, and whether only PARTIAL entries
are loaded. -/
structure SetLoad where
  slot : Nat
  next : Nat
  partialOnly : Bool
  deriving DecidableEq, Repr

/-- A firmware installation or slot write in progress (R526, R527): its descriptor (none once a reset of F0 has abandoned it),
the flash address of the slot, its number in DETAIL, the bytes to be programmed, and INSTALL_SEQ. -/
structure FlashOp where
  fw : Bool
  d : Option HostDesc
  base : Nat
  slot : Nat
  bytes : List Byte
  seq : Nat
  deriving DecidableEq, Repr

/-- A request whose response is outstanding at an NI (R380): its tag, ADDR and destination, the boundary of its deadline, and the units
of response buffer that it has reserved. -/
structure NetReq where
  ni : Nat
  tag : Nat
  addr : Nat
  dest : Nat
  expiry : Nat
  cmd : Nat
  domain : Nat
  room : Nat
  deriving DecidableEq, Repr

/-- A valid entry of a route table (R375): its number, the hops of its route, and the destination NI. -/
structure RouteEntry where
  num : Nat
  hops : List Nat
  dst : Nat
  deriving DecidableEq, Repr

/-- What the entry of a tag in a remote table sends a packet on with (R392): the function whose graph it serves, the stream number at the
destination, and the route. -/
structure Remote where
  fn : Nat
  num : Nat
  entry : RouteEntry
  deriving DecidableEq, Repr

/-- The receiving end of a link (R367, R368, R390): the sequence number of the unit due; how often in a row that unit has failed its check;
whether a resend has been asked for, so that what follows is discarded; the good units that have not been acknowledged; and the instant of
the last unit. -/
structure LinkSt where
  due : Nat
  bad : Nat
  resend : Bool
  unacked : Nat
  heard : Nat
  deriving DecidableEq, Repr

end Sys2Proof.Machine
end

