-- ==== Sys2Proof/Machine/State.lean ====
section
/-! DEFINITION. The state of the block: the register file of BAR0, the time, the units' hidden state, the event queues,
and the queue of waiting commands. Plain data throughout. -/

namespace Sys2Proof.Machine

/-- What stops the machine. No command of this block stops it: the spec gives every command an effect. -/
inductive Fault where
  /-- Raised by nobody: kept so that a reader sees that the type of faults is closed. Safe. -/
  | none_
  deriving DecidableEq, Repr

/-- Why a command has no meaning here. -/
inductive Refusal where
  /-- Raised by the dispatcher for a command that has no meaning yet. Safe. -/
  | notModelled (mnemonic : String)
  deriving DecidableEq, Repr

/-- What leaves the block towards the host, newest first in `State.out`. -/
inductive Out where
  | readData (f : Nat) (w : Word)                 -- completion of a BAR0 read
  | readBytes (f : Nat) (b : List Byte) (poisoned : Bool)   -- completion of a BAR2 read
  | completerAbort (f : Nat)                      -- completion of a read that is a violation (R470)
  | aer (f : Nat)                                 -- a Completer Abort reported to the host's AER handling (R424)
  | hostWrite (f : Nat) (addr : Nat) (b : List Byte)
  | msix (f : Nat) (v : Nat)
  | doorbellRead (f : Nat)                       -- a read of a doorbell line issued
  | crossed (l : Nat) (p : Packet)               -- a packet sent over chip link l
  | control (l pos div : Nat) (sync : Bool)      -- the control unit of a boundary sent over chip link l (R391)
  | poisoned (f : Nat) (addr : Nat) (b : List Byte)   -- a write to host memory in a TLP marked poisoned (R440)
  deriving DecidableEq, Repr

/-- Time (R31–R51). `now` counts 500 ps since power-up; `tick` and `sub` are the timestamp; `origin` is the instant of
the last sync reset, or of tick 0, and `quadOrigin` a later one of a quad whose PLL relocked. `bounds` counts boundaries, and
`ended` and `lastStart` are the number and the first instant of the tick that the latest of them ended. `checks` are the instants that
SYNC_IN edges wait to be compared at, earliest first, each with its offset once the boundary behind it has come (R46). -/
structure TimeSt where
  clock : Clock
  now : Nat
  tick : Nat
  sub : Nat
  origin : Nat
  quadOrigin : FMap Nat
  realign : List Nat
  latHi : FMap Word
  latSub : FMap Word
  syncs : List SyncReset
  checks : List (Nat × Option Int)
  relockGo : Bool
  bounds : Nat
  ended : Nat
  lastStart : Nat
  deriving DecidableEq, Repr

/-- The analogue sections (R53–R88): queued matrix commands per quad; open settling windows, keyed 12q + k for a
channel path and 12q + 4 + b for a CAB; the latest windows of each key from their first instant to their last, newest first (R58);
the spans over which samples carry C per channel, newest first (R60); the instant until which an integrator is held (R63) per CAB; the samples of each DAC with
the instant at which each goes out, the first being the one held (R79, R80), and its tone phase; the instant EN was set (R82); quads
that have powered down since their queue last took effect (R75); OVLD_IE as it was before a write that foreground calibration holds, per
channel (R85); and the latest changes of each comparator's output, newest first, each with the instant from which CMP_OUT reads it (R65). -/
structure AnaSt where
  queue : FMap (List MxCmd)
  win : FMap (Option Nat)
  spans : FMap (List (Nat × Nat))
  ovldSpans : FMap (List (Nat × Option Nat))
  intHold : FMap Nat
  dacQueue : FMap (List (Nat × Nat))
  dacPhase : FMap Nat
  refOn : FMap Nat
  down : FMap Bool
  heldIe : FMap (Option Bool)
  cmp : FMap (List (Nat × Bool))
  deriving DecidableEq, Repr

/-- The slice pools (R89–R124): start-ups, keyed 36q + s; the order in which slices completed their last runs (0: none
yet) and the count behind it; retirements not yet reported; positions being filled; the instant at which a channel
started or a sync reset restarted it; the instant, u and y of a channel's last sample that a chain took unmarked (R112); the instant at which a slice's
present block began and whether its start-up lies in it (R110); waiting injected conversions and the number accepted in this tick, per
quad, and the instant at which the monitor path is free again (R120). Keyed 64q + 16k + j, the latest change of the slice of a position:
its instant and the slice before it (R104); keyed 36q + s, the instant from which a slice has converted in its position (R110) and that at
which its latest start-up in an added position ended (R96); and per quad the slices settled on one boundary ahead (R97). -/
structure PoolSt where
  wake : FMap (Option Wake)
  lastRun : FMap Nat
  runs : Nat
  retired : List Retired
  filled : List Filled
  chStart : FMap Nat
  last : FMap (Option (Nat × Int × Int))
  block : FMap (Option (Nat × Bool))
  inj : FMap (List InjReq)
  injCount : FMap Nat
  injFree : FMap Nat
  prev : FMap (Option (Nat × Option Nat))
  seated : FMap Nat
  woke : FMap Nat
  chosen : FMap (List Nat)
  deriving DecidableEq, Repr

/-- What OTP holds (R152) and whether its check word passes. Keys: slice 36q + s; channel setting 64c + 32·ATT + PGA;
quad q. The codes E0, EP and EN are in tenths of an LSB, tc_dac in ppm per °C, temperatures in °C × 16. -/
structure Otp where
  ok : Bool
  slices : FMap SliceCor
  chans : FMap ChanCor
  e0 : FMap Int
  ep : FMap Int
  en : FMap Int
  dacGain : FMap Nat
  tcDac : Int
  dieOfs : FMap Int
  factoryTemp : Int
  deviceId : Nat
  subVendor : Nat
  subSystem : Nat
  deriving DecidableEq, Repr

/-- What a copy of the calibration store says (R153): its GENERATION, IDCODE and DEVICE_ID, and its records. Keys: slice 36q + s,
channel c. -/
structure Store where
  gen : Nat
  idcode : Nat
  device : Nat
  slices : FMap SliceCor
  chans : FMap StoredChan
  temps : FMap Nat
  deriving DecidableEq, Repr

/-- Calibration (R125–R158). Keys: quad q, channel c; pilot amplitudes (with their temperature) 64c + 32·ATT + PGA;
sensors q for a quad diode and 16 + d for a die sensor; the boundary at which a hold-off ends, counted from power-up; quads whose
rotation has been held for a moment since the last boundary (R102). `image` is the store copy being written and `savedAt` the instant of
the last write; `late` holds, at
36q + s, the stored values that a slice of the bisque service takes at its first exchange, and `lateChan` those of its channel
of quad q (R154). `tone` is, per quad, the full scale at which its pilot tone stands at −60 dBFS (R144). -/
structure CalSt where
  otp : Otp
  run : FMap (Option Run)
  fg : FMap (Option FgRun)
  pilot : FMap (Option PilotRun)
  result : FMap (Option ChResult)
  aPrev : FMap (Option (Nat × Int))
  holdoff : FMap Nat
  upset : List Nat
  rangeDone : FMap Bool
  sensor : FMap Sensor
  image : Option Store
  savedAt : Nat
  changed : Bool
  saveAgain : Bool
  late : FMap (Option SliceCor)
  lateChan : FMap (Option StoredChan)
  tone : FMap Int
  deriving DecidableEq, Repr

/-- A heat move in progress (R286, R287): the function, handle and element, the old and the new unit (codes of R262), the count of
boundaries at the switch at the earliest, and whether the switch has come (a task's copy is then under way). -/
structure Move where
  fn : Nat
  handle : Nat
  elem : Nat
  old : Nat
  new : Nat
  at_ : Nat
  begun : Bool
  deriving DecidableEq, Repr

/-- The Wheel (R260–R293): whether it accepts graphs (R268, R536), the graphs it holds, its heat policy and one that waits for
its boundary, moves in progress, the boundary count at the last heat move (R288), and the new routes that wait for their boundary
(R290): function, handle and the edge, stopped where there is no route; and what changes have removed and the Wheel
still has to release (R280, R283). `first` is the first graph admitted, whose start ends the bisque service (R279). -/
structure WheelSt where
  ready : Bool
  graphs : List Graph
  heatMove : Nat
  hot : Nat
  hyst : Nat
  setNext : Option (Nat × Nat × Nat)
  moves : List Move
  movedAt : Option Nat
  reroutes : List (Nat × Nat × PlacedEdge × PlacedEdge)
  leaving : List Leaving
  first : Option (Nat × Nat)
  deriving DecidableEq, Repr

/-- Capture memory (R399–R415): bytes by capture address, segment map entries, streams, the latch of each function (the entry
and its W1–W3), what has said ECC_CORRECTED lately, and the functions that were reset and whose segments are still to be freed
(R425). -/
structure MemSt where
  data : FMap Byte
  segs : FMap Seg
  caps : FMap CapSt
  latch : FMap (Option (Nat × Nat × Nat × Nat))
  corrSaid : FMap (Option Nat)
  freeing : List Nat
  deriving DecidableEq, Repr

/-- The loader and the boot flash (R331–R364, R518–R529): the open load; configuration cells by frame address; the root key of
OTP (empty where none is programmed) and its ENC_ONLY fuse; the bytes of the flash; the flash
operation in progress; the image set being loaded; how often the bisque image has failed at boot; when a load of each sagger
was aborted; fabric PLL frequencies of the released production image; the firmware slot being started (0 none) and the slots
that the ROM has marked invalid. -/
structure LoaderSt where
  load : Option Load
  cells : FMap (List Byte)
  rootKey : List Nat
  encOnly : Bool
  flash : FMap Byte
  op : Option FlashOp
  set : Option SetLoad
  bisqueFails : Nat
  abortAt : FMap (Option Nat)
  fpll : FMap Nat
  starting : Nat
  marked : List Nat
  deriving DecidableEq, Repr

/-- The network beside its registers (R365–R395): requests outstanding; units sent and not yet credited, keyed 256 × source
+ destination; what each NI has raised in this tick (NI and code); the receiving end of each link (port 4r + p, chip link 256 + l), and
when each last said REPLAY; chip links that have said NO_TAG in this tick, and the TICK_DIV that the far end of each last reported; NIs
that have drained; the place at which the pointers of each crossing FIFO stand, 2n towards the unit of NI n and 2n + 1 towards the network
(R383); the route tables, NI n's in epoch e under 2n + e (R375); the remote tables, tag t on chip link l under 1024l + t (R392); packets
that wait at their NI for credits, each with its table entry, and packets that wait at an XL NI for credits of the far one (R380, R392);
the units sent over each chip link and not yet credited; requests whose deadline has expired (R380); and of each domain that drains, the
instant at which it began and the packets that were inside (R384). -/
structure NocSt where
  reqs : List NetReq
  used : FMap Nat
  said : List (Nat × Nat)
  links : FMap LinkSt
  replaySaid : FMap (Option Nat)
  noTag : List Nat
  peerDiv : FMap Nat
  drained : List Nat
  bridge : FMap Nat
  tables : FMap (List RouteEntry)
  remotes : FMap (List Remote)
  waiting : List (Nat × Packet)
  linkWait : List (Nat × Packet)
  linkUsed : FMap Nat
  expired : List NetReq
  draining : List (Nat × Nat × List Packet)
  deriving DecidableEq, Repr

/-- Reset and boot (R510–R537), supplies and heat (R562, R577–R579): PERST_N or a supply holds the device; a warm reset hides
the registers until READY; the instant at which a warm reset that was written begins; whether the OTP has been read, the
self-tests are done and step 6 of the boot sequence has come; whether the bisque service runs; the Deogen lane being reloaded;
the rails outside their warning band; a thermal hold that falls due at the next boundary, one in force, its end falling due at
the next boundary, the boundary at which its clusters power down, the instant of the latest valid reading above Tmax − 10 °C,
that of the latest THERM_WARN; a thermal trip; the instant of t0 and that at which the ROM started the firmware; and whether a graph
has started since reset, so that rotation is no longer held for the bisque service (R102, R536); the levels
at the strap balls BPOS0, BPOS1 and BAR2_EN, a bit each, and whether BAR2 is there (R422, R573); and whether the PCI Express link has come
down to a lower rate or width (R428). -/
structure BootSt where
  held : Bool
  warm : Bool
  resetAt : Option Nat
  otpRead : Bool
  tested : Bool
  judged : Bool
  bisque : Bool
  lane : Option Nat
  warned : List Nat
  holdDue : Bool
  hold : Bool
  clearDue : Bool
  downAt : Option Nat
  hotAt : Nat
  warnAt : Option Nat
  trip : Bool
  t0 : Nat
  fwAt : Nat
  started : Bool
  straps : Nat
  bar2 : Bool
  linkSlow : Bool
  deriving DecidableEq, Repr

/-- Pins, peripherals and trigger lines (R480–R509). Keys: pin p, unit u, channel n, sagger output 8s + i, trigger line 0–7 and
STAR_IN 8. The function in force of each pin (ALT, and 16 with ANALOG); function switches in progress; accepted levels; pins
that have said PIN_IRQ in this tick, and further settings since; the peripherals; levels of the lines as they stand at the balls,
and of the saggers' trigger outputs; what the pads still take of a register that has been written, up to the pin-clock edge at which the
write reaches them (R484, R492); and the pins whose level condition is looked at again at the next pin-clock edge, and that edge (R495). -/
structure PinsSt where
  alt : FMap Nat
  switch : FMap (Option Switch)
  level : FMap Bool
  said : List Nat
  more : FMap Nat
  spiTx : FMap TxQueue
  spiRx : FMap (List Nat)
  i2c : FMap I2cSt
  uartTx : FMap TxQueue
  uartRx : FMap (List Byte)
  tmr : FMap TmrSt
  lines : FMap Bool
  outs : FMap Bool
  late : FMap (Option (Word × Nat))
  rearm : List Nat
  rearmAt : Nat
  deriving DecidableEq, Repr

/-- The whole state. -/
structure State where
  pending : List Instr
  part : Part
  regs : FMap Word
  rwtOld : FMap (Option Word)
  time : TimeSt
  power : FMap Power
  ana : AnaSt
  pool : PoolSt
  cal : CalSt
  chains : FMap ChainSt
  cores : FMap Core
  net : List Packet
  wheel : WheelSt
  fns : FMap FnSt
  mem : MemSt
  sags : FMap Sagger
  loader : LoaderSt
  noc : NocSt
  pins : PinsSt
  boot : BootSt
  events : FMap (List Event)
  logFullSaid : Bool
  freeCtr : Nat
  hwAt : Nat
  hwSet : FMap Word
  out : List Out
  deriving DecidableEq, Repr

/-! ### Reset (R548) -/

/-- OTP as delivered in this model: a check word that passes over nominal values (DESIGN CHOICE, log entry 41). -/
def factoryOtp : Otp := ⟨true, [], [], [], [], [], [], 0, [], 0, 0, 0, 0⟩

/-- HOT after reset (R285). -/
def hotReset : Part → Nat | .ka6416E => 95 | _ => 90

/-- The device of a part at t0 of its boot sequence (R514): PERST_N has just risen, nothing has run, and every register holds the
value of its Reset column (R548). The supplies of the fourteen pin banks are present (DESIGN CHOICE, log entry 42). -/
def State.resetFor (p : Part) : State where
  pending := []
  part := p
  regs := (List.range 14).map (fun b => (0x60001C + 0x1000 * b, (1 : Word)))
  rwtOld := []
  time := { clock := .held, now := 0, tick := 0, sub := 0, origin := 0, quadOrigin := [], realign := [], latHi := [], latSub := [],
            syncs := [], checks := [], relockGo := false, bounds := 0, ended := 0, lastStart := 0 }
  power := []
  ana := { queue := [], win := [], spans := [], ovldSpans := [], intHold := [], dacQueue := [], dacPhase := [], refOn := [], down := [],
           heldIe := [], cmp := [] }
  pool := { wake := [], lastRun := [], runs := 0, retired := [], filled := [], chStart := [], last := [], block := [], inj := [],
            injCount := [], injFree := [], prev := [], seated := [], woke := [], chosen := [] }
  cal := { otp := factoryOtp, run := [], fg := [], pilot := [], result := [], aPrev := [], holdoff := [], upset := [], rangeDone := [],
           sensor := [], image := none, savedAt := 0, changed := false, saveAgain := false,
           late := [], lateChan := [], tone := [] }
  chains := []
  cores := []
  net := []
  wheel := { ready := false, graphs := [], heatMove := 1, hot := hotReset p, hyst := 5, setNext := none, moves := [],
             movedAt := none, reroutes := [], leaving := [], first := none }
  fns := []
  mem := { data := [], segs := [], caps := [], latch := [], corrSaid := [], freeing := [] }
  sags := []
  loader := { load := none, cells := [], rootKey := [], encOnly := false, flash := [], op := none, set := none, bisqueFails := 0,
              abortAt := [], fpll := [], starting := 0, marked := [] }
  noc := { reqs := [], used := [], said := [], links := [], replaySaid := [], noTag := [], peerDiv := [], drained := [], bridge := [],
           tables := [], remotes := [], waiting := [], linkWait := [], linkUsed := [], expired := [], draining := [] }
  pins := { alt := [], switch := [], level := [], said := [], more := [], spiTx := [], spiRx := [], i2c := [], uartTx := [],
            uartRx := [], tmr := [], lines := [], outs := [], late := [], rearm := [], rearmAt := 0 }
  boot := { held := false, warm := false, resetAt := none, otpRead := false, tested := false, judged := false, bisque := false,
            lane := none, warned := [], holdDue := false, hold := false, clearDue := false, downAt := none, hotAt := 0,
            warnAt := none, trip := false, t0 := 0, fwAt := 0, started := false,
            straps := 4, bar2 := true, linkSlow := false }
  events := []
  logFullSaid := false
  freeCtr := 0
  hwAt := 0
  hwSet := []
  out := []

/-- The machine right after reset: a KA-6416-C (DESIGN CHOICE, log entry 40) at t0. -/
def State.reset : State := State.resetFor .ka6416C

end Sys2Proof.Machine
end

