-- ==== Sys2Proof/Machine/Ops.lean ====
section
/-! DEFINITION. The operations every family shares: registers and their fields, units present, owners, raising events
and logging faults, violations, and power. -/

namespace Sys2Proof.Machine

/-! ### Registers -/

/-- What a register holds. -/
def State.reg (s : State) (off : Nat) : Word := FMap.get Regs.reset s.regs off

/-- A register replaced whole. -/
def State.setReg (s : State) (off : Nat) (w : Word) : State := { s with regs := FMap.set Regs.reset s.regs off w }

/-- A field as a read returns it. -/
def State.fld (s : State) (off : Nat) (F : Fld) : Nat := F.get (s.reg off)

/-- A field set by hardware, by Deogen or by a write that takes effect at once. -/
def State.setFld (s : State) (off : Nat) (F : Fld) (x : Nat) : State := s.setReg off (F.put (s.reg off) x)

/-- The W1C bits of a register that hardware has set at the present instant (R12). -/
def State.justSet (s : State) (off : Nat) : Word := if s.hwAt = s.time.now then FMap.get (fun _ => 0) s.hwSet off else 0

/-- W1C bits set by hardware: a write at the same instant does not clear them (R12). -/
def State.setFlag (s : State) (off : Nat) (F : Fld) : State :=
  { s.setFld off F (2 ^ F.width - 1) with
    hwAt := s.time.now
    hwSet := FMap.set (fun _ => 0) (if s.hwAt = s.time.now then s.hwSet else []) off (s.justSet off ||| F.mask) }

/-- A one-bit field as a truth value. -/
def State.bit (s : State) (off : Nat) (F : Fld) : Bool := s.fld off F == 1

/-- The word whose RWT fields are in force: while a write waits for its boundary, the word it found (R11, R14). -/
def State.oldReg (s : State) (off : Nat) : Word := (FMap.get (fun _ => none) s.rwtOld off).getD (s.reg off)

/-- An RWT field in force. -/
def State.cur (s : State) (off : Nat) (F : Fld) : Nat := F.get (s.oldReg off)

/-- An RWT register written: the new value reads at once and comes into force at the next boundary (R11, R13, R14). -/
def State.setTimed (s : State) (off : Nat) (w : Word) : State :=
  { s.setReg off w with rwtOld := FMap.set (fun _ => none) s.rwtOld off (some (s.oldReg off)) }

/-- An RWT field that Deogen puts into force at a boundary: a host write that waits still comes into force after it (R13, R85). -/
def State.setCur (s : State) (off : Nat) (F : Fld) (x : Nat) : State :=
  match FMap.get (fun _ => none) s.rwtOld off with
  | none => s.setFld off F x
  | some w => { s with rwtOld := FMap.set (fun _ => none) s.rwtOld off (some (F.put w x)) }

/-- What a write of `v` clears and sets by, where hardware sets W1C bits at the same instant: those stay (R12). -/
def State.effective (s : State) (off : Nat) (d : Regs.Desc) (v : Word) : Word := v &&& ~~~ (d.bits .w1c &&& s.justSet off)

/-- A write of `v` applied to a register as its field map directs (R12, R545). -/
def State.writeReg (s : State) (off : Nat) (d : Regs.Desc) (v : Word) : State :=
  let w := d.write (s.reg off) (s.effective off d v)
  if d.timed then s.setTimed off w else s.setReg off w

/-- A counter register advanced by one, mod 2³². -/
def State.count (s : State) (off : Nat) : State := s.setReg off (s.reg off + 1)

/-- A 64-bit value in a LO and HI pair. -/
def State.pair (s : State) (lo hi : Nat) : Nat := (s.reg lo).toNat + (s.reg hi).toNat * 0x100000000

/-- A LO and HI pair set. -/
def State.setPair (s : State) (lo hi x : Nat) : State :=
  (s.setReg lo (BitVec.ofNat 32 x)).setReg hi (BitVec.ofNat 32 (x / 0x100000000))

/-- Something that leaves the block. -/
def State.emit (s : State) (o : Out) : State := { s with out := o :: s.out }

/-- A value that the spec leaves open, and the counter advanced past it (DESIGN CHOICE, log entry 3). -/
def State.free (s : State) : Nat × State := (Config.freeValue s.freeCtr, { s with freeCtr := s.freeCtr + 1 })

/-- A meaning that always ends in a next state. -/
abbrev Result := Host.Outcome State Fault Refusal

/-! ### Units present (R1) -/

/-- The quads of the part. -/
def Part.quads : Part → Nat | .ka3216C => 8 | _ => 16
/-- The chains of the part. -/
def Part.chains : Part → Nat | .ka3216C => 40 | _ => 80
/-- The DSP cores of the part. -/
def Part.cores : Part → Nat | .ka3216C => 36 | _ => 72
/-- The saggers of the part. -/
def Part.saggers : Part → Nat | .ka3216C => 8 | _ => 16
/-- The IDCODE of the part (R9). -/
def Part.idcode : Part → Nat | .ka3216C => 0x53216EB3 | _ => 0x56416EB3
/-- The REVISION of the part (R9). -/
def Part.revision : Part → Nat | .ka6416E => 0x102 | _ => 0x002
/-- The CAPS register of the part (R1, R552). -/
def Part.caps (p : Part) : Nat := p.cores * 0x1000000 + p.chains * 0x10000 + p.saggers * 0x100 + p.quads

/-- Whether quad `q` exists. -/
def State.hasQuad (s : State) (q : Nat) : Bool := decide (q < s.part.quads)

/-- A command on a unit that is absent cannot come about: it changes nothing. -/
def State.onlyIf (s : State) (b : Bool) (t : State) : State := if b then t else s

/-! ### Owners (R464, R465) -/

/-- Nibble `j` of a word: the owner code of one unit of an owner register. -/
def nibble (w : Word) (j : Nat) : Nat := (w.toNat / 16 ^ j) % 16

/-- The owner that an owner register holds for unit `u`. -/
def State.owner (s : State) (r : Nat → Nat) (u : Nat) : Nat := nibble (s.reg (r (u / 8))) (u % 8)

/-- The owner of a unit, set by Deogen (R276). -/
def State.setOwner (s : State) (r : Nat → Nat) (u c : Nat) : State :=
  s.setFld (r (u / 8)) ⟨4 * (u % 8) + 3, 4 * (u % 8)⟩ c

/-- The owner in force of a pin. -/
def State.ownPin (s : State) (u : Nat) : Nat := s.owner Regs.pinOwnerNow u
/-- The owner in force of a channel. -/
def State.ownChan (s : State) (u : Nat) : Nat := s.owner Regs.chOwnerNow u
/-- The owner in force of a chain. -/
def State.ownChain (s : State) (u : Nat) : Nat := s.owner Regs.chainOwner u
/-- The owner in force of a core. -/
def State.ownCore (s : State) (u : Nat) : Nat := s.owner Regs.coreOwner u
/-- The owner in force of a sagger. -/
def State.ownSagger (s : State) (u : Nat) : Nat := s.owner Regs.saggerOwner u
/-- The owner in force of a CAB, index 8q + b. -/
def State.ownCab (s : State) (u : Nat) : Nat := s.owner Regs.cabOwner u
/-- The owner in force of a quad DAC. -/
def State.ownDac (s : State) (u : Nat) : Nat := s.owner Regs.dacOwner u

/-- The function of an owner code, if it is one. -/
def functionOf (c : Nat) : List Nat := if 1 ≤ c ∧ c ≤ 8 then [c - 1] else []

/-- The functions that own channels of a quad. -/
def State.quadFunctions (s : State) (q : Nat) : List Nat :=
  (functionOf (s.ownChan (4 * q)) ++ functionOf (s.ownChan (4 * q + 1)) ++ functionOf (s.ownChan (4 * q + 2))
    ++ functionOf (s.ownChan (4 * q + 3))).eraseDups

/-! ### Events (R454–R463) -/

/-- Whether a source belongs to a unit that the part has, and is not reserved (R5, R454, R455). -/
def sourcePresent (p : Part) (src : Nat) : Bool :=
  if src < 448 then true
  else if src < 576 then decide ((src - 448) / 8 < p.quads)
  else if src < 648 then decide (src - 576 < p.cores)
  else if src < 728 then decide (src - 648 < p.chains)
  else if src < 744 then decide (src - 728 < p.quads)
  else if src < 760 then decide (src - 744 < p.saggers)
  else decide (src < 866)

/-- Reasons of router events that concern the unit attached to an NI: PATH_CLOSED to TIMEOUT (R396). -/
def routerByUnit (rsn : Nat) : Bool := decide (3 ≤ rsn ∧ rsn ≤ 6)

/-- F0 when the owner is not a function, else that function (R461, first row). -/
def toOwner (c : Nat) : List Nat := if 1 ≤ c ∧ c ≤ 8 then [c - 1] else [0]

/-- The functions an event is delivered to (R461, R462). `whom` is the owner code that the raising rule names: the
requester of a quad refusal or injected conversion, the owner of the channel of a position (16: a retired standby, so every channel of
the quad), of the unit at an NI, of a stream, of a graph handle or of a core's task, or the requester of a violation. -/
def State.recipients (s : State) (src rsn a0 whom : Nat) : List Nat :=
  if src < 448 then toOwner (s.ownPin src)
  else if src < 576 then toOwner (s.ownChan ((src - 448) / 2))
  else if src < 648 then
    if s.ownCore (src - 576) = 10 then 0 :: functionOf whom else toOwner (s.ownCore (src - 576))
  else if src < 728 then toOwner (s.ownChain (src - 648))
  else if src < 744 then
    let q := src - 728
    0 :: (if rsn = 1 then functionOf (s.ownCab (8 * q + a0))
      else if rsn = 4 then functionOf (s.ownDac q)
      else if rsn = 2 ∨ rsn = 3 ∨ rsn = 5 ∨ rsn = 6 then functionOf whom
      else if (rsn = 7 ∨ rsn = 9) ∧ whom ≠ 16 then functionOf whom
      else s.quadFunctions q)
  else if src < 760 then toOwner (s.ownSagger (src - 744))
  else if src < 824 then 0 :: (if routerByUnit rsn then functionOf whom else [])
  else if src = 830 then functionOf whom
  else if src = 831 then 0 :: functionOf whom
  else if 832 ≤ src ∧ src < 848 then [(src - 832) / 2]
  else if src = 858 then functionOf whom
  else if src = 860 then 0 :: (if 2 ≤ whom ∧ whom ≤ 8 then [whom - 1] else [])
  else [0]

/-- The OWNER field of an event record (R587, R462). -/
def State.recordOwner (s : State) (src rsn a0 whom : Nat) : Nat :=
  if src < 448 then s.ownPin src
  else if src < 576 then s.ownChan ((src - 448) / 2)
  else if src < 648 then s.ownCore (src - 576)
  else if src < 728 then s.ownChain (src - 648)
  else if src < 744 then
    if rsn = 1 then s.ownCab (8 * (src - 728) + a0)
    else if rsn = 4 then s.ownDac (src - 728)
    else if rsn = 2 ∨ rsn = 3 ∨ rsn = 5 ∨ rsn = 6 ∨ rsn = 7 ∨ rsn = 9 then (if whom = 16 then 15 else whom)
    else 15
  else if src < 760 then s.ownSagger (src - 744)
  else if src < 824 then (if routerByUnit rsn then whom else 15)
  else if src = 830 ∨ src = 831 then whom
  else if 832 ≤ src ∧ src < 848 then (src - 832) / 2 + 1
  else if 856 ≤ src then 0
  else 15

/-- Whether function `f` has the source enabled (R463). -/
def State.enabled (s : State) (f src : Nat) : Bool :=
  bitOf (s.reg (if src / 32 = 27 then Regs.evEnable27 f else Regs.evEnable f (src / 32))).toNat (src % 32) == 1

/-- An event put in its place: by time as raised, and at one instant by source and then reason (R459). -/
def insertEvent (e : Event) : List Event → List Event
  | [] => [e]
  | x :: xs =>
    if x.tick = e.tick ∧ x.sub = e.sub ∧ (e.source < x.source ∨ (e.source = x.source ∧ e.reason < x.reason))
    then e :: x :: xs else x :: insertEvent e xs

/-- The events that wait to be written for function `f`. -/
def State.queueOf (s : State) (f : Nat) : List Event := FMap.get (fun _ => []) s.events f

/-- An event delivered to one function, where its ENABLE lets it (R463). -/
def State.deliver (s : State) (e : Event) (f : Nat) : State :=
  if s.enabled f e.source then
    { s with events := FMap.set (fun _ => []) s.events f (insertEvent e (s.queueOf f)) } else s

/-- What an event raised now is (R458, R459): its time is that of the raising, its owner field that of R587. -/
def State.eventOf (s : State) (src rsn : Nat) (args : List Nat) (whom : Nat) (slot : Option Nat) : Event :=
  ⟨src, rsn, s.recordOwner src rsn (args.getD 0 0) whom, slot, s.time.tick, s.time.sub, args.getD 0 0, args.getD 1 0,
    args.getD 2 0⟩

/-- An event raised now (R459, R461): delivered to each of its functions once, and to F0 where it made a fault-log
entry. -/
def State.raise (s : State) (src rsn : Nat) (args : List Nat := []) (whom : Nat := 15) (slot : Option Nat := none)
    (logged : Bool := false) : State :=
  if sourcePresent s.part src then
    ((if logged then [0] else []) ++ s.recipients src rsn (args.getD 0 0) whom).eraseDups.foldl
      (fun t f => t.deliver (s.eventOf src rsn args whom slot) f) s
  else s

/-! ### The fault log (R471–R475) -/

/-- W0 of a fault-log entry (R472). -/
def FaultRec.w0 (r : FaultRec) : Nat :=
  r.cls * 0x1000000 + r.requester * 0x100000 + r.resOwner * 0x10000 + r.source

/-- Whether a fault matches the newest unacknowledged entry (R473). -/
def State.coalesces (s : State) (r : FaultRec) : Bool :=
  let k := (s.reg Regs.flSeqNext).toNat
  let i := (k + 63) % 64
  let w0 := (s.reg (Regs.flEntry i 0)).toNat
  decide (s.fld Regs.flStatus Regs.flStatus_COUNT ≠ 0 ∧ w0 / 0x1000000 = r.cls ∧ (w0 / 0x100000) % 16 = r.requester
    ∧ w0 % 1024 = r.source ∧ bitsOf (s.reg (Regs.flEntry i 7)).toNat 15 8 = r.code
    ∧ s.pair (Regs.flEntry i 2) (Regs.flEntry i 3) = r.tick)

/-- REPEAT of the newest entry advanced, saturating at 255 (R472, R473). -/
def State.repeatFault (s : State) : State :=
  let i := ((s.reg Regs.flSeqNext).toNat + 63) % 64
  let F : Fld := ⟨31, 24⟩
  s.setFld (Regs.flEntry i 7) F (min 255 (s.fld (Regs.flEntry i 7) F + 1))

/-- A fault written into its slot (R471, R472). -/
def State.writeFault (s : State) (r : FaultRec) : State :=
  let k := (s.reg Regs.flSeqNext).toNat
  let i := k % 64
  let n := s.fld Regs.flStatus Regs.flStatus_COUNT + 1
  let w (t : State) (j x : Nat) := t.setReg (Regs.flEntry i j) (BitVec.ofNat 32 x)
  let t := w s 0 r.w0
  let t := w t 1 k
  let t := w t 2 r.tick
  let t := w t 3 (r.tick / 0x100000000)
  let t := w t 4 r.addr
  let t := w t 5 (r.addr / 0x100000000)
  let t := w t 6 r.addr2
  let t := w t 7 (r.code * 0x100 + r.info)
  let t := t.count Regs.flSeqNext
  let t := t.setFld Regs.flStatus Regs.flStatus_COUNT n
  let t := t.setFld Regs.flStatus Regs.flStatus_FULL (flag (n == 64))
  if n = 1 then t.setFld Regs.flStatus Regs.flStatus_OLDEST i else t

/-- A fault that a full log loses (R475). -/
def State.loseFault (s : State) : State :=
  let t := (s.count Regs.flLost).setFlag Regs.flStatus Regs.flStatus_LOST_ANY
  if t.logFullSaid then t else { t.raise 861 1 [(t.reg Regs.flLost).toNat] with logFullSaid := true }

/-- A fault logged, and the event that goes with it raised (R470, R473, R475): a coalesced fault raises none, and a
fault that a full log loses raises it with FAULT 0. -/
def State.report (s : State) (r : FaultRec) (src rsn : Nat) (args : List Nat) (whom : Nat := 15) : State :=
  if s.coalesces r then s.repeatFault
  else if s.fld Regs.flStatus Regs.flStatus_COUNT = 64 then s.loseFault.raise src rsn args whom
  else (s.writeFault r).raise src rsn args whom (some ((s.reg Regs.flSeqNext).toNat % 64)) true

/-- A fault logged without an event of its own. -/
def State.logFault (s : State) (r : FaultRec) : State :=
  if s.coalesces r then s.repeatFault
  else if s.fld Regs.flStatus Regs.flStatus_COUNT = 64 then s.loseFault
  else s.writeFault r

/-! ### Violations (R467–R470) -/

/-- The owner code of the unit at an NI, which its headers carry as DOMAIN (R382): a spare that catches up for a task sends as the
task's function (R228); the NI of a quad, of the loader and of Deogen as Deogen, and ports and links as unowned (DEDUCED, log entry 12). -/
def State.niOwner (s : State) (n : Nat) : Nat :=
  let (r, j) := (n / 4, n % 4)
  let core (c : Nat) : Nat :=
    if s.ownCore c = 10 then ((FMap.get (fun _ => none) (s.cores.map (fun x => (x.1, x.2.task))) c).map (fun t => t.fn + 1)).getD 15
    else s.ownCore c
  if j = 0 then s.ownChain r
  else if j = 1 then core r
  else if j = 2 then
    if r < 16 then s.ownChain (64 + r)
    else if r < 24 then core (48 + r)
    else if r < 56 then s.ownSagger ((r - 24) / 2)
    else if r < 60 then 15
    else 0
  else if r < 16 then 0
  else if r < 48 then 15
  else (r - 48) / 2 + 1

/-- The source and the owner code that a fault-log entry gives a BAR0 offset (R472, DEDUCED, log entry 11). -/
def State.resource (s : State) (off : Nat) : Nat × Nat :=
  if off < 0x10000 then (860, 15)
  else if off < 0x1C000 then
    let f := (off - 0x10000) / 0x1000
    (if (off - 0x10000) % 0x1000 < 0x100 then 832 + 2 * f else 833 + 2 * f, f + 1)
  else if off < 0x20000 then (860, 15)
  else if off < 0x30000 then (865, (off - 0x20000) / 0x1000 + 1)
  else if off < 0x40000 then (861, 15)
  else if off < 0x100000 then (856, 15)
  else if off < 0x200000 then
    let q := (off - 0x100000) / 0x10000
    let x := (off - 0x100000) % 0x10000
    if x < 0x80 then (448 + 8 * q + 2 * (x / 0x20), s.ownChan (4 * q + x / 0x20))
    else if 0x200 ≤ x ∧ x < 0x300 then (728 + q, s.ownCab (8 * q + (x - 0x200) / 0x20))
    else if 0x600 ≤ x ∧ x < 0x700 then (728 + q, s.ownDac q)
    else if 0x1840 ≤ x ∧ x < 0x18C0 then
      (449 + 8 * q + 2 * ((x - 0x1840) / 0x20), s.ownChan (4 * q + (x - 0x1840) / 0x20))
    else (728 + q, 15)
  else if off < 0x300000 then (648 + (off - 0x200000) / 0x1000, s.ownChain ((off - 0x200000) / 0x1000))
  else if off < 0x400000 then (576 + (off - 0x300000) / 0x1000, s.ownCore ((off - 0x300000) / 0x1000))
  else if off < 0x500000 then
    let x := off - 0x400000
    if x < 0x1000 then (862, 15)
    else if x < 0x2000 then (760 + (x - 0x1000) / 0x40, 15)
    else (760 + (x - 0x2000) / 0x80, if x < 0x4000 then s.niOwner ((x - 0x2000) / 0x20) else 15)
  else if off < 0x510000 then (859, 15)
  else if off < 0x520000 then (744 + (off - 0x510000) / 0x1000, s.ownSagger ((off - 0x510000) / 0x1000))
  else if off < 0x600000 then (859, 15)
  else if off < 0x60E000 then
    let b := (off - 0x600000) / 0x1000
    let x := (off - 0x600000) % 0x1000
    if 0x80 ≤ x ∧ x < 0x100 then (32 * b + (x - 0x80) / 4, s.ownPin (32 * b + (x - 0x80) / 4)) else (860, 15)
  else if off < 0x700000 then (860, 15)
  else if off < 0x800000 then (857, 15)
  else if off < 0x801000 then (828, 15)
  else if off < 0x1000000 then
    let k := (off - 0x801000) / 0x40
    (830, if k < 256 then s.fld (Regs.capStrStatus k) Regs.capStrStatus_OWNER else 15)
  else (831, ((s.mem.segs.find? (fun x => x.1 == (off - 0x1000000) / 16)).map (·.2.owner)).getD 15)

/-- A read completes with Completer Abort, which reaches the host's AER handling where the function's Completer Abort Error Mask
is clear (R424, R470). -/
def State.abortRead (s : State) (f : Nat) : State :=
  let t := s.emit (.completerAbort f)
  if (FMap.get (fun _ => idleFn) s.fns f).aerMask then t else t.emit (.aer f)

/-- An access through BAR0 that the rules forbid (R470): a write is dropped and a read completes with Completer Abort;
it is logged, and raises BAR0_VIOLATION. `code` is 1 for an owner rule and 2 for an access form (R474). -/
def State.violation (s : State) (f off : Nat) (write : Bool) (data : Nat) (code : Nat := 1) (be : Nat := 15)
    (res : Option Nat := none) : State :=
  let t := if write then s else s.abortRead f
  let (src, own) := s.resource off
  let info := flag write + 2 * be
  t.report ⟨1, f + 1, res.getD own, src, off, (if write then data else 0), code, info, s.time.tick⟩ 860 1
    [off, if write then data else 0, code * 0x100 + info] (f + 1)

/-- Whether Deogen runs from ROM alone (R525). -/
def State.romAlone (s : State) : Bool :=
  s.bit Regs.bootStatus Regs.bootStatus_READY && s.fld Regs.fwStatus Regs.fwStatus_RUNNING == 0

/-- Whether Deogen works: not once no two of its lanes agree (R521). -/
def State.deogen (s : State) : Bool := !s.bit Regs.bootStatus Regs.bootStatus_DEOGEN_FAIL

/-- Whether the boot flash is at work for the loader or an installation (R156). -/
def State.flashBusy (s : State) : Bool := s.loader.op.isSome || s.loader.load.any (fun l => !l.host)

/-- A write that only some functions may make: a violation from any other. -/
def State.allowed (s : State) (ok : Bool) (f off : Nat) (v : Word) (t : State) : State :=
  if ok then t else s.violation f off true v.toNat

/-- Whether host accesses reach the registers: the device is out of reset and not hidden by a warm reset (R513). -/
def State.open_ (s : State) : Bool := !s.boot.held && !s.boot.warm

/-- A write by a host function: dropped while the registers are hidden (R513). -/
def State.hostWrite (s : State) (t : State) : Result := .next (if s.open_ then t else s)

/-- A read by a host function: 0 while the registers are hidden (R513). -/
def State.hostRead (s : State) (f : Nat) (t : State) : Result := .next (if s.open_ then t else s.emit (.readData f 0))

/-- R467: the owner of the resource, or F0 where it is unowned. -/
def ownerMay (f own : Nat) : Bool := own == f + 1 || (own == 15 && f == 0)

/-! ### Time -/

/-- TICK_DIV in force (R32). -/
def State.tickDiv (s : State) : Nat := s.cur Regs.tickCtrl Regs.tickCtrl_TICK_DIV

/-- A capture stream that is not in use. -/
def idleCap : CapSt := ⟨0, 0, 0, [], 0, false, none, none, false, false, none⟩

/-- Capture stream `k`. -/
def State.cap (s : State) (k : Nat) : CapSt := FMap.get (fun _ => idleCap) s.mem.caps k

/-- Capture stream `k`, replaced. -/
def State.setCap (s : State) (k : Nat) (x : CapSt) : State :=
  { s with mem := { s.mem with caps := FMap.set (fun _ => idleCap) s.mem.caps k x } }

/-- The sub-tick periods of the present tick (R29). -/
def State.tickLength (s : State) : Nat := 20 * s.tickDiv

/-- The instant of the boundary that began the present tick. -/
def State.tickStart (s : State) : Nat := s.time.now - s.time.sub

/-- Whether ticks run (R31). -/
def State.ticking (s : State) : Bool := s.time.clock == .running

/-- The graphs that are admitted and not yet stopped; the bisque service is none of them (R265). -/
def State.graphs (s : State) : List Graph := s.wheel.graphs.filter (fun g => g.phase ≠ .stopped)

/-- Whether the clocks of the quads, the DSP clusters and the saggers run: a thermal trip stops them (R579). -/
def State.clocked (s : State) : Bool := !s.boot.trip

/-- Whether a part's clock has come to an instant that it counts to (R579). -/
def State.come (s : State) (at_ : Nat) : Bool := s.clocked && decide (at_ ≤ s.time.now)

/-! ### The boot flash (R153, R518) -/

/-- A byte of the boot flash: one that nothing has programmed reads 0xFF (PRESUMED, log entry 26). -/
def State.flashByte (s : State) (a : Nat) : Byte := FMap.get (fun _ => 0xFF) s.loader.flash a

/-- Bytes of the boot flash. -/
def State.flashBytes (s : State) (a n : Nat) : List Byte := (List.range n).map (fun i => s.flashByte (a + i))

/-- A stretch of the flash erased. -/
def State.eraseFlash (s : State) (a n : Nat) : State :=
  { s with loader := { s.loader with flash := s.loader.flash.filter (fun x => !decide (a ≤ x.1 ∧ x.1 < a + n)) } }

/-- Bytes programmed into the flash. -/
def State.programFlash (s : State) (a : Nat) (bs : List Byte) : State :=
  { s with loader := { s.loader with
      flash := s.loader.flash.filter (fun x => decide (x.1 < a))
        ++ bs.zipIdx.filterMap (fun x => if x.1 = 0xFF then none else some (a + x.2, x.1))
        ++ s.loader.flash.filter (fun x => decide (a + bs.length ≤ x.1)) } }

/-! ### Power -/

/-- A power domain's state: quads 0–15, saggers 16–31, clusters 32–40, HBM 41, PCIe 42, always-on 43 (R17). -/
def powerReset (d : Nat) : Power := if 16 ≤ d ∧ d ≤ 41 then .off else .on

/-- The state of a power domain. -/
def State.powerOf (s : State) (d : Nat) : Power := FMap.get powerReset s.power d

/-- A power domain set. -/
def State.setPower (s : State) (d : Nat) (p : Power) : State := { s with power := FMap.set powerReset s.power d p }

end Sys2Proof.Machine
end

