-- ==== Sys2Proof/Machine/ConfigSpace.lean ====
section
/-! DEFINITION. The endpoint's configuration space (14_host_interface.md, R420–R422): what a function says of itself, and its BARs. No command
reads it; BAR2, Bus Master Enable, MSI-X Enable, the power state and the Completer Abort Error Mask are the parts of it that commands
meet. -/

namespace Sys2Proof.Machine

open Regs

/-- The identity in a function's configuration header (R421). -/
structure HeaderIds where
  vendor : Nat
  device : Nat
  classCode : Nat
  revision : Nat
  subVendor : Nat
  subSystem : Nat
  interruptPin : Nat
  deriving DecidableEq, Repr

/-- The Device ID of F0 (R421). -/
def Part.deviceId : Part → Nat | .ka3216C => 0x3216 | _ => 0x6416

/-- The VF Device ID in F0's SR-IOV capability, which is that of every VF (R421). -/
def Part.vfDeviceId (p : Part) : Nat := p.deviceId + 1

/-- The header of function `f` (R420, R421): a VF's Vendor ID and Device ID read 0xFFFF; a Subsystem ID that the OTP leaves blank reads 0. -/
def State.headerIds (s : State) (f : Nat) : HeaderIds :=
  { vendor := if f = 0 then 0x1DC7 else 0xFFFF
    device := if f = 0 then s.part.deviceId else 0xFFFF
    classCode := 0x118000
    revision := s.part.revision % 0x100
    subVendor := s.cal.otp.subVendor
    subSystem := s.cal.otp.subSystem
    interruptPin := 0 }

/-- A base address register (R422): its number, bytes, and whether it is prefetchable; each is a 64-bit memory BAR. -/
structure Bar where
  number : Nat
  bytes : Nat
  prefetch : Bool
  deriving DecidableEq, Repr

/-- The BARs of every function (R422): BAR2 only where BAR2_EN was high at the release of PERST_N. -/
def State.bars (s : State) : List Bar := ⟨0, 0x2000000, false⟩ :: (if s.boot.bar2 then [⟨2, 0x800000000, true⟩] else [])

/-- What R420 lets a host find in configuration space: rates in units of 0.1 GT/s, link widths, sizes in bytes, tags, latencies in µs, and
the capabilities that are there and that are absent. -/
structure Features where
  rates : List Nat
  widths : List Nat
  maxPayload : Nat
  maxReadRequest : Nat
  tagBits : Nat
  outstanding : Nat
  scaledFlow : Bool
  aspmL1 : Bool
  aspmL1Exit : Nat × Nat
  aspmL0s : Bool
  l1Substates : Bool
  powerStates : List String
  aer : Bool
  aerHeaderLog : Bool
  aerPrefixLog : Bool
  ecrc : Bool
  totalVfs : Nat
  initialVfs : Nat
  firstVfOffset : Nat
  vfStride : Nat
  ari : Bool
  flr : Bool
  msixVectors : Nat
  completionRanges : List String
  completionDisable : Bool
  absent : List String
  deriving DecidableEq, Repr

/-- The options of the endpoint (R420). -/
def features : Features :=
  { rates := [25, 50, 80, 160, 320], widths := [16, 8, 4, 2, 1], maxPayload := 512, maxReadRequest := 4096, tagBits := 10, outstanding := 512,
    scaledFlow := true, aspmL1 := true, aspmL1Exit := (4, 8), aspmL0s := false, l1Substates := false, powerStates := ["D0", "D3hot"],
    aer := true, aerHeaderLog := true, aerPrefixLog := false, ecrc := true, totalVfs := 7, initialVfs := 7, firstVfOffset := 1, vfStride := 1,
    ari := true, flr := true, msixVectors := 64, completionRanges := ["A", "B", "C", "D"], completionDisable := true,
    absent := ["MSI", "INTx", "ATS", "PRI", "PASID", "TPH", "LTR", "PTM", "Resizable BAR"] }

/-- The balls of the straps read at a rise of PERST_N (R422, R573): BPOS1 and BPOS0 become POS of BOARD, and BAR2_EN decides on BAR2. -/
def State.readStraps (s : State) : State :=
  let t := s.setFld board board_POS (s.boot.straps % 4)
  { t with boot := { t.boot with bar2 := bitOf s.boot.straps 2 == 1 } }

end Sys2Proof.Machine
end

