-- ==== Sys2Proof/Machine/Crypto.lean ====
section
/-! DEFINITION. The cryptography that R339, R340 and R522 name: AES-256, its CMAC, the counter-mode KDF and GCM. The spec
names the standards and does not print them; the algorithms are those of FIPS 197 and of NIST SP 800-38B, 800-38D and
800-108 (PRESUMED, log entry 25). Blocks are lists of 16 byte values. -/

namespace Sys2Proof.Machine.Crypto

/-- The substitution box of AES. -/
def sbox : List Nat :=
  [0x63, 0x7C, 0x77, 0x7B, 0xF2, 0x6B, 0x6F, 0xC5, 0x30, 0x01, 0x67, 0x2B, 0xFE, 0xD7, 0xAB, 0x76] ++
  [0xCA, 0x82, 0xC9, 0x7D, 0xFA, 0x59, 0x47, 0xF0, 0xAD, 0xD4, 0xA2, 0xAF, 0x9C, 0xA4, 0x72, 0xC0] ++
  [0xB7, 0xFD, 0x93, 0x26, 0x36, 0x3F, 0xF7, 0xCC, 0x34, 0xA5, 0xE5, 0xF1, 0x71, 0xD8, 0x31, 0x15] ++
  [0x04, 0xC7, 0x23, 0xC3, 0x18, 0x96, 0x05, 0x9A, 0x07, 0x12, 0x80, 0xE2, 0xEB, 0x27, 0xB2, 0x75] ++
  [0x09, 0x83, 0x2C, 0x1A, 0x1B, 0x6E, 0x5A, 0xA0, 0x52, 0x3B, 0xD6, 0xB3, 0x29, 0xE3, 0x2F, 0x84] ++
  [0x53, 0xD1, 0x00, 0xED, 0x20, 0xFC, 0xB1, 0x5B, 0x6A, 0xCB, 0xBE, 0x39, 0x4A, 0x4C, 0x58, 0xCF] ++
  [0xD0, 0xEF, 0xAA, 0xFB, 0x43, 0x4D, 0x33, 0x85, 0x45, 0xF9, 0x02, 0x7F, 0x50, 0x3C, 0x9F, 0xA8] ++
  [0x51, 0xA3, 0x40, 0x8F, 0x92, 0x9D, 0x38, 0xF5, 0xBC, 0xB6, 0xDA, 0x21, 0x10, 0xFF, 0xF3, 0xD2] ++
  [0xCD, 0x0C, 0x13, 0xEC, 0x5F, 0x97, 0x44, 0x17, 0xC4, 0xA7, 0x7E, 0x3D, 0x64, 0x5D, 0x19, 0x73] ++
  [0x60, 0x81, 0x4F, 0xDC, 0x22, 0x2A, 0x90, 0x88, 0x46, 0xEE, 0xB8, 0x14, 0xDE, 0x5E, 0x0B, 0xDB] ++
  [0xE0, 0x32, 0x3A, 0x0A, 0x49, 0x06, 0x24, 0x5C, 0xC2, 0xD3, 0xAC, 0x62, 0x91, 0x95, 0xE4, 0x79] ++
  [0xE7, 0xC8, 0x37, 0x6D, 0x8D, 0xD5, 0x4E, 0xA9, 0x6C, 0x56, 0xF4, 0xEA, 0x65, 0x7A, 0xAE, 0x08] ++
  [0xBA, 0x78, 0x25, 0x2E, 0x1C, 0xA6, 0xB4, 0xC6, 0xE8, 0xDD, 0x74, 0x1F, 0x4B, 0xBD, 0x8B, 0x8A] ++
  [0x70, 0x3E, 0xB5, 0x66, 0x48, 0x03, 0xF6, 0x0E, 0x61, 0x35, 0x57, 0xB9, 0x86, 0xC1, 0x1D, 0x9E] ++
  [0xE1, 0xF8, 0x98, 0x11, 0x69, 0xD9, 0x8E, 0x94, 0x9B, 0x1E, 0x87, 0xE9, 0xCE, 0x55, 0x28, 0xDF] ++
  [0x8C, 0xA1, 0x89, 0x0D, 0xBF, 0xE6, 0x42, 0x68, 0x41, 0x99, 0x2D, 0x0F, 0xB0, 0x54, 0xBB, 0x16]

/-- One byte substituted. -/
def sub (x : Nat) : Nat := sbox.getD x 0

/-- Multiplication by x in GF(2⁸). -/
def xtime (x : Nat) : Nat := if x < 128 then 2 * x else (2 * x - 256) ^^^ 0x1B

/-- Exclusive or, byte by byte. -/
def xorB (a b : List Nat) : List Nat := List.zipWith (· ^^^ ·) a b

/-- The words of the key schedule, newest first; `i` is the index of the next word. -/
def schedule : Nat → Nat → Nat → List (List Nat) → List (List Nat)
  | 0, _, _, ws => ws
  | n + 1, i, rc, ws =>
    let t := ws.headD []
    let u := if i % 8 = 0 then xorB ((t.drop 1 ++ t.take 1).map sub) [rc, 0, 0, 0]
      else if i % 8 = 4 then t.map sub else t
    schedule n (i + 1) (if i % 8 = 0 then xtime rc else rc) (xorB (ws.getD 7 []) u :: ws)

/-- A list cut into pieces of `k`, at most `n` of them. -/
def chunks (k : Nat) : Nat → List Nat → List (List Nat)
  | 0, _ => []
  | n + 1, l => if l.isEmpty then [] else l.take k :: chunks k n (l.drop k)

/-- The 15 round keys of a 256-bit key. -/
def roundKeys (key : List Nat) : List (List Nat) :=
  chunks 16 15 ((schedule 52 8 1 (chunks 4 8 key).reverse).reverse.flatten)

/-- ShiftRows: byte `r` of column `c` comes from column c + r. -/
def shiftRows (b : List Nat) : List Nat := (List.range 16).map (fun i => b.getD ((i + 4 * (i % 4)) % 16) 0)

/-- MixColumns of one column. -/
def mixColumn (c : List Nat) : List Nat :=
  let a (i : Nat) := c.getD (i % 4) 0
  (List.range 4).map (fun i => xtime (a i) ^^^ xtime (a (i + 1)) ^^^ a (i + 1) ^^^ a (i + 2) ^^^ a (i + 3))

/-- The rounds of AES over the round keys that remain. -/
def rounds : List (List Nat) → List Nat → List Nat
  | [], b => b
  | [k], b => xorB (shiftRows (b.map sub)) k
  | k :: ks, b => rounds ks (xorB (((chunks 4 4 (shiftRows (b.map sub))).map mixColumn).flatten) k)

/-- One block encrypted under round keys. -/
def aes (ks : List (List Nat)) (b : List Nat) : List Nat := rounds ks.tail (xorB b (ks.headD []))

/-- A block as a number, most significant byte first. -/
def toNum (b : List Nat) : Nat := b.foldl (fun n x => 256 * n + x) 0

/-- A number as `n` bytes, most significant first. -/
def ofNum (n x : Nat) : List Nat := (List.range n).map (fun i => x / 256 ^ (n - 1 - i) % 256)

/-- Doubling in the field of CMAC. -/
def dbl (x : Nat) : Nat := if x < 2 ^ 127 then 2 * x else (2 * x - 2 ^ 128) ^^^ 0x87

/-- CMAC over the blocks that remain. -/
def cmacGo (ks : List (List Nat)) (k1 k2 : List Nat) : Nat → List Nat → List Nat → List Nat
  | 0, _, acc => acc
  | n + 1, m, acc =>
    if 16 < m.length then cmacGo ks k1 k2 n (m.drop 16) (aes ks (xorB acc (m.take 16)))
    else if m.length = 16 then aes ks (xorB acc (xorB m k1))
    else aes ks (xorB acc (xorB (m ++ 0x80 :: List.replicate (15 - m.length) 0) k2))

/-- AES-256-CMAC. -/
def cmac (key m : List Nat) : List Nat :=
  let ks := roundKeys key
  let l := toNum (aes ks (List.replicate 16 0))
  cmacGo ks (ofNum 16 (dbl l)) (ofNum 16 (dbl (dbl l))) (m.length / 16 + 1) m (List.replicate 16 0)

/-- The KDF of R339 under a label. -/
def kdf (label key : List Nat) (e : Nat) (nonce : List Nat) : List Nat :=
  let fixed := label ++ 0 :: nonce ++ ofNum 4 e ++ ofNum 4 256
  cmac key (1 :: fixed) ++ cmac key (2 :: fixed)

/-- The ASCII bytes KRPT-CFG (R339). -/
def labelCfg : List Nat := [0x4B, 0x52, 0x50, 0x54, 0x2D, 0x43, 0x46, 0x47]

/-- The ASCII bytes KRPT-FWA (R522). -/
def labelFw : List Nat := [0x4B, 0x52, 0x50, 0x54, 0x2D, 0x46, 0x57, 0x41]

/-- The product of GHASH: bit 127 of `x` first. -/
def ghashMul : Nat → Nat → Nat → Nat → Nat
  | 0, _, _, z => z
  | n + 1, x, v, z =>
    ghashMul n x (if v % 2 = 0 then v / 2 else (v / 2) ^^^ (0xE1 * 2 ^ 120)) (if bitOf x n = 1 then z ^^^ v else z)

/-- Blocks absorbed by GHASH, the last filled with zeros. -/
def ghash (h : Nat) (y : Nat) (m : List Nat) : Nat :=
  (chunks 16 (m.length / 16 + 1) m).foldl (fun y b => ghashMul 128 (y ^^^ toNum (b ++ List.replicate (16 - b.length) 0)) h 0) y

/-- Data under the key stream of GCM from counter `c` on (the first block of data has counter 2). -/
def gcmStream (key iv : List Nat) (c : Nat) (m : List Nat) : List Nat :=
  let ks := roundKeys key
  ((chunks 16 (m.length / 16 + 1) m).zipIdx.map (fun x => xorB x.1 (aes ks (iv ++ ofNum 4 (c + x.2))))).flatten

/-- The tag of GCM over authenticated data and ciphertext. -/
def gcmTag (key iv aad cipher : List Nat) : List Nat :=
  let ks := roundKeys key
  let h := toNum (aes ks (List.replicate 16 0))
  let y := ghash h (ghash h 0 aad) cipher
  let y := ghashMul 128 (y ^^^ (aad.length * 8 * 2 ^ 64 + cipher.length * 8)) h 0
  xorB (ofNum 16 y) (aes ks (iv ++ ofNum 4 1))

end Sys2Proof.Machine.Crypto
end

