-- ==== Sys2Proof/Machine/Tiles.lean ====
section
/-! DEFINITION. The tiles of a sagger: product terms, macrocells, carry chains, distributed RAM and routing, as the configuration cells
set them (10_logic_fabric.md, R297–R306, R310). -/

namespace Sys2Proof.Machine

open Config (Cell Sig)

/-- What a design is evaluated over: its configuration bits, the signals at its ports, its flip-flops, routing registers and RAM, and
the signals that nothing settles. -/
structure Fab where
  cfg : Cell → Bool
  port : Nat → Bool
  ff : Nat → Nat → Bool
  rr : Nat → Nat → Bool
  ram : Nat → Nat → Nat → Bool
  free : Sig → Bool

/-- A number held in configuration bits, least significant first. -/
def Fab.num (f : Fab) (c : Nat → Cell) (w : Nat) : Nat :=
  (List.range w).foldl (fun n b => n + if f.cfg (c b) then 2 ^ b else 0) 0

/-! ### Routing (R305, R306) -/

/-- The tile in which a signal is taken. -/
def tileOf : Sig → Nat
  | .port _ => 0
  | .input t _ => t
  | .mac t _ => t
  | .carry t _ => t
  | .wire t _ _ _ => t
  | .point t _ => t

/-- Whether a wire that starts in tile `a` passes tile `b` (R297, R305): along its row or its column, at most its length away. -/
def wireReaches (a dir span b : Nat) : Bool :=
  let far (x y : Nat) : Nat := max x y - min x y
  decide (a < 128 ∧ b < 128) && (span == 1 || span == 4)
    && (if dir = 0 then a % 8 == b % 8 && decide (far (a / 8) (b / 8) ≤ span)
        else dir == 1 && a / 8 == b / 8 && decide (far (a % 8) (b % 8) ≤ span))

/-- Whether a multiplexer can have a signal among its inputs: a wire must pass its tile; carries and tile inputs are no wires. -/
def canTake (at_ : Sig) : Sig → Bool
  | .port _ => true
  | .mac t m => decide (t < 128 ∧ m < 16)
  | .point t r => decide (t < 128 ∧ r < 64)
  | .wire t d n _ => wireReaches t d n (tileOf at_)
  | .input _ _ => false
  | .carry _ _ => false

/-- A multiplexer: the input that its select code names, or 0 where it has none at that code (R305). Code 0 has none (R333). -/
def muxOf (v : Sig → Bool) (at_ : Sig) (code : Nat) : Bool :=
  if code = 0 then false
  else match Config.muxInput at_ code with
    | some x => canTake at_ x && v x
    | none => false

/-! ### Product terms and macrocells (R298–R300) -/

/-- A product term: the AND of the literals chosen. -/
def Fab.term (f : Fab) (v : Sig → Bool) (t bank i : Nat) : Bool :=
  (List.range 96).all (fun l => !f.cfg (.literal t bank i l) || (if l < 48 then v (.input t l) else !v (.input t (l - 48))))

/-- The OR of a macrocell's four private terms. -/
def Fab.privateSum (f : Fab) (v : Sig → Bool) (t m : Nat) : Bool :=
  (List.range 4).any (fun j => f.cfg (.privateUsed t (4 * m + j)) && f.term v t 0 (4 * m + j))

/-- The OR of a macrocell's four shared selections. -/
def Fab.sharedSum (f : Fab) (v : Sig → Bool) (t m : Nat) : Bool :=
  (List.range 4).any (fun j => f.cfg (.sharedUsed t m j) && f.term v t 1 (f.num (.sharedSel t m j) 5))

/-- The other macrocell of a pair (R299). -/
def partner (m : Nat) : Nat := if m % 2 = 0 then m + 1 else m - 1

/-- Whether a macrocell is in ADD mode, in an A-tile (R302). -/
def Fab.adds (f : Fab) (t m : Nat) : Bool := decide (t < 96) && f.cfg (.add t m)

/-- Whether a macrocell borrows its partner's terms; not in ADD mode, nor from it (R299, R302). -/
def Fab.borrows (f : Fab) (t m : Nat) : Bool := f.cfg (.borrow t m) && !f.adds t m && !f.adds t (partner m)

/-- Whether a macrocell lends its terms. -/
def Fab.lends (f : Fab) (t m : Nat) : Bool := f.borrows t (partner m)

/-- The carry into a macrocell: from the one below it in its column, or as the image selects for the first of a chain (R302). -/
def Fab.carryIn (f : Fab) (v : Sig → Bool) (t m : Nat) : Bool :=
  match f.num (.carrySel t m) 2 with
  | 1 => false
  | 2 => true
  | 3 => v (.input t (f.num (.carryInput t m) 6))
  | _ => if 0 < m then v (.carry t (m - 1)) else if t % 8 ≠ 0 then v (.carry (t - 1) 15) else false

/-- A macrocell's sum: of its terms, with its partner's where it borrows; in ADD mode that of R302; none where it lends. -/
def Fab.sum (f : Fab) (v : Sig → Bool) (t m : Nat) : Bool :=
  let own (m : Nat) : Bool := f.privateSum v t m || f.sharedSum v t m
  if f.adds t m then xor (xor (f.privateSum v t m) (f.sharedSum v t m)) (f.carryIn v t m)
  else if f.lends t m then false
  else own m || (f.borrows t m && own (partner m))

/-- The carry out of a macrocell (R302). -/
def Fab.carryOut (f : Fab) (v : Sig → Bool) (t m : Nat) : Bool :=
  let (a, b) := (f.privateSum v t m, f.sharedSum v t m)
  f.adds t m && ((a && b) || (f.carryIn v t m && xor a b))

/-! ### Distributed RAM (R303) -/

/-- Whether a macrocell is a RAM, in an M-tile. -/
def Fab.isRam (f : Fab) (t m : Nat) : Bool := decide (96 ≤ t) && f.cfg (.ram t m)

/-- An address taken from six tile inputs. -/
def Fab.address (f : Fab) (v : Sig → Bool) (t : Nat) (c : Nat → Nat → Cell) : Nat :=
  (List.range 6).foldl (fun n i => n + if v (.input t (f.num (c i) 6)) then 2 ^ i else 0) 0

/-- The write address of a tile's RAMs. -/
def Fab.writeAddr (f : Fab) (v : Sig → Bool) (t : Nat) : Nat := f.address v t (.writeAddr t)

/-- The read data of a RAM, from the write address or the second one. -/
def Fab.read (f : Fab) (v : Sig → Bool) (t m : Nat) : Bool :=
  f.ram t m (if f.cfg (.readUsed t) then f.address v t (.readAddr t) else f.writeAddr v t)

/-- The write enable of a tile's RAMs: a control term or a tile input. -/
def Fab.writes (f : Fab) (v : Sig → Bool) (t : Nat) : Bool :=
  if f.cfg (.enableTerm t) then f.term v t 2 (f.num (.writeEnable t) 3) else v (.input t (f.num (.writeEnable t) 6))

/-! ### Signals -/

/-- A macrocell's output (R300, R304). -/
def Fab.out (f : Fab) (v : Sig → Bool) (t m : Nat) : Bool :=
  if f.cfg (.registered t m) then f.ff t m else if f.isRam t m then f.read v t m else xor (f.sum v t m) (f.cfg (.invert t m))

/-- The value of a signal, through at most `n` steps; a loop without a register has none that the spec states. -/
def Fab.value (f : Fab) : Nat → Sig → Bool
  | 0, x => f.free x
  | n + 1, x =>
    let v := f.value n
    match x with
    | .port i => f.port i
    | .input t k => decide (k < 48) && muxOf v (.input t k) (f.num (.inputSel t k) 16)
    | .mac t m => f.out v t m
    | .carry t m => f.carryOut v t m
    | .wire t d l i => muxOf v (.wire t d l i) (f.num (.wireSel t d l i) 16)
    | .point t r => if f.cfg (.pointUsed t r) then f.rr t r else muxOf v (.point t r) (f.num (.pointSel t r) 16)

/-- The value of a signal. -/
def Fab.at_ (f : Fab) : Sig → Bool := f.value 1000000

/-! ### A clock edge (R300, R301, R303, R306) -/

/-- The data of a macrocell's flip-flop: its sum, a RAM's read data, or a lender's tile input. -/
def Fab.data (f : Fab) (t m : Nat) : Bool :=
  if f.isRam t m then f.read f.at_ t m
  else if f.lends t m then f.at_ (.input t (f.num (.lent t m) 6)) else f.sum f.at_ t m

/-- A flip-flop after an edge of some nets. Where its set or reset is asked while its clock enable is 0 the spec names neither as the
stronger: its value is open (DESIGN CHOICE, log entry 77). -/
def Fab.nextFf (f : Fab) (nets : List Nat) (t m : Nat) : Bool :=
  if !nets.contains (f.num (.clock t m) 2) then f.ff t m
  else
    let on := !f.cfg (.enableUsed t m) || f.term f.at_ t 2 (f.num (.enableSel t m) 3)
    let set := f.cfg (.setUsed t m) && f.term f.at_ t 2 (f.num (.setSel t m) 3)
    if set then (if on then f.cfg (.setValue t m) else f.free (.mac t m)) else if on then f.data t m else f.ff t m

/-- A routing register after an edge. -/
def Fab.nextRr (f : Fab) (nets : List Nat) (t r : Nat) : Bool :=
  if f.cfg (.pointUsed t r) && nets.contains (f.num (.pointClock t r) 2) then
    muxOf f.at_ (.point t r) (f.num (.pointSel t r) 16)
  else f.rr t r

/-- A RAM bit after an edge, where writes are not blocked (R304). -/
def Fab.nextRam (f : Fab) (nets : List Nat) (t m a : Nat) : Bool :=
  if f.isRam t m && nets.contains (f.num (.clock t m) 2) && f.writes f.at_ t && f.writeAddr f.at_ t == a then f.sum f.at_ t m
  else f.ram t m a

end Sys2Proof.Machine
end

