-- ==== Sys2Proof/Machine/Cosine.lean ====
section
/-! DEFINITION. The cosine and the sine of a phase, and roundings that the spec leaves open (R79, R163, R164). -/

namespace Sys2Proof.Machine

/-- π × 2¹⁰⁰. -/
def piFix : Nat := 3982441812995697363688351113952

/-- The cosine series from its `n`-th term on, with 100 fraction bits: `t` is the term before it. -/
def cosSeries (x2 : Int) : Nat → Nat → Int → Int
  | 0, _, _ => 0
  | k + 1, n, t =>
    let u := -((t * x2) / (2 ^ 100 * ((2 * n - 1) * (2 * n))))
    u + cosSeries x2 k (n + 1) u

/-- cos(2π p / 2³²) × 2¹⁰⁰ for `p` up to a quarter turn, 2³⁰; exact where the cosine is a whole number. -/
def cosFixQuarter (p : Nat) : Int :=
  if 0x40000000 ≤ p then 0
  else
    let x : Int := piFix * p * 2 / 2 ^ 32
    2 ^ 100 + cosSeries (x * x / 2 ^ 100) 17 1 (2 ^ 100)

/-- cos(2π p / 2³²) × 2¹⁰⁰ for a 32-bit phase. -/
def cosFix (p : Nat) : Int :=
  let p := p % 0x100000000
  if p ≤ 0x40000000 then cosFixQuarter p
  else if p ≤ 0x80000000 then -cosFixQuarter (0x80000000 - p)
  else if p ≤ 0xC0000000 then -cosFixQuarter (p - 0x80000000)
  else cosFixQuarter (0x100000000 - p)

/-- sin(2π p / 2³²) × 2¹⁰⁰ for a 32-bit phase. -/
def sinFix (p : Nat) : Int := cosFix (p + 0xC0000000)

/-- The quotient `n / d` as one of the two whole numbers beside it, where the spec does not say which; exact where it is one (DESIGN CHOICE,
log entry 49). -/
def openRound (n : Int) (d : Nat) : Int := if n % d = 0 then n / d else n / d + if Config.roundUp n d then 1 else 0

/-- The largest number within `hi` whose 20th power is at most `x`, found by halving between two bounds. -/
def root20 (x : Nat) : Nat → Nat → Nat → Nat
  | lo, _, 0 => lo
  | lo, hi, n + 1 =>
    let m := (lo + hi + 1) / 2
    if m ^ 20 ≤ x then root20 x m hi n else root20 x lo (m - 1) n

/-- 10^(G/20) × 10¹², cut to a whole number: the gain of a PGA setting of `g` dB (R53). -/
def decibels (g : Nat) : Nat := root20 (10 ^ (240 + g)) 0 (10 ^ 14) 47

end Sys2Proof.Machine
end

