-- ==== Sys2Proof/Machine/Time.lean ====
section
/-! DEFINITION. Tick, clocks and synchronisation (02_tick_and_time.md, R29–R52), but the boundary itself, which every
family has a part in (Boundary.lean). -/

namespace Sys2Proof.Machine

open Regs

/-- SYSTEM_PLL_LOCK (R31): the PLLs lock, and the first boundary falls 40 ns later. -/
def execSystemPllLock (s : State) : Result :=
  .next (s.onlyIf (s.time.clock == .held && !s.boot.held)
    (let t := (s.setFld timeStatus timeStatus_SYS_LOCK 1).setFld timeStatus timeStatus_QUADS_LOCKED 1
     let t := (t.setFld timeStatus timeStatus_REF_PRESENT 1).setFld qpllLock qpllLock_LOCK (2 ^ s.part.quads - 1)
     { t with time := { t.time with clock := .locked (s.time.now + 80) } }))

/-- Why R32 refuses a TICK_DIV. -/
def State.badTickDiv (s : State) (d : Nat) : Bool :=
  decide (d < 100 ∨ 1000000 < d ∨ d % 4 ≠ 0) || !s.graphs.isEmpty

/-- A write of TICK_CTRL (R32, R34). -/
def State.writeTickCtrl (s : State) (f : Nat) (v : Word) : State :=
  s.allowed (f == 0) f tickCtrl v
    (let d := tickCtrl_TICK_DIV.get v
     if s.badTickDiv d then (s.setFlag timeStatus timeStatus_DIV_REFUSED).raise 856 1 [d]
     else s.writeReg tickCtrl tickCtrlDesc v)

/-- TICK_DIV_WRITE (R32). -/
def execTickDivWrite (f : Nat) (v : Word) (s : State) : Result := s.hostWrite (s.writeTickCtrl f v)

/-- The latches of R36, taken for the reading function. -/
def State.latchTime (s : State) (f : Nat) : State :=
  { s with time := { s.time with
      latHi := FMap.set (fun _ => 0) s.time.latHi f (BitVec.ofNat 32 (s.time.tick / 0x100000000))
      latSub := FMap.set (fun _ => 0) s.time.latSub f (BitVec.ofNat 32 s.time.sub) } }

/-- TICK_LO_READ (R36): the tick's lower half is returned and the rest latched for the reader. -/
def execTickLoRead (f : Nat) (s : State) : Result :=
  s.hostRead f ((s.latchTime f).emit (.readData f (BitVec.ofNat 32 s.time.tick)))

/-- A write of SYNC_CTRL (R34, R43). -/
def State.writeSyncCtrl (s : State) (f : Nat) (v : Word) : State :=
  s.allowed (f == 0) f syncCtrl v
    (let m := syncCtrl_MODE.get v
     if m = 3 ∨ (m = 2 ∧ !s.graphs.isEmpty) then (s.setFlag timeStatus timeStatus_ARM_REFUSED).raise 856 3
     else s.writeReg syncCtrl syncCtrlDesc v)

/-- SYNC_CTRL_WRITE (R43). -/
def execSyncCtrlWrite (f : Nat) (v : Word) (s : State) : Result := s.hostWrite (s.writeSyncCtrl f v)

/-- The instant (4 + DELAY) CLKREF periods after the sync edge (R44, R46), which is the first rising CLKREF edge from now on (R42). -/
def State.syncInstant (s : State) : Nat :=
  s.time.now + (20 - s.time.sub % 20) % 20 + (4 + s.fld syncCtrl syncCtrl_DELAY) * 20

/-- An instant to be compared, put in its place. -/
def insertCheck (t0 : Nat) : List (Nat × Option Int) → List (Nat × Option Int)
  | [] => [(t0, none)]
  | x :: xs => if t0 < x.1 then (t0, none) :: x :: xs else x :: insertCheck t0 xs

/-- SYNC_EDGE (R42, R593): ignored, to be compared, or committing a sync reset. -/
def execSyncEdge (s : State) : Result :=
  .next (match s.fld syncCtrl syncCtrl_MODE with
    | 1 => { s with time := { s.time with checks := insertCheck s.syncInstant s.time.checks } }
    | 2 =>
      let t := s.setFld syncCtrl syncCtrl_MODE 1
      { t with time := { t.time with syncs := t.time.syncs ++ [⟨s.syncInstant, s.pair syncLoadLo syncLoadHi⟩] } }
    | _ => s)

/-- The committed sync reset whose forced boundary comes first (R44, R593). -/
def State.nextSync (s : State) : Option SyncReset :=
  s.time.syncs.foldl (fun (b : Option SyncReset) x => match b with
    | none => some x
    | some y => if x.due < y.due then some x else b) none

/-- The instant of the next regular boundary: 40 ns after lock, or a whole tick after the one before; none while the PLL has not
locked (R31). -/
def State.nextRegular (s : State) : Option Nat :=
  match s.time.clock with
  | .held => none
  | .locked a => some (max a s.time.now)
  | .running => some (s.tickStart + s.tickLength)

/-- The sync reset that takes the place of the next regular boundary, or coincides with it (R44). -/
def State.syncFirst (s : State) : Option SyncReset :=
  if s.ticking then (match s.nextSync with
    | some y => if y.due ≤ s.tickStart + s.tickLength then some y else none
    | none => none)
  else none

/-- The instant of the next boundary of either kind. -/
def State.nextInstant (s : State) : Option Nat :=
  match s.syncFirst with
  | some y => some (max y.due s.time.now)
  | none => s.nextRegular

/-- The offset of R46 in CLKREF periods: `p` periods after the boundary before the instant and `n` before the one that follows. -/
def syncOffsetOf (p n : Int) : Int := if p ≤ n then p else -n

/-- The offset of an instant of the present tick from the tick boundary nearest to it, of the regular and the forced ones (R44, R46). An
instant before the first tick boundary has only that one to be compared with (DESIGN CHOICE, log entry 47). -/
def State.offsetAt (s : State) (t0 : Nat) : Int :=
  let from_ (a : Nat) : Int := ((t0 : Int) - a) / 20
  match s.nextInstant with
  | none => 0
  | some b =>
    if !s.ticking then from_ b else syncOffsetOf (from_ s.tickStart) (-from_ b)

/-- The offsets of the instants that the boundary about to come leaves behind (R46). -/
def State.settleChecks (s : State) : State :=
  let b := s.nextInstant
  { s with time := { s.time with checks := s.time.checks.map (fun x =>
      if x.2.isNone && b.any (fun a => decide (x.1 ≤ a)) then (x.1, some (s.offsetAt x.1)) else x) } }

/-- SYNC_OFFSET_CHECK (R46), at the instant to be compared; while the PLL has not locked there is no boundary, and the check waits
(DESIGN CHOICE, log entry 47). -/
def execSyncOffsetCheck (s : State) : Result :=
  .next (match s.time.checks with
    | [] => s
    | (t0, o) :: rest =>
      if s.time.now < t0 ∨ s.nextInstant = none then s
      else
        let o := o.getD (s.offsetAt t0)
        let t := { s with time := { s.time with checks := rest } }
        let t := t.setReg syncOffset (BitVec.ofInt 32 o)
        if o = 0 then t
        else ((t.setFlag timeStatus timeStatus_SYNC_ERR).setFld timeStatus timeStatus_ALIGNED 0).raise 856 4
          [ux 32 o])

/-- CLKREF_LOST (R48): holdover. A system PLL that has never locked has no control word to hold: REF_PRESENT falls and the event is raised,
and nothing else (DESIGN CHOICE, log entry 99). -/
def execClkrefLost (s : State) : Result :=
  .next (if s.bit timeStatus timeStatus_REF_PRESENT then
      let t := s.setFld timeStatus timeStatus_REF_PRESENT 0
      let t := if s.time.clock = .held then t
        else
          let t := (t.setFld timeStatus timeStatus_HOLDOVER 1).setFld timeStatus timeStatus_RELOCKING 0
          let t := (t.setFld timeStatus timeStatus_SYS_LOCK 0).setFld timeStatus timeStatus_ALIGNED 0
          t.setPair holdTickLo holdTickHi s.time.tick
      t.raise 856 5
    else s)

/-- CLKREF_QUALIFIED (R49): the reference passes both tests again, with the offset measured in 0.1 ppm. -/
def execClkrefQualified (ppm : Int) (s : State) : Result :=
  .next ((s.setFld timeStatus timeStatus_REF_PRESENT 1).setReg clkrefPpm (BitVec.ofInt 32 ppm))

/-- A write of REF_CTRL (R34, R49): a RELOCK_GO of 1 counts while RELOCK is HOST and a qualified reference waits. -/
def State.writeRefCtrl (s : State) (f : Nat) (v : Word) : State :=
  s.allowed (f == 0) f refCtrl v
    (let t := s.writeReg refCtrl refCtrlDesc v
     if refCtrl_RELOCK_GO.get v = 1 ∧ refCtrl_RELOCK.get v = 1 ∧ s.bit timeStatus timeStatus_HOLDOVER
        ∧ s.bit timeStatus timeStatus_REF_PRESENT
     then { t with time := { t.time with relockGo := true } } else t)

/-- RELOCK_GO (R49). -/
def execRelockGo (f : Nat) (v : Word) (s : State) : Result := s.hostWrite (s.writeRefCtrl f v)

/-- At a boundary: relock begins where it may (R49). -/
def State.relockStart (s : State) : State :=
  let t := { s with time := { s.time with relockGo := false } }
  if s.bit timeStatus timeStatus_HOLDOVER ∧ s.bit timeStatus timeStatus_REF_PRESENT
      ∧ ¬ s.bit timeStatus timeStatus_RELOCKING ∧ (s.fld refCtrl refCtrl_RELOCK = 0 ∨ s.time.relockGo)
  then t.setFld timeStatus timeStatus_RELOCKING 1 else t

/-- RELOCK_COMPLETE (R50). -/
def execRelockComplete (s : State) : Result :=
  .next (s.onlyIf (s.bit timeStatus timeStatus_RELOCKING)
    (((s.setFld timeStatus timeStatus_RELOCKING 0).setFld timeStatus timeStatus_HOLDOVER 0).setFld timeStatus
      timeStatus_SYS_LOCK 1 |>.raise 856 6))

/-- Whether quad `q`'s PLL is locked. -/
def State.quadLocked (s : State) (q : Nat) : Bool := bitOf (s.reg qpllLock).toNat q == 1

/-- Bit `q` of QPLL_LOCK set, and QUADS_LOCKED with it. -/
def State.setQuadLock (s : State) (q b : Nat) : State :=
  let t := s.setFld qpllLock ⟨q, q⟩ b
  t.setFld timeStatus timeStatus_QUADS_LOCKED (flag ((t.reg qpllLock).toNat == 2 ^ s.part.quads - 1))

/-- Rotation on a quad is held for a moment at least (R102): a run in progress starts again. -/
def State.upset (s : State) (q : Nat) : State := { s with cal := { s.cal with upset := (q :: s.cal.upset).eraseDups } }

/-- QUAD_PLL_UNLOCK (R51): every output of the quad's chains carries S from here on (Chains.lean). R51 speaks of a system PLL that
stays locked; in holdover, where SYS_LOCK is 0, a quad PLL that loses lock is treated alike (DESIGN CHOICE, log entry 48). -/
def execQuadPllUnlock (q : Nat) (s : State) : Result :=
  .next (s.onlyIf (s.hasQuad q && s.quadLocked q) (((s.setQuadLock q 0).upset q).raise (728 + q) 0xD))

/-- QUAD_PLL_RELOCK (R51): the quad's phase divider is aligned at the next boundary, where its chains restart. -/
def execQuadPllRelock (q : Nat) (s : State) : Result :=
  .next (s.onlyIf (s.hasQuad q && !s.quadLocked q && s.time.clock != .held)
    (let t := s.setQuadLock q 1
     { t with time := { t.time with realign := t.time.realign ++ [q] } }))

end Sys2Proof.Machine
end

