-- ==== Sys2Proof/Machine/Uses.lean ====
section
/-! DEFINITION. What an admitted graph uses (R84, R139, R466): channels, CABs, DACs, quads and matrix wires. Unit codes
are those of R262. -/

namespace Sys2Proof.Machine

/-- The kind of a unit code. -/
def unitKind (u : Nat) : Nat := u / 0x1000
/-- The index of a unit code. -/
def unitIndex (u : Nat) : Nat := u % 0x1000

/-- The quad that an element's unit belongs to, for the kinds that have one. -/
def PlacedElem.quad (e : PlacedElem) : Option Nat :=
  match e.el.kind with
  | 1 => some (unitIndex e.unit / 4)
  | 2 => some (unitIndex e.unit / 8)
  | 6 => some (unitIndex e.unit)
  | 7 => some (unitIndex e.unit)
  | _ => none

/-- Whether the graph holds a unit by an element of a kind. -/
def Graph.holds (g : Graph) (kind unit : Nat) : Bool := g.elems.any (fun e => e.el.kind == kind && e.unit == unit)

/-- The element of a graph by its ID. -/
def Graph.elem (g : Graph) (id : Nat) : Option PlacedElem := g.elems.find? (fun e => e.el.id == id)

/-- Whether the graph has an element in quad `q`. -/
def Graph.inQuad (g : Graph) (q : Nat) : Bool := g.elems.any (fun e => e.quad == some q)

/-- Whether an edge ends on a port of an element. -/
def Graph.fed (g : Graph) (id port : Nat) : Bool := g.edges.any (fun e => e.ed.to_ == id && e.ed.toPort == port)

/-- Whether the graph uses the direct path of channel `c`: its source's PI port takes no analogue edge (R274). -/
def Graph.direct (g : Graph) (c : Nat) : Bool :=
  g.elems.any (fun e => e.el.kind == 1 && e.unit == 0x2000 + c && !g.fed e.el.id 2)

/-- Whether the graph uses wire `w` of quad `q`. -/
def Graph.usesWire (g : Graph) (q w : Nat) : Bool :=
  (decide (w < 4) && g.direct (4 * q + w)) ||
    g.edges.any (fun e => e.ed.analog && e.wire == w && (g.elem e.ed.frm).any (fun x => x.quad == some q))

/-- The functions whose admitted graphs pass a test. -/
def State.users (s : State) (p : Graph → Bool) : List Nat := (s.graphs.filter p).map (fun g => g.fn)

/-- R84: a unit that an admitted graph uses is written by that graph's function, and one that none uses by F0. -/
def State.userMay (s : State) (f : Nat) (p : Graph → Bool) : Bool :=
  match s.users p with
  | [] => f == 0
  | us => us.contains f

/-- Whether an admitted graph uses channel `c` as a source. -/
def State.chanUsed (s : State) (c : Nat) : Bool := s.graphs.any (fun g => g.holds 1 (0x2000 + c))

/-- Whether an admitted graph holds the DAC of quad `q` (R81). -/
def State.dacUsed (s : State) (q : Nat) : Bool := s.graphs.any (fun g => g.holds 6 (0x1000 + q))

/-- The elements of a graph as they stand and as a waiting change has them. -/
def Graph.allElems (g : Graph) : List PlacedElem := g.elems ++ ((g.change.map (·.elems)).getD [])

/-- Whether another graph than one holds the DAC of quad `q`, as it stands or as a waiting change has it (R269). -/
def State.dacClaimed (s : State) (fn handle q : Nat) : Bool :=
  s.graphs.any (fun g => !(g.fn == fn && g.handle == handle) && g.allElems.any (fun e => e.el.kind == 6 && e.unit == 0x1000 + q))
    || s.wheel.leaving.any (fun l => !(l.g.fn == fn && l.g.handle == handle) && l.elems.any (fun e => e.el.kind == 6 && e.unit == 0x1000 + q))

/-- Whether a graph whose start has come holds the DAC of quad `q`, which it has released only two boundaries after its stop (R81, R144,
R283). -/
def State.dacLive (s : State) (q : Nat) : Bool :=
  s.graphs.any (fun g => g.phase != .admitted && g.phase != .stopped && g.holds 6 (0x1000 + q))
    || s.wheel.leaving.any (fun l => l.elems.any (fun e => e.el.kind == 6 && e.unit == 0x1000 + q))

/-- Whether an admitted graph uses quad `q`. -/
def State.quadUsed (s : State) (q : Nat) : Bool := s.graphs.any (fun g => g.inQuad q)

/-- Whether rotation is still held for the bisque service (R102): until a first graph has started (R536; DEDUCED, log entry 13). -/
def State.onlyBisque (s : State) : Bool := !s.boot.started

/-- Whether a unit is held or reserved by a graph of the Wheel or by a move in progress, or is still to be released (R276, R283). -/
def State.claimed (s : State) (u : Nat) : Bool :=
  s.graphs.any (fun g => g.allElems.any (fun e => e.unit == u)) || s.wheel.moves.any (fun m => m.new == u || m.old == u)
    || s.wheel.leaving.any (fun l => l.elems.any (fun e => e.unit == u))

end Sys2Proof.Machine
end

