-- ==== Sys2Proof/Machine/Analogue.lean ====
section
/-! DEFINITION. Analogue inputs, configurable blocks and the switch matrix (03_analogue_front_end.md, R53–R88, R589). -/

namespace Sys2Proof.Machine

open Regs

/-! ### Settling windows (R57) -/

/-- The least number of 500 ps periods that is at least 8 / fc, with fc = 10 MHz × 80^(FC/63): the least `n` with
n^63 × 80^FC ≥ 1600^63 (R54, R57). -/
def filterPeriods (fc : Nat) : Nat := ((firstFrom (fun n => decide (1600 ^ 63 ≤ n ^ 63 * 80 ^ fc)) 0 1601).getD 1600)

/-- The integer square root, rounded up, found by halving between two bounds. -/
def rootUp (x : Nat) : Nat → Nat → Nat → Nat
  | _, hi, 0 => hi
  | lo, hi, n + 1 =>
    let m := (lo + hi) / 2
    if x ≤ m * m then rootUp x lo m n else rootUp x (m + 1) hi n

/-- (RFB code + 1)² (CA code + 1) (CB code + 1): f0 of R61 is 1 / (2π × 50 ps × its root). -/
def biquadN (res cap : Word) : Nat :=
  (cabRes_RES_FB.get res + 1) ^ 2 * (cabCap_CAP_A.get cap + 1) * (cabCap_CAP_B.get cap + 1)

/-- The least number of 500 ps periods that is at least 10 / f0: 2π times the root of `biquadN` (R57, R61). 4π² is taken
to 28 decimal places. -/
def biquadPeriods (res cap : Word) : Nat :=
  rootUp (394784176043574344753379639995 * biquadN res cap / 10 ^ 28 + 1) 0 0x20000 18

/-- The settling windows that a change of CH_CTRL opens, in 500 ps periods (R57). -/
def ctrlWindow (old new : Word) : Nat :=
  let d (F : Fld) := F.get old ≠ F.get new
  let att := if d chCtrl_ATT ∨ d chCtrl_INSEL then 400 else 0
  let pga := if d chCtrl_PGA then 80 else 0
  let on := chCtrl_AAF_EN.get new = 1
  let aaf := if on then (if d chCtrl_AAF_EN ∨ d chCtrl_FC then max 200 (filterPeriods (chCtrl_FC.get new)) else 0)
    else if d chCtrl_AAF_EN then max 200 (filterPeriods (chCtrl_FC.get old)) else 0
  max (max att pga) aaf

/-- Whether a pin is in analogue mode: ANALOG as its last function switch left it in force (R77, R491). -/
def State.pinAnalog (s : State) (p : Nat) : Bool := decide (16 ≤ FMap.get (fun _ => 0) s.pins.alt p)

/-- The settling window that a change of a CAB's registers opens (R57). While FUNC is BIQUAD, a change of any of its fields, those of
CAB_CMP among them, counts as a change of a biquad field (DESIGN CHOICE, log entry 50). -/
def cabWindow (f0 f1 r0 r1 c0 c1 m0 m1 : Word) : Nat :=
  let rstBit : Word := ~~~ cabFunc_RST_GO.mask
  let ieBit : Word := ~~~ cabCmp_CMP_IE.mask
  if f0 &&& rstBit = f1 &&& rstBit ∧ r0 = r1 ∧ c0 = c1 ∧ m0 &&& ieBit = m1 &&& ieBit then 0
  else if cabFunc_FUNC.get f1 = 3 then max 400 (biquadPeriods r1 c1) else 400

/-- The nodes of a quad's analogue section on a path: channel k is k, CAB b is 4 + b and wire w is 12 + w. -/
abbrev Node := Nat

/-- The wire of quad `q` that a load terminal is connected to (R69). -/
def State.wireOf (s : State) (q term : Nat) : Option Nat :=
  lowest 32 (fun w =>
    if term < 12 then bitOf (s.reg (mxWire q w)).toNat (term - 4) == 1
    else bitOf (s.reg (mxWireCab q w)).toNat (3 * ((term - 24) / 5) + (term - 24) % 5) == 1)

/-- The wire of a load, as a node. -/
def State.wireNode (s : State) (q term : Nat) : List Node := ((s.wireOf q term).map (12 + ·)).toList

/-- The nodes that feed a node. A CAB's inputs all do, whatever its function uses of them (DESIGN CHOICE, log entry 100). -/
def State.feeds (s : State) (q : Nat) (n : Node) : List Node :=
  if n < 4 then (if s.cur (chCtrl q n) chCtrl_INSEL = 0 then [] else s.wireNode q (8 + n))
  else if n < 12 then
    s.wireNode q (24 + 5 * (n - 4)) ++ s.wireNode q (25 + 5 * (n - 4)) ++ s.wireNode q (26 + 5 * (n - 4))
  else
    let w := s.reg (mxWire q (n - 12))
    let t := mxWire_DRIVER.get w
    if mxWire_HAS_DRIVER.get w = 0 then []
    else if t < 4 then [t] else if 24 ≤ t then [4 + (t - 24) / 5] else []

/-- The nodes reached from a list, against the flow of the signal. -/
def State.reach (s : State) (q : Nat) : Nat → List Node → List Node → List Node
  | 0, _, seen => seen
  | _, [], seen => seen
  | k + 1, n :: todo, seen =>
    if seen.contains n then s.reach q k todo seen else s.reach q k (s.feeds q n ++ todo) (n :: seen)

/-- The path of the pool input of channel `k`: every node whose setting its signal depends on. -/
def State.path (s : State) (q k : Nat) : List Node := s.reach q 200 (s.wireNode q (4 + k)) []

/-- Spans of time, the latest first, less those that ended too long ago for a sample or a block of R110 still to ask of them. -/
def State.recent (s : State) (l : List (Nat × Nat)) : List (Nat × Nat) := l.filter (fun w => decide (s.time.now ≤ w.2 + 0x100000))

/-- A window opened or prolonged (R57). -/
def State.openWindow (s : State) (key len : Nat) : State :=
  if len = 0 then s
  else
    let e := match FMap.get (fun _ => none) s.ana.win key with
      | some e0 => max e0 (s.time.now + len)
      | none => s.time.now + len
    let old := FMap.get (fun _ => []) s.ana.spans key
    let spans := match old with
      | (a, b) :: rest => if s.time.now < b then (a, e) :: rest else (s.time.now, e) :: s.recent old
      | [] => [(s.time.now, e)]
    { s with ana := { s.ana with win := FMap.set (fun _ => none) s.ana.win key (some e),
                                 spans := FMap.set (fun _ => []) s.ana.spans key spans } }

/-- Whether an instant lay within a window of channel `k` of quad `q` (R58). -/
def State.settlingAt (s : State) (q k at_ : Nat) : Bool :=
  (FMap.get (fun _ => []) s.ana.spans (12 * q + k)).any (fun w => decide (w.1 ≤ at_ ∧ at_ < w.2))

/-- Whether the window of a CAB is open (R66). -/
def State.cabSettling (s : State) (q b : Nat) : Bool := (FMap.get (fun _ => none) s.ana.win (12 * q + 4 + b)).isSome

/-- The changes of a quad's channels and CABs that a boundary brings into force: the node and its window. -/
def State.anaChanges (s : State) (q : Nat) : List (Node × Nat) :=
  (List.range 4).map (fun k =>
      (k, max (ctrlWindow (s.oldReg (chCtrl q k)) (s.reg (chCtrl q k)))
        (if s.cur (chOffset q k) chOffset_OFS = s.fld (chOffset q k) chOffset_OFS then 0 else 200)))
  ++ (List.range 8).map (fun b =>
      (4 + b, cabWindow (s.oldReg (cabFunc q b)) (s.reg (cabFunc q b)) (s.oldReg (cabRes q b)) (s.reg (cabRes q b))
        (s.oldReg (cabCap q b)) (s.reg (cabCap q b)) (s.oldReg (cabCmp q b)) (s.reg (cabCmp q b))))

/-- The longest window that a list of changes opens on a path. -/
def windowOn (chg : List (Node × Nat)) (path : List Node) : Nat :=
  chg.foldl (fun m c => if path.contains c.1 then max m c.2 else m) 0

/-- A comparator's output at a level. CMP_OUT of the register is the output itself; it is read two pin clocks after it changes (R65). -/
def State.setCmp (s : State) (q b : Nat) (l : Bool) : State :=
  if s.bit (cabStatus q b) cabStatus_CMP_OUT = l then s
  else
    let now := s.time.now
    let h := FMap.get (fun _ => []) s.ana.cmp (8 * q + b)
    let keep := h.takeWhile (fun x => decide (now < x.1)) ++ (h.dropWhile (fun x => decide (now < x.1))).take 1
    ({ s with ana := { s.ana with cmp := FMap.set (fun _ => []) s.ana.cmp (8 * q + b) ((now + 20, l) :: keep) } } : State).setFld
      (cabStatus q b) cabStatus_CMP_OUT (flag l)

/-- CMP_OUT of a CAB as it reads (R65). -/
def State.cmpRead (s : State) (q b : Nat) : Bool :=
  ((FMap.get (fun _ => []) s.ana.cmp (8 * q + b)).find? (fun x => decide (x.1 ≤ s.time.now))).any (·.2)

/-- The window of a CAB opened: its comparator output is held at 0 (R66). -/
def State.openCabWindow (s : State) (q b len : Nat) : State :=
  if len = 0 then s else (s.openWindow (12 * q + 4 + b) len).setCmp q b false

/-- The windows of a quad opened for a list of changes, on the paths before and after them. A CAB's own window, that of R66, opens for
changes of the CAB's registers, not for a matrix connection at its inputs (DESIGN CHOICE, log entry 51). -/
def State.openWindows (s : State) (q : Nat) (chg : List (Node × Nat)) (before : List (List Node)) : State :=
  let t := foldBelow (fun k t => t.openWindow (12 * q + k) (windowOn chg (s.path q k ++ before.getD k []))) 4 s
  foldBelow (fun b t => t.openCabWindow q b (windowOn chg [4 + b])) 8 t

/-! ### Overload (R60) -/

/-- OVLD_IE in force: that before a write which foreground calibration holds, up to the boundary at which the write comes into force
(R85). -/
def State.ovldIe (s : State) (q k : Nat) : Bool :=
  (FMap.get (fun _ => none) s.ana.heldIe (4 * q + k)).getD (s.bit (chCtrl q k) chCtrl_OVLD_IE)

/-- OVLD_IE in force kept from a write of CH_CTRL that is held, or given up to one that is not (R85). -/
def State.keepIe (s : State) (q k : Nat) : State :=
  let old := if s.bit (chStatus q k) chStatus_CAL_HOLD then some (s.ovldIe q k) else none
  { s with ana := { s.ana with heldIe := FMap.set (fun _ => none) s.ana.heldIe (4 * q + k) old } }

/-- The spans over which the samples of a channel carry C (R60), the latest first; one has no end while the detector is tripped. -/
def State.overSpans (s : State) (c : Nat) : List (Nat × Option Nat) := FMap.get (fun _ => []) s.ana.ovldSpans c

/-- The spans of a channel replaced. -/
def State.setOver (s : State) (c : Nat) (l : List (Nat × Option Nat)) : State :=
  { s with ana := { s.ana with ovldSpans := FMap.set (fun _ => []) s.ana.ovldSpans c l } }

/-- A span begun, and those that ended too long ago to matter left out. -/
def State.openOver (s : State) (c : Nat) : State :=
  let l := s.overSpans c
  if l.any (·.2.isNone) then s
  else s.setOver c ((s.time.now, none) :: l.filter (fun w => w.2.all (fun e => decide (s.time.now ≤ e + 0x100000))))

/-- The span in progress ended 8 ns from now. -/
def State.closeOver (s : State) (c : Nat) : State :=
  s.setOver c ((s.overSpans c).map (fun w => (w.1, some (w.2.getD (s.time.now + 16)))))

/-- OVERLOAD_TRIP (R60). -/
def execOverloadTrip (q k : Nat) (s : State) : Result :=
  .next (s.onlyIf (s.hasQuad q && decide (k < 4))
    (let t := ((s.setFld (chStatus q k) chStatus_OVLD_NOW 1).setFlag (chStatus q k) chStatus_OVLD).openOver (4 * q + k)
     if s.ovldIe q k then t.raise (448 + 2 * (4 * q + k)) 1 else t))

/-- OVERLOAD_RELEASE (R60): samples of the next 8 ns still carry C. -/
def execOverloadRelease (q k : Nat) (s : State) : Result :=
  .next (s.onlyIf (s.hasQuad q && decide (k < 4) && s.bit (chStatus q k) chStatus_OVLD_NOW)
    ((s.setFld (chStatus q k) chStatus_OVLD_NOW 0).closeOver (4 * q + k)))

/-- Whether a sample taken at an instant on channel `k` of quad `q` carries C for its analogue path (R60). -/
def State.overloadAt (s : State) (q k at_ : Nat) : Bool :=
  (s.overSpans (4 * q + k)).any (fun w => decide (w.1 ≤ at_) && w.2.all (fun e => decide (at_ < e)))

/-! ### Configurable analogue blocks -/

/-- An integrator reset: its outputs stay at zero for 20 ns (R63). -/
def State.resetIntegrator (s : State) (q b : Nat) : State :=
  { s with ana := { s.ana with intHold := FMap.set (fun _ => 0) s.ana.intHold (8 * q + b) (s.time.now + 40) } }

/-- Whether a CAB is an integrator with a reset policy (R63). -/
def State.integrator (s : State) (q b policy : Nat) : Bool :=
  s.cur (cabFunc q b) cabFunc_FUNC == 2 && s.cur (cabFunc q b) cabFunc_INT_RST == policy

/-- A differential level in µV, as a fraction. -/
abbrev Volt := Int × Nat

/-- The sum of two levels. -/
def Volt.add (a b : Volt) : Volt := (a.1 * b.2 + b.1 * a.2, a.2 * b.2)

/-- A level times `n / d`. -/
def Volt.scale (a : Volt) (n : Int) (d : Nat) : Volt := (a.1 * n, a.2 * d)

/-- Whether one level exceeds another. -/
def Volt.above (a b : Volt) : Bool := decide (b.1 * a.2 < a.1 * b.2)

/-- The level that CALREF delivers, in mV (R83): zero unless READY. -/
def State.calrefVolt (s : State) (q : Nat) : Volt :=
  if !s.bit (refbufStatus q) refbufStatus_READY then (0, 1)
  else match s.fld (calrefCtrl q) calrefCtrl_LEVEL with
    | 1 => (125000, 1) | 2 => (-125000, 1) | 3 => (225000, 1) | 4 => (-225000, 1) | 5 => (400000, 1) | 6 => (-400000, 1) | _ => (0, 1)

/-- The sample that the DAC of a quad holds: the latest whose instant has come (R79, R80). -/
def State.dacHeld (s : State) (q : Nat) : Nat :=
  (FMap.get (fun _ => []) s.ana.dacQueue q).foldl (fun m x => if x.1 ≤ s.time.now then x.2 else m) 0

/-- The phase of a quad's tone accumulator at a sub-tick of the present tick, in units of 2⁻³² of a turn (R79). -/
def State.tonePhase (s : State) (q sub : Nat) : Nat :=
  (FMap.get (fun _ => 0) s.ana.dacPhase q + s.cur (dacToneFreq q) dacToneFreq_FTW * (sub / 4)) % 0x100000000

/-- The level at DACO (R79): 500 mV at code 32,767, reduced by the step attenuator. -/
def State.dacVolt (s : State) (q : Nat) : Volt :=
  let code : Volt := match s.cur (dacCtrl q) dacCtrl_SRC with
    | 1 => (sx 16 (s.cur (dacCode q) dacCode_CODE), 1)
    | 2 => (openRound (s.cur (dacToneAmp q) dacToneAmp_AMP * sinFix (s.tonePhase q s.time.sub)) (2 ^ 100), 1)
    | 3 => (sx 16 (s.dacHeld q), 1)
    | _ => (0, 1)
  code.scale 500000 (32767 * 10 ^ s.cur (dacCtrl q) dacCtrl_ATT)

/-- The driver of the wire that a load terminal is connected to, and none where no wire or no driver is there. -/
def State.driverOf (s : State) (q load : Nat) : Option Nat :=
  (s.wireOf q load).bind (fun w =>
    let r := s.reg (mxWire q w)
    if mxWire_HAS_DRIVER.get r = 0 then none else some (mxWire_DRIVER.get r))

/-- The level that the state gives a load terminal (R69, R77, R79, R83): zero where no wire, no driver or no analogue pin drives it, that of
the DAC or of CALREF; none where a channel, a pin or a CAB drives it. -/
def State.ownVolt (s : State) (q load : Nat) : Option Volt :=
  match s.driverOf q load with
  | none => some (0, 1)
  | some t =>
    if t = 12 then some (s.dacVolt q)
    else if t = 13 then some (s.calrefVolt q)
    else if 16 ≤ t ∧ t < 20 ∧ !s.pinAnalog (24 + 28 * q + (t - 16)) then some (0, 1)
    else none

/-- The level ahead of a channel's attenuator (R56): that of the ball, of CHIk, or their sum. `v` is what comes from outside of what the
state gives: the ball's level in BALL, that of what drives CHIk in MATRIX, and the sum of both in BALL_INJ. -/
def State.chanIn (s : State) (q k : Nat) (v : Int) : Volt :=
  match s.cur (chCtrl q k) chCtrl_INSEL with
  | 0 => (v, 1)
  | 1 => (s.ownVolt q (8 + k)).getD (v, 1)
  | _ => Volt.add (v, 1) ((s.ownVolt q (8 + k)).getD (0, 1))

/-- The level at a channel's PGA output, which its CHO carries where the filter passes it (R53–R56): the attenuator halves, the PGA
multiplies by its gain, cut to twelve decimal places (DESIGN CHOICE, log entry 49), and the offset DAC adds 62.5 µV a code. -/
def State.chanOut (s : State) (q k : Nat) (v : Int) : Volt :=
  let x := s.chanIn q k v
  let x := if s.cur (chCtrl q k) chCtrl_ATT = 1 then x.scale 1 2 else x
  (x.scale (decibels (s.cur (chCtrl q k) chCtrl_PGA)) (10 ^ 12)).add (625 * sx 12 (s.cur (chOffset q k) chOffset_OFS), 10)

/-- Whether a channel's overload detector trips for what reaches the channel: more than ±550 mV at the PGA output (R60). -/
def State.trips (s : State) (q k : Nat) (v : Int) : Bool :=
  let x := s.chanOut q k v
  x.above (550000, 1) || (x.scale (-1) 1).above (550000, 1)

/-- The level at input `i` of a CAB (R69, R77, R79, R83); for `v` see `CabIn`. -/
def State.cabInput (s : State) (q b i : Nat) (v : Int) : Volt :=
  (s.ownVolt q (24 + 5 * b + i)).getD (match s.driverOf q (24 + 5 * b + i) with
    | some t => if t < 4 then s.chanOut q t v else (v, 1)
    | none => (v, 1))

/-- OUT0 and OUT1 of a CAB (R61, R63): the transfer of its function, with its integrator at zero while it is held. -/
def State.cabOut (s : State) (q b : Nat) (x : CabIn) : Volt × Volt :=
  let rin := s.cur (cabRes q b) cabRes_RES_IN + 1
  let rfb : Int := s.cur (cabRes q b) cabRes_RES_FB + 1
  let ca := s.cur (cabCap q b) cabCap_CAP_A + 1
  let signed (i : Nat) (v : Volt) : Volt := if bitOf (s.cur (cabFunc q b) cabFunc_SIGN) i = 1 then v.scale (-1) 1 else v
  let in0 := s.cabInput q b 0 x.in0
  let both (v : Volt) : Volt × Volt := (v, if s.cur (cabFunc q b) cabFunc_OUT1_INV = 1 then v.scale (-1) 1 else v)
  match s.cur (cabFunc q b) cabFunc_FUNC with
  | 1 => both (in0.scale (-rfb) rin)
  | 2 => both (if s.time.now < FMap.get (fun _ => 0) s.ana.intHold (8 * q + b) then (0, 1) else (-x.integral, 50 * rin * ca))
  | 3 => ((x.bp, 1), (x.lp * rfb, rin))
  | 4 => both (((signed 0 in0).add ((signed 1 (s.cabInput q b 1 x.in1)).add (signed 2 (s.cabInput q b 2 x.in2)))).scale (-rfb) rin)
  | _ => ((0, 1), (0, 1))

/-- Whether CMP_SRC of a CAB goes with its function, so that its comparator compares (R64). -/
def State.compares (s : State) (q b : Nat) : Bool :=
  let fn := s.cur (cabFunc q b) cabFunc_FUNC
  match s.cur (cabCmp q b) cabCmp_CMP_SRC with
  | 0 => decide (1 ≤ fn ∧ fn ≤ 4)
  | 1 | 2 => fn == 5
  | _ => false

/-- What the comparator of a CAB compares, and with what (R64). -/
def State.compared (s : State) (q b : Nat) (x : CabIn) : Volt × Volt :=
  let level : Volt := (1000 * sx 10 (s.cur (cabCmp q b) cabCmp_LEVEL), 1)
  match s.cur (cabCmp q b) cabCmp_CMP_SRC with
  | 0 => ((s.cabOut q b x).1, level)
  | 1 => (s.cabInput q b 0 x.in0, level)
  | _ => (s.cabInput q b 0 x.in0, s.cabInput q b 1 x.in1)

/-- The hysteresis of a CAB's comparator, in µV. -/
def State.hysteresis (s : State) (q b : Nat) : Int :=
  match s.cur (cabCmp q b) cabCmp_HYST with | 0 => 0 | 1 => 5000 | 2 => 10000 | _ => 20000

/-- Where a CAB's comparator output goes for what stands at the CAB (R64): up above the threshold, down below it less the hysteresis,
and nowhere in between. -/
def State.cmpTurn (s : State) (q b : Nat) (x : CabIn) : Option Bool :=
  let (v, w) := s.compared q b x
  if !s.compares q b then some false
  else if v.above w then some true
  else if (w.add (-s.hysteresis q b, 1)).above v then some false else none

/-- Whether an output of a CAB exceeds ±600 mV (R67). -/
def State.clips (s : State) (q b : Nat) (x : CabIn) : Bool :=
  let big (v : Volt) : Bool := v.above (600000, 1) || (v.scale (-1) 1).above (600000, 1)
  big (s.cabOut q b x).1 || big (s.cabOut q b x).2

/-- CAB_COMPARATOR_FALL (R64). -/
def execCabComparatorFall (q b : Nat) (s : State) : Result :=
  .next (s.onlyIf (s.hasQuad q && decide (b < 8)) (s.setCmp q b false))

/-- CAB_CLIP (R67): a CAB that is off or compares only has no output to clip. -/
def execCabClip (q b : Nat) (s : State) : Result :=
  .next (s.onlyIf (s.hasQuad q && decide (b < 8) && [1, 2, 3, 4].contains (s.cur (cabFunc q b) cabFunc_FUNC))
    (s.setFlag (cabStatus q b) cabStatus_CLIP))

/-- CAB_STATUS as read: ACTIVE while FUNC is not OFF and the window is over, and CMP_OUT late (R65). -/
def State.cabStatusWord (s : State) (q b : Nat) : Word :=
  cabStatus_ACTIVE.put (cabStatus_CMP_OUT.put (s.reg (cabStatus q b)) (flag (s.cmpRead q b)))
    (flag (s.cur (cabFunc q b) cabFunc_FUNC != 0 && !s.cabSettling q b))

/-- A refusal of R86: the block's REFUSED bit and WRITE_REFUSED with the BAR0 offset. -/
def State.refuseWrite (s : State) (f q off st : Nat) (F : Fld) : State :=
  (s.setFlag st F).raise (728 + q) 3 [off] (f + 1)

/-- Why a CAB's register words are refused: 1 biquad limit, 2 CMP_SRC, 3 reserved encoding, 0 none (R62, R64, R86). A CMP_SRC of 0b11 is
code 2, though it is a reserved encoding too (DESIGN CHOICE, log entry 101). f0 exceeds 25 MHz when `biquadN` is at most (400 / π)², which lies between 16,211 and 16,212. -/
def cabRefusal (func res cap : Word) (cmp : Option Word) : Nat :=
  let fn := cabFunc_FUNC.get func
  if 5 < fn then 3
  else if fn = 3 ∧ (biquadN res cap ≤ 16211 ∨
      400 * (cabRes_RES_FB.get res + 1) ^ 2 * (cabCap_CAP_B.get cap + 1)
        < (cabRes_RES_Q.get res + 1) ^ 2 * (cabCap_CAP_A.get cap + 1)) then 1
  else match cmp with
    | none => 0
    | some c =>
      let src := cabCmp_CMP_SRC.get c
      if (src = 0 ∧ 1 ≤ fn ∧ fn ≤ 4) ∨ ((src = 1 ∨ src = 2) ∧ fn = 5) then 0 else 2

/-- A write of a CAB register: refused whole for the code given, or applied. -/
def State.writeCab (s : State) (f q b off : Nat) (d : Desc) (v : Word) (code : Nat) : State :=
  if code = 0 then s.writeReg off d v
  else (s.setFld (cabStatus q b) cabStatus_ERR code).refuseWrite f q off (cabStatus q b) cabStatus_REFUSED

/-- R84 for a CAB. -/
def State.mayCab (s : State) (f q b : Nat) : Bool := s.userMay f (fun g => g.holds 2 (0x7000 + 8 * q + b))

/-- A write of CAB_FUNC (R62, R63): a RST_GO of 1 resets the integrator now when INT_RST is HOST. -/
def State.writeCabFunc (s : State) (f q b : Nat) (v : Word) : State :=
  s.allowed (s.mayCab f q b) f (cabFunc q b) v
    (let code := cabRefusal v (s.reg (cabRes q b)) (s.reg (cabCap q b)) none
     let t := s.writeCab f q b (cabFunc q b) cabFuncDesc v code
     if code = 0 ∧ cabFunc_RST_GO.get v = 1 ∧ s.integrator q b 3 then t.resetIntegrator q b else t)

/-- RST_GO (R63). -/
def execRstGo (f q b : Nat) (v : Word) (s : State) : Result :=
  s.hostWrite (s.onlyIf (s.hasQuad q && decide (b < 8)) (s.writeCabFunc f q b v))

/-- A write of CAB_RES, CAB_CAP or CAB_CMP (R62, R64). -/
def State.writeCabWord (s : State) (f q b x : Nat) (v : Word) : State :=
  let (fn, res, cap) := (s.reg (cabFunc q b), s.reg (cabRes q b), s.reg (cabCap q b))
  match x with
  | 1 => s.allowed (s.mayCab f q b) f (cabRes q b) v
      (s.writeCab f q b (cabRes q b) cabResDesc v (cabRefusal fn v cap none))
  | 2 => s.allowed (s.mayCab f q b) f (cabCap q b) v
      (s.writeCab f q b (cabCap q b) cabCapDesc v (cabRefusal fn res v none))
  | 3 => s.allowed (s.mayCab f q b) f (cabCmp q b) v
      (s.writeCab f q b (cabCmp q b) cabCmpDesc v (cabRefusal fn res cap (some v)))
  | _ => s.allowed (s.mayCab f q b) f (cabStatus q b) v (s.writeReg (cabStatus q b) cabStatusDesc v)

/-! ### Channels -/

/-- A write of CH_CTRL, CH_OFFSET or CH_STATUS (R84, R86). While CAL_HOLD is 1 the written word waits (R85). -/
def State.writeChannel (s : State) (f q k x : Nat) (v : Word) : State :=
  let off := match x with | 0 => chCtrl q k | 1 => chOffset q k | _ => chStatus q k
  s.allowed (s.ownChan (4 * q + k) == f + 1) f off v (match x with
    | 0 => if chCtrl_INSEL.get v = 3 ∨ chCtrl_PGA.get v = 31
        then s.refuseWrite f q off (chStatus q k) chStatus_REFUSED else (s.keepIe q k).writeReg off chCtrlDesc v
    | 1 => s.writeReg off chOffsetDesc v
    | _ => s.writeReg off chStatusDesc v)

/-! ### The switch matrix (R68–R76) -/

/-- Whether a terminal is a driver (R68). -/
def isDriver (t : Nat) : Bool := t < 4 || t == 12 || t == 13 || (16 ≤ t && t < 20) || (24 ≤ t && 3 ≤ (t - 24) % 5)

/-- Whether a terminal code is reserved (R68). -/
def termReserved (t : Nat) : Bool := t == 14 || t == 15 || (20 ≤ t && t < 24)

/-- One wire: MX_WIRE and MX_WIRE_CAB. -/
abbrev Wire := Word × Word

/-- The bit of a load terminal among a wire's loads: channel-side 0–7, CAB inputs 8–31. -/
def loadBit (t : Nat) : Nat := if t < 12 then t - 4 else 8 + 3 * ((t - 24) / 5) + (t - 24) % 5

/-- The loads of a wire as one number. -/
def wireLoads (w : Wire) : Nat := mxWire_LOADS.get w.1 + 256 * mxWireCab_CAB_LOADS.get w.2

/-- A wire with the given loads. -/
def setLoads (w : Wire) (l : Nat) : Wire := (mxWire_LOADS.put w.1 l, mxWireCab_CAB_LOADS.put w.2 (l / 256))

/-- One command done on one wire (R72, R74). -/
def wireDo (w : Wire) (c : MxCmd) : Wire :=
  match c.op with
  | 0 =>
    if isDriver c.term then (mxWire_HAS_DRIVER.put (mxWire_DRIVER.put w.1 c.term) 1, w.2)
    else if bitOf (wireLoads w) (loadBit c.term) = 1 then w else setLoads w (wireLoads w + 2 ^ loadBit c.term)
  | 1 =>
    if isDriver c.term then
      (if mxWire_HAS_DRIVER.get w.1 = 1 ∧ mxWire_DRIVER.get w.1 = c.term
        then (mxWire_HAS_DRIVER.put (mxWire_DRIVER.put w.1 0) 0, w.2) else w)
    else if bitOf (wireLoads w) (loadBit c.term) = 1 then setLoads w (wireLoads w - 2 ^ loadBit c.term) else w
  | _ => (0, 0)

/-- The wires of a quad in force. -/
def State.wires (s : State) (q : Nat) : List Wire :=
  (List.range 32).map (fun w => (s.reg (mxWire q w), s.reg (mxWireCab q w)))

/-- Commands done in order on the wires of a quad. -/
def wiresDo (ws : List Wire) (cs : List MxCmd) : List Wire :=
  cs.foldl (fun ws c => ws.set c.wire (wireDo (ws.getD c.wire (0, 0)) c)) ws

/-- The commands that a quad has queued. -/
def State.mxQueue (s : State) (q : Nat) : List MxCmd := FMap.get (fun _ => []) s.ana.queue q

/-- The queue of a quad replaced. -/
def State.setMxQueue (s : State) (q : Nat) (cs : List MxCmd) : State :=
  { s with ana := { s.ana with queue := FMap.set (fun _ => []) s.ana.queue q cs } }

/-- The number of loads on a wire. -/
def loadCount (w : Wire) : Nat := countBelow (fun i => bitOf (wireLoads w) i == 1) 32

/-- The code with which R69 refuses a connection on given wires: 1 TWO_DRIVERS, 2 LOAD_BUSY, 3 FANOUT, 0 none. -/
def connectError (ws : List Wire) (c : MxCmd) : Nat :=
  let w := ws.getD c.wire (0, 0)
  if c.op ≠ 0 then 0
  else if isDriver c.term then
    (if mxWire_HAS_DRIVER.get w.1 = 1 ∧ mxWire_DRIVER.get w.1 ≠ c.term then 1 else 0)
  else
    let on (i : Nat) := bitOf (wireLoads (ws.getD i (0, 0))) (loadBit c.term) == 1
    if (lowest 32 (fun i => i != c.wire && on i)).isSome then 2
    else if !on c.wire && decide (4 ≤ loadCount w) then 3 else 0

/-- The first failing check of R72: 5 RESERVED, 4 QUEUE_FULL, then R69; 0 none. -/
def State.mxError (s : State) (q : Nat) (c : MxCmd) : Nat :=
  if c.wire = 31 ∨ c.op = 3 ∨ (c.op ≠ 2 ∧ termReserved c.term) then 5
  else if 16 ≤ (s.mxQueue q).length then 4
  else connectError (wiresDo (s.wires q) (s.mxQueue q)) c

/-- MX_STATUS as read: PENDING counts the queue. -/
def State.mxStatusWord (s : State) (q : Nat) : Word := mxStatus_PENDING.put (s.reg (mxStatus q)) (s.mxQueue q).length

/-- A refusal recorded in MX_STATUS (R72, R88). -/
def State.mxRecord (s : State) (q : Nat) (c : MxCmd) (code : Nat) : State :=
  let w := mxStatus_ERR.put (s.reg (mxStatus q)) code
  (s.setReg (mxStatus q) (mxStatus_ERR_TERM.put (mxStatus_ERR_WIRE.put w c.wire) c.term)).setFlag (mxStatus q) mxStatus_REFUSED

/-- A refusal recorded and raised (R72). -/
def State.mxRefuse (s : State) (q : Nat) (c : MxCmd) (code whom : Nat) : State :=
  let t := s.mxRecord q c code
  t.raise (728 + q) 2 [(t.mxStatusWord q).toNat] whom

/-- A command checked and queued, or refused (R72). -/
def State.mxSubmit (s : State) (q : Nat) (c : MxCmd) (whom : Nat) : State :=
  match s.mxError q c with
  | 0 => s.setMxQueue q (s.mxQueue q ++ [c])
  | code => s.mxRefuse q c code whom

/-- The GPIO pin of AP `j` of quad `q` (R76). -/
def apPin (q j : Nat) : Nat := 24 + 28 * q + j

/-- Write access to a terminal (R84). -/
def State.mayTerm (s : State) (f q t : Nat) : Bool :=
  if t < 12 then s.ownChan (4 * q + t % 4) == f + 1
  else if t = 12 then s.userMay f (fun g => g.holds 6 (0x1000 + q))
  else if 16 ≤ t ∧ t < 20 then s.ownPin (apPin q (t - 16)) == f + 1
  else if 24 ≤ t then s.mayCab f q ((t - 24) / 5)
  else true

/-- A write of MX_CMD: access first (R84), then the checks of R72. -/
def State.writeMxCmd (s : State) (f q : Nat) (v : Word) : State :=
  let c : MxCmd := ⟨mxCmd_OP.get v, mxCmd_WIRE.get v, mxCmd_TERM.get v⟩
  s.allowed (s.userMay f (fun g => g.usesWire q c.wire) && (c.op == 2 || s.mayTerm f q c.term)) f (mxCmd q) v
    (s.mxSubmit q c (f + 1))

/-- CONNECT (R72). -/
def execConnect (f q : Nat) (v : Word) (s : State) : Result :=
  s.hostWrite (s.onlyIf (s.hasQuad q) (s.writeMxCmd f q (mxCmd_OP.put v 0)))

/-- DISCONNECT (R72). -/
def execDisconnect (f q : Nat) (v : Word) (s : State) : Result :=
  s.hostWrite (s.onlyIf (s.hasQuad q) (s.writeMxCmd f q (mxCmd_OP.put v 1)))

/-- CLEAR_WIRE (R72). -/
def execClearWire (f q : Nat) (v : Word) (s : State) : Result :=
  s.hostWrite (s.onlyIf (s.hasQuad q) (s.writeMxCmd f q (mxCmd_OP.put v 2)))

/-- Wires of a quad put into force (R74). -/
def State.setWires (s : State) (q : Nat) (ws : List Wire) : State :=
  (List.range 32).foldl (fun t w =>
    (t.setReg (mxWire q w) (ws.getD w (0, 0)).1).setReg (mxWireCab q w) (ws.getD w (0, 0)).2) s

/-- The wires that differ, as changed nodes with the window of R57: a command without an effect changes none (R72). -/
def wireChanges (old new : List Wire) : List (Node × Nat) :=
  (List.range 32).filterMap (fun w => if old.getD w (0, 0) = new.getD w (0, 0) then none else some (12 + w, 100))

/-- Whether a quad's domain is powered. -/
def State.quadOn (s : State) (q : Nat) : Bool := s.powerOf q == .on

/-- The analogue part of step 3 for one quad, before the RWT fields commit: the changes it brings (R57). -/
def State.quadChanges (s : State) (q : Nat) : List (Node × Nat) :=
  (if s.quadOn q then s.anaChanges q else []).filter (fun c =>
    c.2 ≠ 0 && (4 ≤ c.1 || !s.bit (chStatus q c.1) chStatus_CAL_HOLD))

/-- Integrators with INT_RST TICK reset at a boundary (R63). -/
def State.tickIntegrators (s : State) (q : Nat) : State :=
  foldBelow (fun b t => if t.integrator q b 1 then t.resetIntegrator q b else t) 8 s

/-! ### Quad DAC (R79–R81) -/

/-- R84 for the DAC. -/
def State.mayDac (s : State) (f q : Nat) : Bool := s.userMay f (fun g => g.holds 6 (0x1000 + q))

/-- A write of a DAC register, `x` words into the DAC part (R86). -/
def State.writeDac (s : State) (f q x : Nat) (v : Word) : State :=
  let (off, d) := match x with
    | 0 => (dacCtrl q, dacCtrlDesc) | 1 => (dacCode q, dacCodeDesc) | 2 => (dacToneFreq q, dacToneFreqDesc)
    | 3 => (dacToneAmp q, dacToneAmpDesc) | _ => (dacStatus q, dacStatusDesc)
  s.allowed (s.mayDac f q) f off v
    (if (x = 0 ∧ (3 < dacCtrl_SRC.get v ∨ dacCtrl_STREAM_RATE.get v = 3)) ∨ (x = 3 ∧ 32767 < dacToneAmp_AMP.get v)
     then s.refuseWrite f q off (dacStatus q) dacStatus_REFUSED else s.writeReg off d v)

/-- Whether the DAC takes a stream (R79). -/
def State.dacStreams (s : State) (q : Nat) : Bool := s.hasQuad q && s.clocked && s.cur (dacCtrl q) dacCtrl_SRC == 3

/-- The sub-tick periods for which a stream sample is held (R79). -/
def State.dacHold (s : State) (q : Nat) : Nat := 4 * 2 ^ s.cur (dacCtrl q) dacCtrl_STREAM_RATE

/-- Samples that reach the DAC of a quad (R79): each goes out when the one before it has been held for its time, or at once where
that is over. -/
def State.dacFeed (s : State) (q : Nat) (xs : List Nat) : State :=
  let old := FMap.get (fun _ => []) s.ana.dacQueue q
  let kept := match (old.filter (fun x => decide (x.1 ≤ s.time.now))).getLast? with
    | some x => x :: old.filter (fun x => decide (s.time.now < x.1))
    | none => old
  let queue := xs.foldl (fun l x =>
    l ++ [((l.getLast?.map (fun y => max s.time.now (y.1 + s.dacHold q))).getD s.time.now, x % 0x10000)]) kept
  { s with ana := { s.ana with dacQueue := FMap.set (fun _ => []) s.ana.dacQueue q queue } }

/-- DAC_STREAM_SAMPLE (R79): a sample reaches the DAC's network interface. -/
def execDacStreamSample (q x : Nat) (s : State) : Result := .next (s.onlyIf (s.dacStreams q) (s.dacFeed q [x]))

/-- Whether the DAC's stream has run out: every sample has been held for its time (R80). -/
def State.dacDry (s : State) (q : Nat) : Bool :=
  (FMap.get (fun _ => []) s.ana.dacQueue q).all (fun x => decide (x.1 + s.dacHold q ≤ s.time.now))

/-- DAC_UNDERRUN (R80): the last sample is held. -/
def execDacUnderrun (q : Nat) (s : State) : Result :=
  .next (s.onlyIf (s.dacStreams q && s.dacDry q) ((s.setFlag (dacStatus q) dacStatus_UNDERRUN).raise (728 + q) 4))

/-- The tone's phase carried over a tick of `n` sub-tick periods: four of them to a DAC period (R79). -/
def State.dacAdvance (s : State) (q n : Nat) : State :=
  let p := FMap.get (fun _ => 0) s.ana.dacPhase q + s.cur (dacToneFreq q) dacToneFreq_FTW * (n / 4)
  { s with ana := { s.ana with dacPhase := FMap.set (fun _ => 0) s.ana.dacPhase q (p % 0x100000000) } }

/-! ### Reference buffer (R82) -/

/-- Whether any slice of the quad is ACTIVE. -/
def State.anyActive (s : State) (q : Nat) : Bool := (List.range 36).any (fun i => s.fld (slice q i) slice_STATE == 2)

/-- A reference buffer switched on: READY follows 20,000 CLKREF periods later. -/
def State.refOn (s : State) (q : Nat) : State :=
  if s.bit (refbufCtrl q) refbufCtrl_EN then s
  else
    let t := (s.setFld (refbufCtrl q) refbufCtrl_EN 1).setFld (refbufStatus q) refbufStatus_ON 1
    let t := t.setFld (refbufStatus q) refbufStatus_READY 0
    { t with ana := { t.ana with refOn := FMap.set (fun _ => 0) t.ana.refOn q s.time.now } }

/-- R84 for the reference buffer: F0 or a function that owns a channel of the quad. -/
def State.mayRef (s : State) (f q : Nat) : Bool := f == 0 || (s.quadFunctions q).contains f

/-- A write of REFBUF_CTRL (R82). -/
def State.writeRefbuf (s : State) (f q : Nat) (v : Word) : State :=
  s.allowed (s.mayRef f q) f (refbufCtrl q) v
    (if refbufCtrl_EN.get v = 1 then s.refOn q
     else if !s.bit (refbufCtrl q) refbufCtrl_EN then s
     else if s.anyActive q || s.quadUsed q then s.setFlag (refbufStatus q) refbufStatus_DIS_REFUSED
     else (((s.setFld (refbufCtrl q) refbufCtrl_EN 0).setFld (refbufStatus q) refbufStatus_ON 0).setFld
        (refbufStatus q) refbufStatus_READY 0).upset q)

/-- REFBUF_ENABLE (R82). -/
def execRefbufEnable (f q : Nat) (v : Word) (s : State) : Result :=
  s.hostWrite (s.onlyIf (s.hasQuad q) (s.writeRefbuf f q v))

/-- REFBUF_READY (R82): 20,000 CLKREF periods after EN was set. -/
def execRefbufReady (q : Nat) (s : State) : Result :=
  .next (s.onlyIf (s.hasQuad q && s.bit (refbufCtrl q) refbufCtrl_EN
      && decide (FMap.get (fun _ => 0) s.ana.refOn q + 400000 ≤ s.time.now))
    (s.setFld (refbufStatus q) refbufStatus_READY 1))

/-- Whether a quad's reference buffer is READY. -/
def State.refReady (s : State) (q : Nat) : Bool := s.bit (refbufStatus q) refbufStatus_READY

/-- Writes to the analogue part of QUAD[q] that no command of the table names on its own (R84, R88). -/
def State.writeQuadAnalogue (s : State) (f q x : Nat) (v : Word) : State :=
  if x < 0x80 then s.writeChannel f q (x / 0x20) (x % 0x20 / 4) v
  else if x = 0x100 then s.writeRefbuf f q v
  else if x = 0x104 then s.allowed (s.mayRef f q) f (refbufStatus q) v (s.writeReg (refbufStatus q) refbufStatusDesc v)
  else if x = 0x108 then s
  else if x < 0x300 then
    (if x % 0x20 = 0 then s.writeCabFunc f q ((x - 0x200) / 0x20) v
     else s.writeCabWord f q ((x - 0x200) / 0x20) (x % 0x20 / 4) v)
  else if x = 0x400 then s.writeMxCmd f q v
  else if x = 0x404 then
    s.allowed (s.mayRef f q || (s.users (fun g => (List.range 32).any (fun w => g.usesWire q w))).contains f) f
      (mxStatus q) v (s.writeReg (mxStatus q) mxStatusDesc v)
  else if x < 0x600 then s
  else s.writeDac f q ((x - 0x600) / 4) v

end Sys2Proof.Machine
end

