-- ==== Sys2Proof/Machine/Temperature.lean ====
section
/-! DEFINITION. Factory values and temperature readings (05_calibration.md, R126–R128, R152). -/

namespace Sys2Proof.Machine

open Regs

/-! ### Factory values (R152) -/

/-- The nominal slice corrections of R152. -/
def nominalSlice : SliceCor := ⟨0, 0x20000, 0, 0⟩

/-- The nominal channel corrections of R152. -/
def nominalChan : ChanCor := ⟨0, 0x20000, 0, 0⟩

/-- The factory corrections of a slice, or nominal ones. -/
def Otp.slice (o : Otp) (q i : Nat) : SliceCor :=
  if o.ok then FMap.get (fun _ => nominalSlice) o.slices (36 * q + i) else nominalSlice

/-- The factory corrections of a channel setting, or nominal ones. -/
def Otp.chan (o : Otp) (c att pga : Nat) : ChanCor :=
  if o.ok then FMap.get (fun _ => nominalChan) o.chans (64 * c + 32 * att + pga) else nominalChan

/-- CALREF codes E0, EP and EN of a quad in tenths of an LSB (R131). -/
def Otp.e0Of (o : Otp) (q : Nat) : Int := if o.ok then FMap.get (fun _ => 0) o.e0 q else 0
/-- EP (R131). -/
def Otp.epOf (o : Otp) (q : Nat) : Int := if o.ok then FMap.get (fun _ => 262144) o.ep q else 262144
/-- EN (R131). -/
def Otp.enOf (o : Otp) (q : Nat) : Int := if o.ok then FMap.get (fun _ => -262144) o.en q else -262144
/-- The DAC gain of an attenuator step of a quad: the codes of 1.0 V p-p before the attenuator, nominally 32,767 (R152). -/
def Otp.dacGainOf (o : Otp) (q att : Nat) : Nat := if o.ok then FMap.get (fun _ => 32767) o.dacGain (4 * q + att) else 32767
/-- tc_dac in ppm per °C (R145). -/
def Otp.tcDacOf (o : Otp) : Int := if o.ok then o.tcDac else 0
/-- The offset between die sensor and quad, in °C × 16 (R127). -/
def Otp.dieOfsOf (o : Otp) (q : Nat) : Int := if o.ok then FMap.get (fun _ => 0) o.dieOfs q else 0
/-- DEVICE_ID, 0 when the check word fails (R152). -/
def Otp.device (o : Otp) : Nat := if o.ok then o.deviceId else 0

/-! ### Temperature (R126–R128) -/

/-- P of R126. -/
def State.tempPeriodOf (s : State) : Nat := max 1 ((100000 + s.tickDiv - 1) / s.tickDiv)

/-- The history of a sensor. -/
def State.sensorOf (s : State) (i : Nat) : Sensor := FMap.get (fun _ => ⟨none, 0, 0, 0, 0⟩) s.cal.sensor i

/-- The history of a sensor set. -/
def State.setSensor (s : State) (i : Nat) (x : Sensor) : State :=
  { s with cal := { s.cal with sensor := FMap.set (fun _ => ⟨none, 0, 0, 0, 0⟩) s.cal.sensor i x } }

/-- Whether a reading is valid (R127), and the sensor's history with it. -/
def readSensor (x : Sensor) (v : Int) (at_ : Nat) : Bool × Sensor :=
  if v < -960 ∨ 2400 < v then (false, { x with jumps := 0 })
  else
    let near := match x.value with | none => true | some y => decide ((v - y).natAbs ≤ 128)
    if near || x.jumps == 2 then (true, { x with value := some v, at_ := at_, jumps := 0 })
    else (false, { x with jumps := x.jumps + 1 })

/-- Channel `k` of quad `q` made due. -/
def State.makeDue (s : State) (q k : Nat) : State := s.setFld (chCalStatus q k) chCalStatus_DUE 1

/-- The cone tested for every channel of a quad (R128). -/
def State.coneTest (s : State) (q : Nat) (temp : Int) : State :=
  foldBelow (fun k t =>
    if 2 * s.cur calCtrl calCtrl_CAL_CONE < (temp - sx 16 (s.fld (chCalTemp q k) chCalTemp_T)).natAbs
    then t.makeDue q k else t) 4 s

/-- A usable quad temperature taken (R127, R128). -/
def State.takeTemp (s : State) (q src : Nat) (temp : Int) : State :=
  let w := calQtemp_TEMP.put (calQtemp_SRC.put (s.reg (calQtemp q)) src) (ux 16 temp)
  ((s.setReg (calQtemp q) w).setFld (calQstatus q) calQstatus_TEMP_STALE 0).coneTest q temp

/-- The stale state entered, with its one event (R127). -/
def State.staleTemp (s : State) (q : Nat) : State :=
  if s.bit (calQstatus q) calQstatus_TEMP_STALE then s
  else ((s.setFld (calQstatus q) calQstatus_TEMP_STALE 1).setFld (calQtemp q) calQtemp_SRC 0).raise (728 + q) 0xC

/-- A period that gives the quad no valid reading (R127): the die sensor stands in, or the temperature is stale. -/
def State.noReading (s : State) (q : Nat) : State :=
  let d := s.sensorOf (16 + q % 8)
  match d.value with
  | some v =>
    if s.time.bounds ≤ d.at_ + 4 * s.tempPeriodOf then s.takeTemp q 2 (v + s.cal.otp.dieOfsOf q) else s.staleTemp q
  | none => s.staleTemp q

/-- A reading of MON 0 or MON 1 by Deogen (R127). -/
def State.tempReading (s : State) (q mon : Nat) (v : Int) : State :=
  let i := if mon = 1 then 16 + q else q
  let (ok, x) := readSensor (s.sensorOf i) v s.time.bounds
  let t := s.setSensor i x
  if mon = 1 then
    (if ok then t.setReg (dieTemp q) (dieTemp_TEMP.put (dieTemp_SRC.put (t.reg (dieTemp q)) 1) (ux 16 v))
     else t.setFld (dieTemp q) dieTemp_SRC 2)
  else if ok then t.takeTemp q 1 v else t.noReading q

end Sys2Proof.Machine
end

