-- ==== Sys2Proof/Machine/Slices.lean ====
section
/-! DEFINITION. Slice pools, interleaving and sampling (04_converter_slices.md, R89–R124, R586, R590, R591). -/

namespace Sys2Proof.Machine

open Regs

/-! ### The pool (R89–R94) -/

/-- The state code of a slice (R89). -/
def State.sliceState (s : State) (q i : Nat) : Nat := s.fld (slice q i) slice_STATE

/-- The slices of a quad that a test accepts, in ascending number. -/
def slicesWhere (p : Nat → Bool) : List Nat := (List.range 36).filter p

/-- The RESERVE slices of a quad. -/
def State.reserve (s : State) (q : Nat) : List Nat := slicesWhere (fun i => s.sliceState q i == 0)

/-- The standby slice of a quad, when it has one. -/
def State.standby (s : State) (q : Nat) : Option Nat := lowest 36 (fun i => s.sliceState q i == 3)

/-- The start-up in progress of a slice. -/
def State.wakeOf (s : State) (q i : Nat) : Option Wake := FMap.get (fun _ => none) s.pool.wake (36 * q + i)

/-- The start-up of a slice set or ended. -/
def State.setWake (s : State) (q i : Nat) (w : Option Wake) : State :=
  { s with pool := { s.pool with wake := FMap.set (fun _ => none) s.pool.wake (36 * q + i) w } }

/-- A slice's state with its channel, position and phase; the count of failing blocks starts anew. -/
def State.setSlice (s : State) (q i st k j ph : Nat) : State :=
  let w := slice_STATE.put (slice_CHAN.put (slice_POS.put (s.reg (slice q i)) j) k) st
  s.setReg (slice q i) (slice_FAILS.put (slice_PHASE.put w ph) 0)

/-- The slice that holds a position, in service or in start-up (R94). -/
def State.holder (s : State) (q k j : Nat) : Option Nat :=
  lowest 36 (fun i => (s.sliceState q i == 2 || (s.sliceState q i == 1 &&
      (s.wakeOf q i).any (fun w => w.why == .added || w.why == .replacing)))
    && s.fld (slice q i) slice_CHAN == k && s.fld (slice q i) slice_POS == j)

/-- The slices of a channel: 0, 1, 2, 4, 8 or 16 (R92). -/
def State.chanCount (s : State) (q k : Nat) : Nat :=
  match s.fld (chPool q k) chPool_NCODE with
  | 0 => 0
  | c => 2 ^ (c - 1)

/-- NCODE of a slice count. -/
def ncode (n : Nat) : Nat := match n with | 0 => 0 | 1 => 1 | 2 => 2 | 4 => 3 | 8 => 4 | _ => 5

/-- Rotation is held (R102). -/
def State.rotHeld (s : State) (q : Nat) : Bool := s.onlyBisque || !s.quadLocked q || !s.refReady q

/-- POOL_STATUS as read: the counts and the standby follow from the slices. -/
def State.poolStatusWord (s : State) (q : Nat) : Word :=
  let n (c : Nat) := (slicesWhere (fun i => s.sliceState q i == c)).length
  let w := poolStatus_STANDBY.put (s.reg (poolStatus q)) ((s.standby q).getD 0x3F)
  let w := poolStatus_ROT_HELD.put (poolStatus_RETIRED.put w (n 4)) (flag (s.rotHeld q))
  poolStatus_ACTIVE.put (poolStatus_RESERVE.put w (n 0)) (n 2)

/-- Whether a position is filled for a sample taken at an instant (R111, R113). -/
def State.filledAt (s : State) (q k j : Nat) (at_ : Int) : Bool :=
  s.pool.filled.any (fun x => x.quad == q && x.chan == k && x.pos == j && decide ((x.from_ : Int) ≤ at_)
    && x.until_.all (fun e => decide (at_ < (e : Int))))

/-- Whether a position is filled for a sample taken now. -/
def State.isFilled (s : State) (q k j : Nat) : Bool := s.filledAt q k j s.time.now

/-- The slice whose conversions a position delivers: its holder, or one retired in this tick, whose samples are delivered as
converted until the position is filled (R111). -/
def State.converter (s : State) (q k j : Nat) : Option Nat :=
  (s.holder q k j).or
    ((s.pool.retired.find? (fun r => r.quad == q && r.chan == k && r.pos == j && !r.standby)).map (fun r => r.slice))

/-- The converter of a position at an instant: before the latest change, the slice before it. -/
def State.converterAt (s : State) (q k j : Nat) (at_ : Int) : Option Nat :=
  match FMap.get (fun _ => none) s.pool.prev (64 * q + 16 * k + j) with
  | some (t, i) => if at_ < (t : Int) then i else s.converter q k j
  | none => s.converter q k j

/-- The converter of a position kept as the one before a change that comes now. -/
def State.keepPrev (s : State) (q k j : Nat) : State :=
  let key := 64 * q + 16 * k + j
  if (FMap.get (fun _ => none) s.pool.prev key).any (fun x => x.1 == s.time.now) then s
  else { s with pool := { s.pool with prev := FMap.set (fun _ => none) s.pool.prev key (some (s.time.now, s.converter q k j)) } }

/-- Whether every position of a channel that has a slice is still in start-up: the channel is WAKING (R124; DESIGN CHOICE, log entry
56). -/
def State.chanWaking (s : State) (q k : Nat) : Bool :=
  let held := (List.range (s.chanCount q k)).filterMap (fun j => s.holder q k j)
  !held.isEmpty && held.all (fun i => s.sliceState q i == 1)

/-- CH_POOL as read: FILL while a position is filled, STATE as the channel's slices stand. -/
def State.chPoolWord (s : State) (q k : Nat) : Word :=
  let w := chPool_FILL.put (s.reg (chPool q k)) (flag ((List.range (s.chanCount q k)).any (fun j => s.isFilled q k j)))
  if s.chanWaking q k then chPool_STATE.put w 1 else w

/-- A position that from now on needs no filling. Samples of before keep their mark; what ended longer ago than two blocks of R110 is
forgotten. -/
def State.unfill (s : State) (q k j : Nat) : State :=
  let now := s.time.now
  { s with pool := { s.pool with filled := s.pool.filled.filterMap (fun x =>
      if x.until_.any (fun e => decide (e + 0x20000 < now)) then none
      else if x.quad = q ∧ x.chan = k ∧ x.pos = j ∧ x.until_.all (fun e => decide (now < e)) then
        (if now ≤ x.from_ then none else some { x with until_ := some now })
      else some x) } }

/-- A position filled from an instant on, up to another where one is given. -/
def State.fill (s : State) (q k j at_ : Nat) (until_ : Option Nat := none) : State :=
  let t := s.unfill q k j
  { t with pool := { t.pool with filled := t.pool.filled ++ [(⟨q, k, j, at_, until_⟩ : Filled)] } }

/-- The blocks of a slice counted from its first conversion in a position, on the phase given (R94, R110); a cold slice counts among the
others from the end of its start-up. -/
def State.startBlock (s : State) (q i ph : Nat) (cold : Bool) : State :=
  { s with pool := { s.pool with
    block := FMap.set (fun _ => none) s.pool.block (36 * q + i) (some (s.time.now + ph, cold))
    seated := FMap.set (fun _ => 0) s.pool.seated (36 * q + i) (s.time.now + if cold then 800 else 0) } }

/-- A slice put to work at a position, powered. -/
def State.seat (s : State) (q i k j n : Nat) : State :=
  ((((s.keepPrev q k j).setWake q i none).setSlice q i 2 k j (j * 16 / n)).unfill q k j).startBlock q i (j * 16 / n) false

/-- A cold slice sent to a position through its 400 ns start-up (R96, R113). -/
def State.seatCold (s : State) (q i k j n : Nat) (why : WakeFor) : State :=
  (((s.keepPrev q k j).setSlice q i 1 k j (j * 16 / n)).setWake q i (some ⟨s.time.now + 800, why⟩)).startBlock q i (j * 16 / n) true

/-- A slice returned to RESERVE. -/
def State.toReserve (s : State) (q i : Nat) : State :=
  ((s.setSlice q i 0 0 0 0).setFld (sliceCal q i) sliceCal_FIRST 1).setWake q i none

/-- The standby's run of a quad abandoned, and its status cleared. -/
def State.dropRun (s : State) (q : Nat) : State :=
  let t := { s with cal := { s.cal with run := FMap.set (fun _ => none) s.cal.run q none } }
  (t.setFld (calQstatus q) calQstatus_STEP 0).setFld (calQstatus q) calQstatus_TARGET 0x3F

/-! ### Injected conversions (R118–R123, R586) -/

/-- The waiting requests of a quad. -/
def State.injOf (s : State) (q : Nat) : List InjReq := FMap.get (fun _ => []) s.pool.inj q

/-- The waiting requests of a quad replaced. -/
def State.setInj (s : State) (q : Nat) (l : List InjReq) : State :=
  { s with pool := { s.pool with inj := FMap.set (fun _ => []) s.pool.inj q l } }

/-- C of R119. -/
def State.injCap (s : State) : Nat := min 8 (s.tickDiv / 48)

/-- INJ_STATUS as read. -/
def State.injStatusWord (s : State) (q : Nat) : Word :=
  injStatus_DEPTH.put (injStatus_CAP.put (s.reg (injStatus q)) s.injCap) (s.injOf q).length

/-- The first failing check of R119: its code, or 0. -/
def State.injError (s : State) (q mon : Nat) : Nat :=
  if mon = 7 ∨ 12 ≤ mon ∨ (mon = 1 ∧ 8 ≤ q) then 3
  else if 8 ≤ mon ∧ !s.pinAnalog (apPin q (mon - 8)) then 5
  else if s.powerOf q ≠ .on then 4
  else if s.bit (poolStatus q) poolStatus_ROT_STOPPED && (s.standby q).isNone then 2
  else if s.injCap ≤ FMap.get (fun _ => 0) s.pool.injCount q ∨ 8 ≤ (s.injOf q).length then 1
  else 0

/-- A request accepted (R119). -/
def State.injAccept (s : State) (q : Nat) (r : InjReq) : State :=
  let t := s.setInj q (s.injOf q ++ [r])
  let n := FMap.get (fun _ => 0) s.pool.injCount q + 1
  { t with pool := { t.pool with injCount := FMap.set (fun _ => 0) t.pool.injCount q n } }

/-- A request judged and queued, or refused (R119). -/
def State.injSubmit (s : State) (f q : Nat) (v : Word) : State :=
  let mon := injReq_MON.get v
  match s.injError q mon with
  | 0 => s.injAccept q ⟨mon, injReq_TAG.get v, injReq_IE.get v == 1, f + 1, s.time.bounds⟩
  | code => ((s.setFlag (injStatus q) injStatus_REFUSED).setFld (injStatus q) injStatus_ERR code).raise (728 + q) 6
      [code] (f + 1)

/-- R123: who may write INJ_REQ. -/
def State.mayInj (s : State) (f q mon : Nat) : Bool :=
  s.mayRef f q || (8 ≤ mon && mon < 12 && s.ownPin (apPin q (mon - 8)) == f + 1)

/-- R123: who may write the W1C bits of POOL_STATUS and INJ_STATUS, those who may make a request of some kind. -/
def State.mayPool (s : State) (f q : Nat) : Bool := (List.range 4).any (fun i => s.mayInj f q (8 + i))

/-- A write of INJ_REQ (R119, R123). -/
def State.writeInjReq (s : State) (f q : Nat) (v : Word) : State :=
  let mon := injReq_MON.get v
  if s.mayInj f q mon then s.injSubmit f q v
  else s.violation f (injReq q) true v.toNat 1 15
    (some (if 8 ≤ mon ∧ mon < 12 then s.ownPin (apPin q (mon - 8)) else 15))

/-- INJ_REQ (R119). -/
def execInjReq (f q : Nat) (v : Word) (s : State) : Result := s.hostWrite (s.onlyIf (s.hasQuad q) (s.writeInjReq f q v))

/-- A request completed: its result written and INJ_DONE raised where IE asks (R120, R122). A request of Deogen's for a quad's
temperature that gives none leaves it without a reading (R127). -/
def State.injFinish (s : State) (q : Nat) (r : InjReq) (stat val : Nat) : State :=
  let off := injResult q r.mon
  let w := injResult_COUNT.put (s.reg off) (s.fld off injResult_COUNT + 1)
  let w := injResult_VALUE.put (injResult_TAG.put (injResult_STAT.put w stat) r.tag) val
  let t := s.setReg off w
  let t := if r.ie then t.raise (728 + q) 5 [w.toNat, r.mon] r.by_ else t
  if r.by_ = 0 ∧ r.mon = 0 ∧ stat ≠ 1 then t.noReading q else t

/-- Waiting requests aborted (R122). -/
def State.injAbort (s : State) (q : Nat) (p : InjReq → Bool) : State :=
  let t := s.setInj q ((s.injOf q).filter (fun r => !p r))
  ((s.injOf q).filter p).foldl (fun t r => t.injFinish q r 3 0) t

/-- The instant at which the standby of a quad, once there, has served the oldest request (R120): 480 ns from the boundary that began the
tick after the request's, from the end of the request before it, or from the end of its start-up. -/
def State.injDue (s : State) (q : Nat) (r : InjReq) : Nat :=
  max (if r.at_ + 1 = s.time.bounds then s.tickStart else s.time.lastStart) (FMap.get (fun _ => 0) s.pool.injFree q) + 960

/-- Whether the oldest request completes in the very cycle of boundary n + 2, which is now: its result is taken (R39, R122). -/
def State.injAtLast (s : State) (q : Nat) (r : InjReq) : Bool :=
  (s.standby q).isSome && decide (r.at_ + 2 = s.time.bounds ∧ s.time.sub = 0 ∧ s.injDue q r = s.time.now)

/-- INJECTED_CONVERSION_TIMEOUT (R122): a request of tick n completes at boundary n + 2. -/
def execInjectedConversionTimeout (q : Nat) (s : State) : Result :=
  .next (match s.injOf q with
    | r :: rest => if r.at_ + 2 ≤ s.time.bounds ∧ !s.injAtLast q r then (s.setInj q rest).injFinish q r 2 0 else s
    | [] => s)

/-- Whether the standby serves injected conversions in this tick (R120, R121). -/
def State.serving (s : State) (q : Nat) : Bool := (s.injOf q).any (fun r => r.at_ + 1 == s.time.bounds)

/-! ### Standby and retirement (R111–R117) -/

/-- A standby found where the quad has none (R114, R590): a RESERVE slice starts up, or rotation stops. Rotation that has stopped goes
on when the start-up has ended. -/
def State.ensureStandby (s : State) (q : Nat) : State :=
  if (s.standby q).isSome || (List.range 36).any (fun i => (s.wakeOf q i).any (fun w => w.why == .standby)) then s
  else match (s.reserve q).head? with
    | some i =>
      (s.setSlice q i 1 0 0 0).setWake q i (some ⟨s.time.now + 800, .standby⟩)
    | none =>
      if s.bit (poolStatus q) poolStatus_ROT_STOPPED then s
      else ((s.setFld (poolStatus q) poolStatus_ROT_STOPPED 1).injAbort q (fun _ => true)).raise (728 + q) 8

/-- A stop or change has returned slices: rotation that had stopped gets a standby again (R114). -/
def State.regainStandby (s : State) (q : Nat) : State :=
  if s.bit (poolStatus q) poolStatus_ROT_STOPPED then s.ensureStandby q else s

/-- A slice retired (R111, R117, R135): a slice in service leaves its position to be filled from 128 ns on. -/
def State.retireSlice (s : State) (q i cause : Nat) : State :=
  let (k, j) := (s.fld (slice q i) slice_CHAN, s.fld (slice q i) slice_POS)
  let sb := s.sliceState q i != 2
  let t := (s.setFld (slice q i) slice_STATE 4).setFld (slice q i) slice_CAUSE cause
  let t := t.setFlag (poolStatus q) poolStatus_RETIRE
  let t := { t with pool := { t.pool with retired := t.pool.retired ++ [(⟨q, i, k, j, cause, s.time.tick, sb⟩ : Retired)] } }
  if sb then (t.dropRun q) else t.fill q k j (s.time.now + 256)

/-- Unit code of a slice (R460). -/
def sliceUnit (q i : Nat) : Nat := 0xA000 + 36 * q + i

/-- A retirement reported at step 2 (R115, R460, R474). -/
def State.reportRetired (s : State) (r : Retired) (new : Option Nat) : State :=
  let a0 := (match new with | some i => sliceUnit r.quad i | none => 0xFFFF) * 0x10000 + sliceUnit r.quad r.slice
  let a1 := r.cause * 0x1000000 + r.pos * 16 + r.chan
  let whom := if r.standby then 16 else s.ownChan (4 * r.quad + r.chan)
  s.report ⟨5, 0, 15, 728 + r.quad, a0, s.time.tick, r.cause, r.pos * 16 + r.chan, r.tick⟩ (728 + r.quad) 7
    [a0, a1, s.time.tick] whom

/-- The position of a retired slice given to another (R113): the standby, else a RESERVE slice, else none; in the last two cases it is
filled from this boundary on. -/
def State.replaceRetired (s : State) (r : Retired) : State × Option Nat :=
  let n := s.chanCount r.quad r.chan
  match s.standby r.quad, (s.reserve r.quad).head? with
  | some sb, _ => ((s.dropRun r.quad).seat r.quad sb r.chan r.pos n, some sb)
  | none, some i => ((s.seatCold r.quad i r.chan r.pos n .replacing).fill r.quad r.chan r.pos s.time.now
      (some (s.time.now + 800)), some i)
  | none, none => (s.fill r.quad r.chan r.pos s.time.now, none)

/-- The slice in start-up to become the standby. -/
def State.wakingStandby (s : State) (q : Nat) : Option Nat :=
  lowest 36 (fun i => (s.wakeOf q i).any (fun w => w.why == .standby))

/-- Step 2 for the slices of one quad (R113–R116): positions filled in ascending slice number, then the standby, then the
reports. A slice that failed its self-test (cause 6) had no place to be taken: its report names position 0 of channel 0 and no slice
(DESIGN CHOICE, log entry 55). ARG0 of POSITION_UNFILLED is position × 16 + channel (DESIGN CHOICE, log entry 58). -/
def State.replaceSlices (s : State) (q : Nat) : State :=
  let mine := s.pool.retired.filter (fun r => r.quad == q)
  if mine.isEmpty then s
  else
    let ordered := (List.range 36).flatMap (fun i => mine.filter (fun r => r.slice == i))
    let (t, news) := ordered.foldl (fun (a : State × List (Retired × Option Nat)) r =>
      if r.standby then (a.1, a.2 ++ [(r, none)])
      else let (t, n) := a.1.replaceRetired r; (t, a.2 ++ [(r, n)])) (s, [])
    let t := { t with pool := { t.pool with retired := t.pool.retired.filter (fun r => r.quad != q) } }
    let t := t.ensureStandby q
    news.foldl (fun t (rn : Retired × Option Nat) =>
      let t := t.reportRetired rn.1 (if rn.1.cause = 6 then none else if rn.1.standby then t.wakingStandby q else rn.2)
      if rn.2.isNone && !rn.1.standby then
        t.raise (728 + q) 9 [rn.1.pos * 16 + rn.1.chan] (t.ownChan (4 * q + rn.1.chan)) else t) t

/-- SLICE_STARTUP_END (R96, R114): 400 ns after the slice left RESERVE. -/
def execSliceStartupEnd (q i : Nat) (s : State) : Result :=
  .next (match s.wakeOf q i with
    | none => s
    | some w =>
      if !s.come w.until_ then s
      else match w.why with
        | .graph => s.setWake q i none
        | .standby =>
          let t := ((s.setFld (slice q i) slice_STATE 3).setWake q i none).setFld (poolStatus q) poolStatus_ROT_STOPPED 0
          { t with pool := { t.pool with injFree := FMap.set (fun _ => 0) t.pool.injFree q w.until_ } }
        | .added =>
          let t := (s.setFld (slice q i) slice_STATE 2).setWake q i none
          { t with pool := { t.pool with woke := FMap.set (fun _ => 0) t.pool.woke (36 * q + i) w.until_ } }
        | .replacing => (s.setFld (slice q i) slice_STATE 2).setWake q i none)

/-! ### Slice health (R110) -/

/-- A number put in its place in a rising list. -/
def insertInt (x : Int) : List Int → List Int
  | [] => [x]
  | y :: ys => if x ≤ y then x :: y :: ys else y :: insertInt x ys

/-- Twice the median: the middle value doubled, or the sum of the two middle values. -/
def median2 (l : List Int) : Int :=
  let a := l.foldr insertInt []
  let n := a.length
  if n % 2 = 1 then 2 * a.getD (n / 2) 0 else a.getD (n / 2 - 1) 0 + a.getD (n / 2) 0

/-- The cause code of a judged block, 0 when it passes (R110); `others` are the figures of the slices that count. -/
def blockCause (b : BlockStats) (others : List Figures) : Nat :=
  if b.redundancy then 1
  else if others.isEmpty then 0
  else
    let range2 := median2 (others.map (fun x => (x.range : Int)))
    let mean2 := median2 (others.map (fun x => x.mean))
    let rms2 := median2 (others.map (fun x => (x.rms : Int)))
    if 128 ≤ range2 ∧ 32 * (b.own.range : Int) < range2 then 2
    else if 2 * 1024 * 256 < (2 * b.own.mean - mean2).natAbs then 3
    else if 2 * 64 * 256 ≤ rms2 ∧ (4 * (b.own.rms : Int) < rms2 ∨ rms2 < (b.own.rms : Int)) then 4
    else 0

/-- The 500 ps periods of a block: 4,096 conversions of 8 ns (R110). -/
def blockPeriods : Nat := 65536

/-- Whether a slice counts among the others of a block of slice `i` that began at instant `b` (R110): ACTIVE on the same channel, in its
position and converting from the first conversion of the block on, and not filled up to the last. -/
def State.countsFor (s : State) (q i b o : Nat) : Bool :=
  let (k, j) := (s.fld (slice q i) slice_CHAN, s.fld (slice q o) slice_POS)
  o != i && decide (o < 36) && s.sliceState q o == 2 && s.fld (slice q o) slice_CHAN == k
    && decide (FMap.get (fun _ => 0) s.pool.seated (36 * q + o) ≤ b)
    && !s.pool.filled.any (fun x => x.quad == q && x.chan == k && x.pos == j && decide (x.from_ ≤ b + blockPeriods - 16)
        && x.until_.all (fun e => decide (b < e)))

/-- Whether a sample of a block that began at instant `b` carries S for a settling window, or C for an overload, of channel `k` (R110). -/
def State.blockMarked (s : State) (q k b : Nat) : Bool :=
  (FMap.get (fun _ => []) s.ana.spans (12 * q + k)).any (fun w => decide (w.1 ≤ b + blockPeriods - 16 ∧ b < w.2))
    || (s.overSpans (4 * q + k)).any (fun w => decide (w.1 ≤ b + blockPeriods - 16) && w.2.all (fun e => decide (b < e)))

/-- SLICE_BLOCK_END (R110, R111): the last conversion of the present block completes; the third failing block in a row retires the
slice. On a one-slice channel only the conversion check applies. -/
def execSliceBlockEnd (q i : Nat) (st : BlockStats) (s : State) : Result :=
  .next (match FMap.get (fun _ => none) s.pool.block (36 * q + i) with
    | none => s
    | some (b, cold) =>
      if !s.hasQuad q || decide (36 ≤ i) || s.sliceState q i != 2 || !s.come (b + blockPeriods) then s
      else
        let t := { s with pool := { s.pool with
          block := FMap.set (fun _ => none) s.pool.block (36 * q + i) (some (b + blockPeriods, false)) } }
        let k := s.fld (slice q i) slice_CHAN
        let others := if s.chanCount q k < 2 then [] else (st.others.filter (fun o => s.countsFor q i b o.1)).map (·.2)
        if cold || st.limited || s.blockMarked q k b then t
        else match blockCause st others with
          | 0 => t.setFld (slice q i) slice_FAILS 0
          | c => if s.fld (slice q i) slice_FAILS < 2
              then t.setFld (slice q i) slice_FAILS (s.fld (slice q i) slice_FAILS + 1) else t.retireSlice q i c)

/-! ### Slices for channels (R91, R96–R98, R590, R591) -/

/-- Slices that a graph start or change may take, in ascending number: RESERVE ones and those woken ahead, and, while
rotation is held, the standby; `warm` are slices that the bisque channel gives up at this boundary (R590). -/
def State.takeable (s : State) (q : Nat) (held : Bool) : List Nat :=
  slicesWhere (fun i => s.sliceState q i == 0 || (s.sliceState q i == 1 && (s.wakeOf q i).any (fun w => w.why == .graph))
    || (s.sliceState q i == 1 && (s.wakeOf q i).isNone) || (held && s.sliceState q i == 3))

/-- Whether a slice has been woken ahead for a graph (R97). -/
def State.prewoken (s : State) (q i : Nat) : Bool :=
  (s.wakeOf q i).any (fun w => w.why == .graph) || (s.sliceState q i == 1 && (s.wakeOf q i).isNone)

/-- Slices woken one boundary ahead for the `n` positions that the next boundary will add (R97); those woken for a graph or
change that has been withdrawn return to RESERVE, where one may become the standby (R114). `bisque` are the slices that the bisque
service gives up. -/
def State.prewake (s : State) (q n : Nat) (bisque : List Nat) : State :=
  let held := s.rotHeld q
  let cand := (slicesWhere (fun i => (s.takeable q held).contains i || bisque.contains i)).take n
  let back := (List.range 36).any (fun i => !cand.contains i && s.prewoken q i)
  let t := (List.range 36).foldl (fun t i =>
    if cand.contains i then
      (if t.sliceState q i = 0 then (t.setFld (slice q i) slice_STATE 1).setWake q i (some ⟨t.time.now + 800, .graph⟩) else t)
    else if t.prewoken q i then t.toReserve q i else t)
    { s with pool := { s.pool with chosen := FMap.set (fun _ => []) s.pool.chosen q cand } }
  if back then t.regainStandby q else t

/-- The slice that takes the next position: of those that may be taken, the lowest of the ones settled on a boundary ahead (R97), else the
lowest (R91). -/
def State.nextSlice (s : State) (q : Nat) (held : Bool) : Option Nat :=
  let may := s.takeable q held
  (may.find? (fun i => (FMap.get (fun _ => []) s.pool.chosen q).contains i)).or may.head?

/-- Positions given slices at a boundary, in the order asked (R91, R590, R591): `warm` slices need no start-up. Where no
slice is left the standby takes the next position, and further ones are filled. -/
def State.seatAll (s : State) (q : Nat) (held : Bool) (warm : List Nat) : List (Nat × Nat × Nat) → State
  | [] => s
  | (k, j, n) :: rest =>
    let t := match s.nextSlice q held with
      | some i =>
        if s.sliceState q i ≠ 0 ∨ warm.contains i then s.seat q i k j n else (s.unfill q k j).seatCold q i k j n .added
      | none =>
        match s.standby q with
        | some sb => (s.dropRun q).seat q sb k j n
        | none => (s.fill q k j s.time.now).raise (728 + q) 9 [j * 16 + k] (s.ownChan (4 * q + k))
    t.seatAll q held warm rest

/-- The slice count of a channel set, and the slices beyond it released; those kept take their new phase (R98). -/
def State.setCount (s : State) (q k n : Nat) : State :=
  let t := (s.setFld (chPool q k) chPool_NCODE (ncode n)).setFld (chPool q k) chPool_STATE (if n = 0 then 0 else 2)
  let t := { t with pool := { t.pool with
    filled := t.pool.filled.filter (fun x => !(x.quad == q && x.chan == k && decide (n ≤ x.pos))) } }
  (List.range 36).foldl (fun t i =>
    let held := (s.sliceState q i == 2 || (s.sliceState q i == 1 &&
      (s.wakeOf q i).any (fun w => w.why == .added || w.why == .replacing))) && s.fld (slice q i) slice_CHAN == k
    if !held then t
    else if n ≤ s.fld (slice q i) slice_POS then t.toReserve q i
    else
      let ph := s.fld (slice q i) slice_POS * 16 / n
      let block := (FMap.get (fun _ => none) t.pool.block (36 * q + i)).map (fun b =>
        (b.1 + ph - s.fld (slice q i) slice_PHASE, b.2))
      { t.setFld (slice q i) slice_PHASE ph with
        pool := { t.pool with block := FMap.set (fun _ => none) t.pool.block (36 * q + i) block } }) t

/-- A channel started now: its samples begin here, and it has no last unmarked one (R112). -/
def State.startChannel (s : State) (c : Nat) : State :=
  { s with pool := { s.pool with chStart := FMap.set (fun _ => 0) s.pool.chStart c s.time.now,
                                 last := FMap.set (fun _ => none) s.pool.last c none } }

/-! ### Samples (R104–R109, R112) -/

/-- A slice's u value in units of 2⁻⁸ LSB (R104). -/
def State.sliceU (s : State) (q i : Nat) (x : Int) : Int :=
  roundEven ((4 * x - sx 13 (s.fld (sOfs q i) sOfs_OFS)) * s.fld (sGain q i) sGain_GAIN) 2048

/-- What the pool makes of a sample: y, whether R104 limited it, whether it is filled, and its u value. -/
structure PoolSample where
  y : Int
  c : Bool
  m : Bool
  u : Int
  deriving DecidableEq, Repr

/-- The channel corrections and the last rounding of R104, on v in units of 2⁻⁸ LSB: w rounded to a whole code. -/
def State.chanW (s : State) (q k : Nat) (v : Int) : Int :=
  let w := roundEven ((v - 64 * sx 13 (s.fld (cOfs q k) cOfs_OFS)) * s.fld (cGain q k) cGain_GAIN) 131072
  roundEven w 256

/-- Whether an instant lies in the start-up of a slice in an added position (R96). -/
def State.wakingAt (s : State) (q i : Nat) (at_ : Int) : Bool :=
  (s.wakeOf q i).any (fun w => w.why == .added && decide (at_ < (w.until_ : Int)))
    || decide (at_ < ((FMap.get (fun _ => 0) s.pool.woke (36 * q + i) : Nat) : Int))

/-- A sample of channel `k` to be formed: its index within the tick, its sampling instant, the raw codes from four samples before it to
four after, how many samples the channel has had before it, and u and y of the channel's last sample not marked M. -/
structure Taken where
  k : Nat
  idx : Nat
  at_ : Nat
  age : Nat
  raw : List Int
  lastU : Int
  lastY : Int
  deriving DecidableEq, Repr

/-- u of the sample `d` places from the one taken, from its raw code; none where it is filled or does not exist: before the
channel's `age`-th last sample (R112). The discarded conversions of a start-up count as 0 (R96; DEDUCED, log entry 54). -/
def State.sourceU (s : State) (q : Nat) (x : Taken) (d : Int) : Option Int :=
  let n := s.chanCount q x.k
  let j := ((x.idx : Int) + d) % (n : Int)
  let at_ : Int := x.at_ + d * (16 / n : Nat)
  if s.filledAt q x.k j.toNat at_ || decide ((x.age : Int) + d < 0) then none
  else match s.converterAt q x.k j.toNat at_ with
    | some i => some (if s.wakingAt q i at_ then 0 else s.sliceU q i (x.raw.getD (4 + d).toNat 0))
    | none => none

/-- The interpolation of R112 about place `d`, where its four sources exist. -/
def State.interpolate (s : State) (q : Nat) (x : Taken) (d : Int) : Option Int :=
  match s.sourceU q x (d - 3), s.sourceU q x (d - 1), s.sourceU q x (d + 1), s.sourceU q x (d + 3) with
  | some a, some b, some c, some e => some (roundEven (-a + 9 * b + 9 * c - e) 16)
  | _, _, _, _ => none

/-- A neighbour's u value: converted, interpolated, or the last good one (R104, R112). The u[k − 1] of a channel's first sample, which has
no sample before it, is taken as R112 takes a missing source: the last good one, 0 where there is none (DESIGN CHOICE, log entry 103). -/
def State.neighbourU (s : State) (q : Nat) (x : Taken) (d : Int) : Int :=
  (s.sourceU q x d).getD (if s.chanCount q x.k < 2 then x.lastU else (s.interpolate q x d).getD x.lastU)

/-- The pool's sample (R104, R112), as its position stands at its sampling instant. -/
def State.poolSample (s : State) (q : Nat) (x : Taken) : PoolSample :=
  let n := s.chanCount q x.k
  let limit (u v : Int) (m : Bool) : PoolSample :=
    let y := s.chanW q x.k v
    ⟨satI 16 y, decide (y < -32768 ∨ 32767 < y), m, u⟩
  let filled : PoolSample :=
    if n < 2 then ⟨x.lastY, false, true, x.lastU⟩
    else match s.interpolate q x 0 with
      | some u => limit u u true
      | none => ⟨x.lastY, false, true, x.lastU⟩
  match s.converterAt q x.k (x.idx % n) x.at_ with
  | none => filled
  | some i =>
    if s.filledAt q x.k (x.idx % n) x.at_ then filled
    else if s.wakingAt q i x.at_ then ⟨0, false, false, 0⟩   -- start-up of an added position (R96)
    else
      let u := s.sliceU q i (x.raw.getD 4 0)
      let hm := sx 16 (s.fld (sBw q i) sBw_HM)
      let hp := sx 16 (s.fld (sBw q i) sBw_HP)
      limit u (roundEven ((262144 - hm - hp) * u + hm * s.neighbourU q x (-1) + hp * s.neighbourU q x 1) 262144) false

/-- u and y of a sample that the spec settles and the model does not know: free values of their width. -/
def State.freeLast (s : State) : State × Int × Int :=
  let (a, t) := s.free
  let (b, t) := t.free
  (t, sx 24 a, sx 16 b)

/-- Whether sample `idx` of a channel, taken at an instant, lies in the start-up of an added position (R96, R108). -/
def State.startingUp (s : State) (q k idx at_ : Nat) : Bool :=
  (s.converterAt q k (idx % s.chanCount q k) at_).any (fun i => s.wakingAt q i at_)

end Sys2Proof.Machine
end

