-- ==== Sys2Proof/Machine/Calibration.lean ====
section
/-! DEFINITION. Calibration and trimming (05_calibration.md, R125–R158). -/

namespace Sys2Proof.Machine

open Regs

/-! ### Limits (R147) -/

/-- The judgement of one result: 0 pass, 2 range fail, 3 step fail. -/
def judge (lo hi step : Int) (first : Bool) (new old : Int) : Nat :=
  if new < lo ∨ hi < new then 2 else if !first && decide (step < (new - old).natAbs) then 3 else 0

/-- Slice offset and gain (R147). -/
def judgeSlice (first : Bool) (ofs ofs0 gain gain0 : Int) : Nat :=
  max (judge (-2048) 2048 128 first ofs ofs0) (judge 124518 137626 655 first gain gain0)

/-- Skew and taps (R147): the new tap against each of the two in force. -/
def judgeTrack (first : Bool) (skew skew0 tap hm0 hp0 : Int) : Nat :=
  max (judge (-1000) 1000 50 first skew skew0)
    (max (judge (-16384) 16384 1048 first tap hm0) (judge (-16384) 16384 1048 first tap hp0))

/-- Channel offset and gain (R147): a range failure is reported before a step failure. -/
def judgeChan (first : Bool) (ofs ofs0 gain gain0 : Int) : Nat :=
  let a := judge (-2048) 2048 256 first ofs ofs0
  let b := judge 124518 137626 1311 first gain gain0
  if a = 2 ∨ b = 2 then 2 else max a b

/-! ### Standby runs (R130–R136, R99–R102) -/

/-- The ticks of one step: ceil(4,416 / (1.25 × TICK_DIV)) (R130). -/
def State.stepTicks (s : State) : Nat := (4 * 4416 + 5 * s.tickDiv - 1) / (5 * s.tickDiv)

/-- The run of a quad's standby. -/
def State.runOf (s : State) (q : Nat) : Option Run := FMap.get (fun _ => none) s.cal.run q

/-- The run of a quad set. -/
def State.setRun (s : State) (q : Nat) (r : Option Run) : State :=
  { s with cal := { s.cal with run := FMap.set (fun _ => none) s.cal.run q r } }

/-- The foreground run of a quad. -/
def State.fgOf (s : State) (q : Nat) : Option FgRun := FMap.get (fun _ => none) s.cal.fg q

/-- The foreground run of a quad set. -/
def State.setFg (s : State) (q : Nat) (r : Option FgRun) : State :=
  { s with cal := { s.cal with fg := FMap.set (fun _ => none) s.cal.fg q r } }

/-- The pilot run of a quad. -/
def State.pilotOf (s : State) (q : Nat) : Option PilotRun := FMap.get (fun _ => none) s.cal.pilot q

/-- The pilot run of a quad set. -/
def State.setPilot (s : State) (q : Nat) (r : Option PilotRun) : State :=
  { s with cal := { s.cal with pilot := FMap.set (fun _ => none) s.cal.pilot q r } }

/-- The quad temperature in use, in °C × 16. -/
def State.quadTemp (s : State) (q : Nat) : Int := sx 16 (s.fld (calQtemp q) calQtemp_TEMP)

/-- The CALREF level of a step (R130): REFP +400 mV, REFN −400 mV, else 0. -/
def calrefLevel (step : Nat) : Nat := match step with | 2 => 5 | 3 => 6 | _ => 0

/-- A step of a run shown in CAL_QSTATUS and on CALREF. -/
def State.showStep (s : State) (q step : Nat) : State :=
  (s.setFld (calQstatus q) calQstatus_STEP step).setFld (calrefCtrl q) calrefCtrl_LEVEL (calrefLevel step)

/-- The ACTIVE slice whose last completed run is oldest, the lowest on a tie (R99). -/
def State.chooseTarget (s : State) (q : Nat) : Option Nat :=
  (slicesWhere (fun i => s.sliceState q i == 2)).foldl (fun (b : Option Nat) i =>
    match b with
    | none => some i
    | some x => if FMap.get (fun _ => 0) s.pool.lastRun (36 * q + i) < FMap.get (fun _ => 0) s.pool.lastRun (36 * q + x)
        then some i else b) none

/-- A run begun at this boundary on standby `sb`. -/
def State.beginRun (s : State) (q sb : Nat) : State :=
  let tgt := s.chooseTarget q
  let t := s.setRun q (some ⟨tgt, 1, s.stepTicks, true, false, 0, 0, 0, 0, 0, none, false⟩)
  let t := (t.setFld (calQstatus q) calQstatus_TARGET (tgt.getD 0x3F)).showStep q 1
  t.setFld (slice q sb) slice_CHAN ((tgt.map (fun i => s.fld (slice q i) slice_CHAN)).getD 0)

/-- What the tick that ends did for a run: a tick of the step used, or the step ended with its measurement (R130). -/
def State.useTick (s : State) (r : Run) : Run :=
  if !r.own then r
  else if 1 < r.left then { r with left := r.left - 1, own := false }
  else if r.done then { r with step := r.step + 1, left := s.stepTicks, own := false, done := false }
  else { r with own := false }

/-- What the standby does in the tick that begins (R136, R121, R102): injected conversions, a foreground run, or its own
run. A step that loses the tick is taken again from its start; one that has just ended is not. -/
def State.standbyTick (s : State) (q : Nat) : State :=
  match s.runOf q with
  | none => match s.standby q with
    | some sb => if s.serving q || s.rotHeld q || (s.fgOf q).any (fun r => r.begun) then s else s.beginRun q sb
    | none => s
  | some r0 =>
    let r := s.useTick r0
    let again : Run := { r with left := s.stepTicks, done := false }
    if (s.standby q).isNone || s.rotHeld q then s.dropRun q
    else if s.serving q then (s.setRun q (some again)).setFld (calQstatus q) calQstatus_STEP r.step
    else if (s.fgOf q).any (fun f => f.begun) then (s.setRun q (some again)).setFld (calQstatus q) calQstatus_STEP 5
    else (s.setRun q (some { r with own := true })).showStep q r.step

/-- Offset of R131, from the sum of 4,096 codes and E0 in tenths of an LSB. -/
def refOffset (m0 e0 : Int) : Int := roundEven (4 * (10 * m0 - 4096 * e0)) 40960

/-- Gain of R131; a span that is not positive has no gain within range. -/
def refGain (mp mn ep en : Int) : Int :=
  if mp - mn ≤ 0 then 0 else roundEven (131072 * (ep - en) * 4096) (10 * (mp - mn)).toNat

/-- The sums of the least-squares fit of R132, with 2 × D1 in place of D1: over its squares, the squares of D2, their products, and the
products of e with each. -/
structure Fit where
  d11 : Int
  d22 : Int
  d12 : Int
  ed1 : Int
  ed2 : Int
  deriving DecidableEq, Repr

/-- One measured instant taken into the fit (R132): the standby's sample corrected with the new offset and gain and its current taps,
against the value of R112 or, on one or two slices, the target's own. `j` is the target's position. -/
def State.fitPoint (s : State) (q sb k j : Nat) (r : Run) (p : TrackPt) (z : Fit) : Fit :=
  let x : Taken := ⟨k, j, s.time.now, 8, p.xs, 0, 0⟩
  let u (d : Int) : Int := (s.sourceU q x d).getD 0
  let raw := roundEven ((4 * p.sb - r.ofs) * r.gain) 2048
  let hm := sx 16 (s.fld (sBw q sb) sBw_HM)
  let hp := sx 16 (s.fld (sBw q sb) sBw_HP)
  let usb := roundEven ((262144 - hm - hp) * raw + hm * u (-1) + hp * u 1) 262144
  let ref := if s.chanCount q k < 4 then u 0 else roundEven (-u (-3) + 9 * u (-1) + 9 * u 1 - u 3) 16
  let e := usb - ref
  let d1 := u 1 - u (-1)
  let d2 := u 1 + u (-1) - 2 * u 0
  ⟨z.d11 + d1 * d1, z.d22 + d2 * d2, z.d12 + d1 * d2, z.ed1 + e * d1, z.ed2 + e * d2⟩

/-- Skew and tap of R132 from the fit on a channel of `n` slices; none where the fit has no one solution. `tap` is h_sb, HM of the
standby (where HM and HP differ: DESIGN CHOICE, log entry 68). -/
def Fit.solve (z : Fit) (n : Nat) (skew tap : Int) : Option (Int × Int) :=
  let det := z.d11 * z.d22 - z.d12 * z.d12
  if det ≤ 0 then none
  else
    let a := 2 * (z.ed1 * z.d22 - z.ed2 * z.d12)
    let b := z.ed2 * z.d11 - z.ed1 * z.d12
    some (skew - roundEven (a * 10 ^ 8) (det.toNat * 125 * n), roundEven (tap * det - b * 262144) det.toNat)

/-- Whether skew and taps are estimated (R133): the input is active, and at most 2,048 instants involve a marked sample. -/
def estimated (z : Fit) (pts : List TrackPt) : Bool :=
  decide (2 ^ 42 ≤ z.d11 ∧ (pts.filter (fun p => p.marked)).length ≤ 2048)

/-- A failed run (R134, R135): no exchange; the third in a row retires the standby. -/
def State.failRun (s : State) (q sb : Nat) : State :=
  let n := s.fld (sliceCal q sb) sliceCal_FAILS + 1
  let t := ((s.dropRun q).setFlag (calQstatus q) calQstatus_RUN_FAIL).count (calRunFails q)
  let t := (t.setFld (sliceCal q sb) sliceCal_FIRST 0).raise (728 + q) 0xA [sb]
  if n < 3 then t.setFld (sliceCal q sb) sliceCal_FAILS n else t.retireSlice q sb 5

/-- A run whose offset and gain pass (R134): it counts as completed and as the slice's latest (R99, R157), with or without a target
(without: DESIGN CHOICE, log entry 69). -/
def State.passRun (s : State) (q sb : Nat) : State :=
  let t := (s.setFld (sliceCal q sb) sliceCal_FAILS 0).count (calRuns q)
  let t := (t.setFld (sliceCal q sb) sliceCal_FIRST 0).setFld (sliceCal q sb) sliceCal_TEMP (ux 16 (s.quadTemp q))
  { t with pool := { t.pool with
      lastRun := FMap.set (fun _ => 0) t.pool.lastRun (36 * q + sb) (t.pool.runs + 1), runs := t.pool.runs + 1 } }

/-- Whether a run's offset and gain pass (R134, R147). -/
def State.runPasses (s : State) (q sb : Nat) (r : Run) : Bool :=
  judgeSlice (s.bit (sliceCal q sb) sliceCal_FIRST) r.ofs (sx 13 (s.fld (sOfs q sb) sOfs_OFS)) r.gain
    (s.fld (sGain q sb) sGain_GAIN) == 0

/-- A run judged at its end (R132–R134, R148): on target `i`, where the standby keeps its own skew and taps if they are not estimated or
fail. -/
def State.judgeRun (s : State) (q sb i : Nat) (r : Run) (pts : List TrackPt) : State :=
  if !s.runPasses q sb r then s.failRun q sb
  else
    let first := s.bit (sliceCal q sb) sliceCal_FIRST
    let skew0 := sx 11 (s.fld (sSkew q sb) sSkew_SKEW)
    let (hm, hp) := (sx 16 (s.fld (sBw q sb) sBw_HM), sx 16 (s.fld (sBw q sb) sBw_HP))
    let (k, j) := (s.fld (slice q i) slice_CHAN, s.fld (slice q i) slice_POS)
    let z := pts.foldl (fun z p => s.fitPoint q sb k j r p z) ⟨0, 0, 0, 0, 0⟩
    let end_ (t : State) (x : Option (Int × Int)) : State := t.setRun q (some { r with done := true, complete := true, track := x })
    let t := s.passRun q sb
    if !estimated z pts then end_ (t.setFld (calQstatus q) calQstatus_SKEW_SUSP 1) none
    else
      let t := t.setFld (calQstatus q) calQstatus_SKEW_SUSP 0
      let (x, t) : (Int × Int) × State := match z.solve (s.chanCount q k) skew0 hm with
        | some x => (x, t)
        | none => (((t.free.1 : Int), (t.free.2.free.1 : Int)), t.free.2.free.2)
      if judgeTrack first x.1 skew0 x.2 hm hp ≠ 0 then (end_ t none).raise (728 + q) 0xB [sb] else end_ t (some x)

/-- The measurement of a step taken into the run (R130–R135). A run without a target is judged and over after REFN. -/
def State.measure (s : State) (q sb : Nat) (r : Run) (x : RunSums) : State :=
  match r.step, x with
  | 1, .ref m => s.setRun q (some { r with m0 := m, done := true })
  | 2, .ref m => s.setRun q (some { r with mp := m, done := true })
  | 3, .ref m =>
    let r := { r with mn := m, done := true, ofs := refOffset r.m0 (s.cal.otp.e0Of q),
                      gain := refGain r.mp m (s.cal.otp.epOf q) (s.cal.otp.enOf q) }
    if r.target.isSome then s.setRun q (some r)
    else if s.runPasses q sb r then (s.passRun q sb).dropRun q else s.failRun q sb
  | 4, .track pts => match r.target with
    | some i => s.judgeRun q sb i r pts
    | none => s
  | _, _ => s

/-- STANDBY_RUN_STEP (R130–R135): the last tick of a step, with what it measured. -/
def execStandbyRunStep (q : Nat) (sums : RunSums) (s : State) : Result :=
  .next (match s.runOf q, s.standby q with
    | some r, some sb => if !s.clocked ∨ !s.deogen ∨ r.done ∨ !r.own ∨ r.left ≠ 1 then s else s.measure q sb r sums
    | _, _ => s)

/-- A slice's correction registers set (R103). -/
def State.putSlice (s : State) (q i : Nat) (c : SliceCor) : State :=
  let t := (s.setFld (sOfs q i) sOfs_OFS c.ofs).setFld (sGain q i) sGain_GAIN c.gain
  let t := (t.setFld (sBw q i) sBw_HM c.bw).setFld (sBw q i) sBw_HP (c.bw / 0x10000)
  t.setFld (sSkew q i) sSkew_SKEW c.skew

/-- The stored values that wait for a slice dropped: its first exchange has come (R154). -/
def State.dropLate (s : State) (x : Nat) : State :=
  { s with cal := { s.cal with late := FMap.set (fun _ => none) s.cal.late x none } }

/-- The stored values of a slice, taken at its first exchange where the bisque service had it on OTP values (R154). -/
def State.takeLate (s : State) (x : Nat) : State :=
  match FMap.get (fun _ => none) s.cal.late x with
  | none => s
  | some c => (s.dropLate x).putSlice (x / 36) (x % 36) c

/-- The exchange of R100: the standby takes the target's place with the corrections of its run; none while rotation is held (R102). -/
def State.exchange (s : State) (q : Nat) : State :=
  match s.runOf q, s.standby q with
  | some r, some sb =>
    match r.target with
    | some i =>
      if !r.complete || s.rotHeld q || s.cal.upset.contains q then s
      else if s.sliceState q i ≠ 2 then s.dropRun q
      else
        let (k, j) := (s.fld (slice q i) slice_CHAN, s.fld (slice q i) slice_POS)
        let t := s.setFld (sOfs q sb) sOfs_OFS (ux 13 r.ofs)
        let t := t.setFld (sGain q sb) sGain_GAIN r.gain.toNat
        let t := match r.track with
          | some (skew, tap) =>
            ((t.setFld (sBw q sb) sBw_HM (ux 16 tap)).setFld (sBw q sb) sBw_HP (ux 16 tap)).setFld (sSkew q sb) sSkew_SKEW (ux 11 skew)
          | none => t
        let t := ((t.seat q sb k j (s.chanCount q k)).setSlice q i 3 0 0 0).dropRun q
        ({ t with cal := { t.cal with changed := true } }.dropLate (36 * q + sb)).takeLate (36 * q + i)
    | none => s
  | _, _ => s

/-! ### Temperature requests (R126) -/

/-- Deogen's temperature requests at a boundary (R126, R119); TEMP_PERIOD shows P from the first of them on (R158; DESIGN CHOICE, log
entry 70). -/
def State.tempRequests (s : State) : State :=
  let p := s.tempPeriodOf
  let s := s.setReg tempPeriod (BitVec.ofNat 32 p)
  if s.time.tick % p ≠ 0 then s
  else foldBelow (fun q t =>
    let mon := if (t.time.tick / p) % 4 = 3 ∧ q < 8 then 1 else 0
    if t.powerOf q ≠ .on then t
    else match t.injError q mon with
      | 0 | 1 => t.injAccept q ⟨mon, 0, false, 0, t.time.bounds⟩
      | code =>
        let t := ((t.setFlag (injStatus q) injStatus_REFUSED).setFld (injStatus q) injStatus_ERR code).raise (728 + q) 6
          [code] 0
        if mon = 0 then t.noReading q else t) s.part.quads s

/-! ### Channel runs (R137–R149) -/

/-- The ATT and PGA setting of a channel in force, as the key of its factory and pilot values. -/
def State.setting (s : State) (q k : Nat) : Nat :=
  64 * (4 * q + k) + 32 * s.cur (chCtrl q k) chCtrl_ATT + s.cur (chCtrl q k) chCtrl_PGA

/-- A channel's coefficients put into force. -/
def State.setChanCor (s : State) (q k : Nat) (ofs gain : Int) : State :=
  (s.setFld (cOfs q k) cOfs_OFS (ux 13 ofs)).setFld (cGain q k) cGain_GAIN (ux 18 gain)

/-- Whether the next result of a channel is judged against range limits only (R147). -/
def State.rangeOnly (s : State) (c : Nat) : Bool := !FMap.get (fun _ => false) s.cal.rangeDone c

/-- The mark of R147 set or cleared. -/
def State.setRangeOnly (s : State) (c : Nat) (b : Bool) : State :=
  { s with cal := { s.cal with rangeDone := FMap.set (fun _ => false) s.cal.rangeDone c (!b) } }

/-- The hold-off of R137: a channel whose run failed or was abandoned is not tried again for 10 × P ticks; or its end. -/
def State.setHoldoff (s : State) (c : Nat) (b : Bool) : State :=
  let n := if b then s.time.bounds + 10 * s.tempPeriodOf else 0
  { s with cal := { s.cal with holdoff := FMap.set (fun _ => 0) s.cal.holdoff c n } }

/-- Whether a channel's hold-off is still to run. -/
def State.heldOff (s : State) (c : Nat) : Bool := decide (s.time.bounds < FMap.get (fun _ => 0) s.cal.holdoff c)

/-- A channel run abandoned (R151). -/
def State.abandon (s : State) (q k : Nat) : State :=
  let t := (s.setFld (chCalStatus q k) chCalStatus_LAST_RESULT 4).setFld (chCalStatus q k) chCalStatus_RUNNING 0
  ((t.setHoldoff (4 * q + k) true).makeDue q k).raise (449 + 2 * (4 * q + k)) 4

/-- A pilot run abandoned. -/
def State.dropPilot (s : State) (q : Nat) : State :=
  match s.pilotOf q with
  | some r => ((s.setPilot q none).setFld (pilotStatus q) pilotStatus_RUNNING 0).abandon q r.chan
  | none => s

/-- The factory coefficients of a setting at the present quad temperature (R138). A quad that has no usable temperature takes them
unadjusted (DESIGN CHOICE, log entry 61). The adjustment is rounded to the nearest code, ties to even (DESIGN CHOICE, log entry 105). -/
def State.otpChan (s : State) (q k : Nat) : Int × Int :=
  let x := s.cal.otp.chan (4 * q + k) (s.cur (chCtrl q k) chCtrl_ATT) (s.cur (chCtrl q k) chCtrl_PGA)
  let dt := if s.fld (calQtemp q) calQtemp_SRC = 0 then 0 else s.quadTemp q - s.cal.otp.factoryTemp
  (x.ofs + roundEven (x.ofsTc * dt) 16000, x.gain + roundEven (x.gainTc * dt) 16000)

/-- An AFE change of channel `k` in force (R137, R138, R151): a result found at the old setting is dropped. Deogen's own changes of INSEL,
for a foreground run or the pilot, are none of R137's (DESIGN CHOICE, log entry 60). -/
def State.afeChanged (s : State) (q k : Nat) : State :=
  let t := if (s.pilotOf q).any (fun r => r.chan == k) then s.dropPilot q else s
  let (o, g) := t.otpChan q k
  let t := (t.setChanCor q k o g).setFld (chCalStatus q k) chCalStatus_METHOD 3
  let t := { t with cal := { t.cal with changed := true, result := FMap.set (fun _ => none) t.cal.result (4 * q + k) none } }
  (t.setRangeOnly (4 * q + k) true).makeDue q k

/-- Waiting left: PENDING and the CAL.PENDING bit cleared. -/
def State.setPending (s : State) (q k b : Nat) : State :=
  let c := 4 * q + k
  (s.setFld (chCalStatus q k) chCalStatus_PENDING b).setFld (if c < 32 then pendingLo else pendingHi)
    ⟨c % 32, c % 32⟩ b

/-- A channel result in force from a timestamp on (R149). One that measured the offset only leaves the channel due and T_last as it was
(R128, R137, R141). -/
def State.applyChan (s : State) (q k : Nat) (r : ChResult) (tick sub : Nat) : State :=
  let t := s.setChanCor q k r.ofs r.gain
  let t := (t.setPair (chCalTickLo q k) (chCalTickHi q k) tick).setReg (chCalSubtick q k) (BitVec.ofNat 32 sub)
  let t := (t.setFlag (chCalStatus q k) chCalStatus_APPLIED).setFld (chCalStatus q k) chCalStatus_LAST_RESULT r.result
  let t := if r.result = 5 then t
    else ((t.setFld (chCalTemp q k) chCalTemp_T (ux 16 r.temp)).setFld (chCalStatus q k) chCalStatus_DUE 0).setPending q k 0
  let t := { t with cal := { t.cal with changed := true, result := FMap.set (fun _ => none) t.cal.result (4 * q + k) none } }
  (t.setRangeOnly (4 * q + k) false).raise (449 + 2 * (4 * q + k)) 2

/-- A result that fails its limits (R148). -/
def State.failChan (s : State) (q k code : Nat) : State :=
  let t := (s.setFlag (chCalStatus q k) chCalStatus_FAIL).setFld (chCalStatus q k) chCalStatus_LAST_RESULT code
  ((t.setHoldoff (4 * q + k) true).setRangeOnly (4 * q + k) false).raise (449 + 2 * (4 * q + k)) 3

/-- Results that wait for the boundary (R149). -/
def State.applyResults (s : State) (q : Nat) : State :=
  foldBelow (fun k t => match FMap.get (fun _ => none) t.cal.result (4 * q + k) with
    | some r => t.applyChan q k r t.time.tick 0
    | none => t) 4 s

/-! #### Foreground runs (R140–R142) -/

/-- The least number above `lo` and up to `hi` that a test accepts, where it accepts every larger one: found by halving `n` times. -/
def bisect (p : Nat → Bool) : Nat → Nat → Nat → Nat
  | _, hi, 0 => hi
  | lo, hi, n + 1 =>
    let m := (lo + hi) / 2
    if p m then bisect p lo m n else bisect p (m + 1) hi n

/-- The integer nearest to `num / den` × 10^(−pga / 20). -/
def timesGain (num den pga : Nat) : Nat :=
  bisect (fun n => decide ((2 * num) ^ 20 ≤ ((2 * n + 1) * den) ^ 20 * 10 ^ pga)) 0 (num / den + 1) 40

/-- The DAC code at attenuator step `att` for a level of 0.4 × full scale at the ball (R53, R79, R141), from the DAC gain of OTP: 0.8 of the
codes of the full scale. Its last bit is not stated: the nearest code (DESIGN CHOICE, log entry 62). -/
def State.levelCode (s : State) (q k att : Nat) : Nat :=
  timesGain (8 * 2 ^ s.cur (chCtrl q k) chCtrl_ATT * 10 ^ att * s.cal.otp.dacGainOf q att) 10 (s.cur (chCtrl q k) chCtrl_PGA)

/-- The attenuation of a foreground run: the largest step at which the level needs no more than 32,767 codes (R141). Where it needs more
even at 0 dB, the run goes on at 0 dB with code 32,767 (DESIGN CHOICE, log entry 62). -/
def State.fgAtten (s : State) (q k : Nat) : Nat := ([3, 2, 1].find? (fun a => decide (s.levelCode q k a ≤ 32767))).getD 0

/-- The CALREF level not above 0.4 × full scale: 5 (400 mV), 3 (225 mV), 1 (125 mV), or none (R53, R83, R141). -/
def fgCalref (att pga : Nat) : Option Nat :=
  if (if att = 1 then pga ≤ 6 else pga = 0) then some 5
  else if (if att = 1 then pga ≤ 11 else pga ≤ 4) then some 3
  else if (if att = 1 then pga ≤ 16 else pga ≤ 10) then some 1
  else none

/-- The source of a foreground run set for a level: 0 zero, 1 positive, 2 negative (R140, R141). -/
def State.fgSource (s : State) (q : Nat) (r : FgRun) (level : Nat) : State :=
  let a := s.fgAtten q r.chan
  let code : Int := min 32767 (s.levelCode q r.chan a)
  let l := (fgCalref (s.cur (chCtrl q r.chan) chCtrl_ATT) (s.cur (chCtrl q r.chan) chCtrl_PGA)).getD 0
  if r.dac then ((s.setCur (dacCtrl q) dacCtrl_SRC 1).setCur (dacCtrl q) dacCtrl_ATT a).setCur (dacCode q) dacCode_CODE
    (match level with | 0 => 0 | 1 => ux 16 code | _ => ux 16 (-code))
  else s.setFld (calrefCtrl q) calrefCtrl_LEVEL (match level with | 0 => 0 | 1 => l | _ => l + 1)

/-- Deogen's own changes at a boundary: matrix commands and settings of INSEL by channel, with the settling windows that they open on
every path they touch (R74, R57). -/
def State.mxForce (s : State) (q : Nat) (cs : List MxCmd) (sel : List (Nat × Nat) := []) : State :=
  let ws := wiresDo (s.wires q) cs
  let chg := sel.filterMap (fun x => if s.cur (chCtrl q x.1) chCtrl_INSEL = x.2 then none else some (x.1, 400))
  let t := sel.foldl (fun t x => t.setCur (chCtrl q x.1) chCtrl_INSEL x.2) s
  (t.setWires q ws).openWindows q (chg ++ wireChanges (s.wires q) ws) ((List.range 4).map (s.path q))

/-- The terminal of a foreground run's source. -/
def FgRun.term (r : FgRun) : Nat := if r.dac then 12 else 13

/-- A foreground run begun at boundary a (R140, R141). -/
def State.beginFg (s : State) (q : Nat) (r : FgRun) : State :=
  let k := r.chan
  let dac := !s.dacUsed q
  let small := (fgCalref (s.cur (chCtrl q k) chCtrl_ATT) (s.cur (chCtrl q k) chCtrl_PGA)).isNone
  let r : FgRun := ⟨k, true, 0, s.stepTicks, true, false, 0, 0, 0, dac, !dac && small, s.quadTemp q,
    s.cur (chCtrl q k) chCtrl_INSEL, s.oldReg (dacCtrl q), s.oldReg (dacCode q)⟩
  let t := s.setFld (chStatus q k) chStatus_CAL_HOLD 1
  let t := if dac then t.setFld (dacStatus q) dacStatus_BUSY_CAL 1 else t
  let t := (t.setFg q (some r)).fgSource q r 0
  let t := t.mxForce q [⟨0, 31, r.term⟩, ⟨0, 31, 8 + k⟩] [(k, 1)]
  let t := t.setFld (calQstatus q) calQstatus_FG_ACTIVE 1
  let t := (t.setFld (calQstatus q) calQstatus_FG_CHAN k).setPending q k 0
  (t.setFld (chCalStatus q k) chCalStatus_RUNNING 1).setFld (chCalStatus q k) chCalStatus_METHOD 1

/-- A register's word in force put back: a host write that waits still comes into force after it. -/
def State.putBack (s : State) (off : Nat) (w : Word) : State :=
  match FMap.get (fun _ => none) s.rwtOld off with
  | none => s.setReg off w
  | some _ => { s with rwtOld := FMap.set (fun _ => none) s.rwtOld off (some w) }

/-- What a foreground run changed put back (R140). -/
def State.restoreFg (s : State) (q : Nat) (r : FgRun) : State :=
  let k := r.chan
  let t := s.setFg q none
  if !r.begun then t
  else
    let t := (t.setFld (chStatus q k) chStatus_CAL_HOLD 0).mxForce q [⟨1, 31, r.term⟩, ⟨1, 31, 8 + k⟩] [(k, r.insel)]
    let t := if r.dac then ((t.putBack (dacCtrl q) r.dacCtrl).putBack (dacCode q) r.dacCode).setFld (dacStatus q)
        dacStatus_BUSY_CAL 0 else t.setFld (calrefCtrl q) calrefCtrl_LEVEL 0
    (t.setFld (calQstatus q) calQstatus_FG_ACTIVE 0).setFld (chCalStatus q k) chCalStatus_RUNNING 0

/-- A foreground run abandoned (R151). -/
def State.dropFg (s : State) (q : Nat) : State :=
  match s.fgOf q with
  | some r => if r.begun then (s.restoreFg q r).abandon q r.chan else s.setFg q none
  | none => s

/-- FOREGROUND_RUN_STEP (R140): the last tick of a level, with the sum of 4,096 u values in 2⁻⁸ LSB. -/
def execForegroundRunStep (q : Nat) (sum : Int) (s : State) : Result :=
  .next (match s.fgOf q with
    | some r =>
      if !s.clocked ∨ !s.deogen ∨ !r.begun ∨ r.done ∨ !r.own ∨ r.left ≠ 1 then s
      else s.setFg q (some (match r.level with
        | 0 => { r with m0 := sum, done := true }
        | 1 => { r with mp := sum, done := true }
        | _ => { r with mn := sum, done := true }))
    | none => s)

/-- The offset of R142: the CH_OFFSET shift is 4.096 codes per step. -/
def fgOffset (m0 ofs : Int) : Int := roundEven (4 * (1000 * m0 - 4096 * ofs * 1048576)) 1048576000

/-- The gain of R142; a span that is not positive has no gain within range. -/
def fgGain (mp mn : Int) : Int :=
  if mp - mn ≤ 0 then 0 else roundEven (131072 * 524288 * 1048576) (10 * (mp - mn)).toNat

/-- Boundary e of a foreground run: results judged and applied, settings restored (R140, R142, R147, R149). -/
def State.endFg (s : State) (q : Nat) (r : FgRun) : State :=
  let k := r.chan
  let first := s.rangeOnly (4 * q + k)
  let ofs0 := sx 13 (s.fld (cOfs q k) cOfs_OFS)
  let gain0 : Int := s.fld (cGain q k) cGain_GAIN
  let ofs := fgOffset r.m0 (sx 12 (s.cur (chOffset q k) chOffset_OFS))
  let gain := if r.refOnly then gain0 else fgGain r.mp r.mn
  let t := s.restoreFg q r
  match judgeChan first ofs ofs0 gain gain0 with
  | 0 => t.applyChan q k ⟨ofs, gain, r.temp, if r.refOnly then 5 else if first then 6 else 1⟩ t.time.tick 0
  | code => t.failChan q k code

/-- What the tick that ends did for a foreground run: a tick of the level used, or none. -/
def FgRun.useTick (r : FgRun) : FgRun :=
  if r.own && decide (1 < r.left) then { r with left := r.left - 1, own := false } else { r with own := false }

/-- A foreground run at a boundary: begun, moved on, or ended (R140, R136, R102). A graph that takes its channel or its DAC abandons it at
the graph's own boundary (R151). -/
def State.fgTick (s : State) (q : Nat) : State :=
  match s.fgOf q with
  | none => s
  | some r0 =>
    let r := r0.useTick
    let level (x : Nat) (own : Bool) : State :=
      (s.setFg q (some { r with level := x, left := s.stepTicks, own := own, done := false })).fgSource q r x
    if !r.begun then
      (if (s.standby q).isNone || s.rotHeld q || s.chanUsed (4 * q + r.chan) then s.setFg q none else s.beginFg q r)
    else if (s.standby q).isNone || s.rotHeld q || s.cal.upset.contains q then level 0 (!s.rotHeld q && (s.standby q).isSome && !s.serving q)
    else if r0.own && r.left == 1 && r.done then
      (if r.level = 2 ∨ r.refOnly then s.endFg q r else level (r.level + 1) (!s.serving q))
    else if s.serving q then s.setFg q (some { r with left := s.stepTicks, done := false })
    else s.setFg q (some { r with own := true })

/-! #### Pilot runs (R143–R146) -/

/-- The full scale of a setting in ten-thousandths of a dB above 1 V p-p (R53). -/
def fullScaleDb (att pga : Nat) : Int := 60206 * att - 10000 * pga

/-- Whether channel `k` opted into the pilot (PILOT_STATUS.OPTED). -/
def State.opted (s : State) (q k : Nat) : Bool := bitOf (s.fld (pilotStatus q) pilotStatus_OPTED) k == 1

/-- The full scale of a channel in force. -/
def State.fullScale (s : State) (q k : Nat) : Int :=
  fullScaleDb (s.cur (chCtrl q k) chCtrl_ATT) (s.cur (chCtrl q k) chCtrl_PGA)

/-- The smallest full scale among the opted channels. -/
def State.leastScale (s : State) (q : Nat) : Int :=
  ((List.range 4).filter (s.opted q)).foldl (fun m k => min m (s.fullScale q k)) 1000000

/-- Whether a channel is opted in and the tone, as it was set up, is strong enough on it: not below −72 dBFS (R144). -/
def State.toneReaches (s : State) (q k : Nat) : Bool :=
  s.opted q k && decide (s.fullScale q k - FMap.get (fun _ => 0) s.cal.tone q ≤ 120000)

/-- Of the channels that graphs opt in, as bits, those that the tone will reach: the others are treated as not opted (R144). -/
def State.reached (s : State) (q bits : Nat) : Nat :=
  let ks := (List.range 4).filter (fun k => bitOf bits k == 1)
  let least := ks.foldl (fun m k => min m (s.fullScale q k)) 1000000
  ((ks.filter (fun k => decide (s.fullScale q k - least ≤ 120000))).map (fun k => 2 ^ k)).foldl (· + ·) 0

/-- FTW of the pilot tone (R144). -/
def pilotFtw (lo hi : Nat) : Nat := (roundEven ((lo + hi : Nat) * 2 ^ 32) 1000000).toNat

/-- Attenuator step and AMP of the pilot tone for channel `k`: −60 dBFS at the ball, as the nearest code (R144, R152). The rule states no
attenuation: 60 dB, or 40 dB where AMP would exceed 32,767 (DESIGN CHOICE, log entry 63). -/
def State.pilotAmp (s : State) (q k : Nat) : Nat × Nat :=
  let amp (a : Nat) : Nat := timesGain (2 ^ s.cur (chCtrl q k) chCtrl_ATT * 10 ^ a * s.cal.otp.dacGainOf q a) 1000
    (s.cur (chCtrl q k) chCtrl_PGA)
  if amp 3 ≤ 32767 then (3, amp 3) else (2, min 32767 (amp 2))

/-- The tone set up for the opted channels of a quad at a graph start (R144). A foreground run of another channel of the quad, which
needs W31, is abandoned (DESIGN CHOICE, log entry 66). Where another graph holds the DAC already, DAC_LOST is set here (DESIGN CHOICE, log
entry 109). -/
def State.startTone (s : State) (q : Nat) : State :=
  let ks := (List.range 4).filter (s.opted q)
  match ks.find? (fun k => s.fullScale q k == s.leastScale q) with
  | none => s
  | some k =>
    let (att, amp) := s.pilotAmp q k
    let s := { s with cal := { s.cal with tone := FMap.set (fun _ => 0) s.cal.tone q (s.leastScale q) } }
    let t := (s.dropFg q).mxForce q ((if s.dacLive q then [] else [(⟨0, 31, 12⟩ : MxCmd)]) ++ ks.map (fun k => ⟨0, 31, 8 + k⟩))
      (ks.map (fun k => (k, 2)))
    if s.dacLive q then t.setFlag (pilotStatus q) pilotStatus_DAC_LOST
    else
      let t := (t.setCur (dacCtrl q) dacCtrl_SRC 2).setCur (dacCtrl q) dacCtrl_ATT att
      let t := t.setCur (dacToneFreq q) dacToneFreq_FTW
        (pilotFtw (s.fld (pilotGuardLo q) pilotGuardLo_F) (s.fld (pilotGuardHi q) pilotGuardHi_F))
      let t := t.setCur (dacToneAmp q) dacToneAmp_AMP amp
      (t.setFld (pilotStatus q) pilotStatus_TONE_ON 1).setFld (dacStatus q) dacStatus_BUSY_CAL 1

/-- The tone stopped (R144): DACO leaves W31, and SRC is OFF (DESIGN CHOICE, log entry 107). -/
def State.stopTone (s : State) (q : Nat) : State :=
  if !s.bit (pilotStatus q) pilotStatus_TONE_ON then s
  else
    let t := (s.dropPilot q).mxForce q [⟨1, 31, 12⟩]
    let t := (t.setFld (pilotStatus q) pilotStatus_TONE_ON 0).setFld (dacStatus q) dacStatus_BUSY_CAL 0
    t.setCur (dacCtrl q) dacCtrl_SRC 0

/-- A graph claims the DAC (R81, R146): the tone stops, and the opted channels stay on W31. -/
def State.loseDac (s : State) (q : Nat) : State :=
  if s.bit (pilotStatus q) pilotStatus_TONE_ON then (s.stopTone q).setFlag (pilotStatus q) pilotStatus_DAC_LOST else s

/-- A pilot run begun (R145). -/
def State.beginPilot (s : State) (q k : Nat) : State :=
  let t := (s.setPilot q (some ⟨k, s.quadTemp q, s.time.now⟩)).setFld (pilotStatus q) pilotStatus_RUNNING 1
  let t := (t.setFld (pilotStatus q) pilotStatus_RUN_CHAN k).setPending q k 0
  (t.setFld (chCalStatus q k) chCalStatus_RUNNING 1).setFld (chCalStatus q k) chCalStatus_METHOD 2

/-- The timestamp of the channel's first sample after now (R149). -/
def State.nextSample (s : State) (q k : Nat) : Nat × Nat :=
  let st := 16 / max 1 (s.chanCount q k)
  let sub := (s.time.sub / st + 1) * st
  if sub < s.tickLength then (s.time.tick, sub) else (s.time.tick + 1, 0)

/-- A passing pilot result: in force now, or at the next boundary (R149). -/
def State.passPilot (s : State) (q k : Nat) (r : ChResult) : State :=
  if s.bit (chCalCtrl q k) chCalCtrl_CAL_APPLY then
    (let (tick, sub) := s.nextSample q k
     s.applyChan q k r tick sub)
  else { s with cal := { s.cal with result := FMap.set (fun _ => none) s.cal.result (4 * q + k) (some r) } }

/-- The instant at which a pilot run has had its 2²⁰ samples (R145). -/
def State.pilotEnd (s : State) (q : Nat) (r : PilotRun) : Nat := r.from_ + 1048576 * (16 / max 1 (s.chanCount q r.chan))

/-- PILOT_RUN_RESULT (R145): the amplitude measured over 2²⁰ samples, in 2⁻¹⁶ codes. An amplitude of 0 leaves the gain open. -/
def execPilotRunResult (q amp : Nat) (s : State) : Result :=
  .next (match if s.deogen then s.pilotOf q else none with
    | none => s
    | some r =>
      if !s.come (s.pilotEnd q r) then s
      else
      let k := r.chan
      let c := 4 * q + k
      let key := s.setting q k
      let t := (s.setPilot q none).setFld (pilotStatus q) pilotStatus_RUNNING 0
      let t := t.setFld (chCalStatus q k) chCalStatus_RUNNING 0
      let note (t : State) : State :=
        { t with cal := { t.cal with aPrev := FMap.set (fun _ => none) t.cal.aPrev key (some (amp, r.temp)) } }
      match FMap.get (fun _ => none) s.cal.aPrev key with
      | none =>
        let t := (note t).setFld (chCalStatus q k) chCalStatus_LAST_RESULT 5
        ((t.setFld (chCalStatus q k) chCalStatus_DUE 0).setFld (chCalTemp q k) chCalTemp_T (ux 16 r.temp)).setRangeOnly c false
      | some (a0, t0) =>
        let dt := r.temp - t0
        let first := s.rangeOnly c
        let ofs0 := sx 13 (s.fld (cOfs q k) cOfs_OFS)
        let gain0 : Int := s.fld (cGain q k) cGain_GAIN
        let (gain, t) := if amp = 0 then ((t.free.1 : Int), t.free.2)
          else (roundEven (gain0 * a0 * (16000000 + s.cal.otp.tcDacOf * dt)) (16000000 * amp), t)
        let x := s.cal.otp.chan c (s.cur (chCtrl q k) chCtrl_ATT) (s.cur (chCtrl q k) chCtrl_PGA)
        let ofs := ofs0 + roundEven (x.ofsTc * dt) 16000
        match judgeChan first ofs ofs0 gain gain0 with
        | 0 => (note t).passPilot q k ⟨ofs, gain, r.temp, if first then 6 else 1⟩
        | code => (note t).failChan q k code)

/-- The choice of R139 for one due channel. One that qualifies for a run while the quad is at another keeps its turn (R140). One in its
hold-off does not count as waiting (DESIGN CHOICE, log entry 106). -/
def State.chooseMethod (s : State) (q k : Nat) : State :=
  let c := 4 * q + k
  let running := s.bit (chCalStatus q k) chCalStatus_RUNNING
  if !s.bit (chCalStatus q k) chCalStatus_DUE || running || s.heldOff c
      || (FMap.get (fun _ => none) s.cal.result c).isSome || (s.fgOf q).any (fun r => r.chan == k) then s
  else
    let direct := match s.wireOf q (4 + k) with
      | some w => mxWire_HAS_DRIVER.get (s.reg (mxWire q w)) == 1 && mxWire_DRIVER.get (s.reg (mxWire q w)) == k
      | none => false
    if !s.chanUsed c && s.bit calCtrl calCtrl_FG_EN && (s.standby q).isSome && !s.rotHeld q
        && s.fld (pilotStatus q) pilotStatus_OPTED == 0 && direct then
      s.onlyIf (s.fgOf q).isNone (s.setFg q (some ⟨k, false, 0, 0, false, false, 0, 0, 0, false, false, 0, 0, 0, 0⟩))
    else if s.chanUsed c && s.toneReaches q k && s.bit (pilotStatus q) pilotStatus_TONE_ON then
      s.onlyIf (s.pilotOf q).isNone (s.beginPilot q k)
    else if s.bit (chCalStatus q k) chCalStatus_PENDING then s
    else (s.setPending q k 1).raise (449 + 2 * c) 1

/-- The calibration work of a quad at a boundary, after its exchange. -/
def State.calTick (s : State) (q : Nat) : State :=
  let t := (s.applyResults q).fgTick q
  let t := foldBelow (fun k t => t.chooseMethod q k) 4 t
  let t := if t.cal.upset.contains q then t.dropRun q else t
  let t := t.standbyTick q
  { t with cal := { t.cal with upset := t.cal.upset.filter (· != q) } }

/-! ### Requests and the CAL block (R129, R137, R157, R158) -/

/-- A write of CH_CAL_CTRL (R137, R157). -/
def State.writeChCal (s : State) (f q k : Nat) (v : Word) : State :=
  s.allowed (s.ownChan (4 * q + k) == f + 1) f (chCalCtrl q k) v
    (let t := s.writeReg (chCalCtrl q k) chCalCtrlDesc v
     if chCalCtrl_REQ.get v = 1 then (t.makeDue q k).setHoldoff (4 * q + k) false else t)

/-- CH_CAL_REQ (R137). -/
def execChCalReq (f q k : Nat) (v : Word) (s : State) : Result :=
  s.hostWrite (s.onlyIf (s.hasQuad q && decide (k < 4)) (s.writeChCal f q k v))

/-- CAL_RETRY_HOLDOFF_END (R137): 10 × P ticks after a failed or abandoned run. -/
def execCalRetryHoldoffEnd (q k : Nat) (s : State) : Result :=
  .next (s.onlyIf (!s.heldOff (4 * q + k)) (s.setHoldoff (4 * q + k) false))

/-- A write of CAL.CTRL (R129, R158). Where its CAL_CONE is refused, the whole write has no effect (DESIGN CHOICE, log entry 104). -/
def State.writeCalCtrl (s : State) (f : Nat) (v : Word) : State :=
  s.allowed (f == 0) f calCtrl v
    (if calCtrl_CAL_CONE.get v < 2 then
      (s.setFlag calStatus calStatus_CONE_REFUSED).raise 857 1 [calCtrl_CAL_CONE.get v]
     else s.writeReg calCtrl calCtrlDesc v)

/-- CAL_CONE_WRITE (R129). -/
def execCalConeWrite (f : Nat) (v : Word) (s : State) : Result := s.hostWrite (s.writeCalCtrl f v)

/-! ### The flash store (R153–R156) -/

/-- The default of a store's channel record. -/
def blankChan : StoredChan := ⟨0, 0, 0, 0, 0⟩

/-- A stored value, or the OTP value where it lies outside its range (R147, R154). -/
def within (lo hi : Int) (x y : Int) : Int := if lo ≤ x ∧ x ≤ hi then x else y

/-- A channel loaded from its record of the store, where its CH_CTRL word is the stored one (R154). The stored T_last is taken as the
temperature that belongs to the stored A_prev (DESIGN CHOICE, log entry 64). -/
def State.loadStored (s : State) (q k : Nat) (c : StoredChan) : State :=
  if c.ctrl ≠ (s.oldReg (chCtrl q k)).toNat then s
  else
    let o := s.otpChan q k
    let t := s.setChanCor q k (within (-2048) 2048 (sx 13 (c.ofs % 0x2000)) o.1) (within 124518 137626 (c.gain % 0x40000 : Nat) o.2)
    let t := t.setFld (chCalTemp q k) chCalTemp_T c.temp
    if c.aPrev = 0 then t
    else { t with cal := { t.cal with
      aPrev := FMap.set (fun _ => none) t.cal.aPrev (t.setting q k) (some (c.aPrev, sx 16 (c.temp % 0x10000))) } }

/-- The stored values of the bisque channel of a quad, taken when the service ends (R154, R530). -/
def State.takeLateChan (s : State) (q : Nat) : State :=
  match FMap.get (fun _ => none) s.cal.lateChan q with
  | none => s
  | some c => { s with cal := { s.cal with lateChan := FMap.set (fun _ => none) s.cal.lateChan q none } }.loadStored q 0 c

/-- The bytes of a quad's record in the store (R153). -/
def Store.quadBytes (x : Store) (q : Nat) : List Byte :=
  (List.range 36).flatMap (fun i =>
      let c := FMap.get (fun _ => ⟨0, 0, 0, 0⟩) x.slices (36 * q + i)
      leBytes 4 c.ofs ++ leBytes 4 c.gain ++ leBytes 4 c.bw ++ leBytes 4 c.skew)
    ++ (List.range 4).flatMap (fun k =>
      let c := FMap.get (fun _ => blankChan) x.chans (4 * q + k)
      leBytes 4 c.ofs ++ leBytes 4 c.gain ++ leBytes 4 c.ctrl ++ leBytes 4 c.temp ++ leBytes 4 c.aPrev ++ leBytes 12 0)
    ++ (List.range 36).flatMap (fun i => leBytes 2 (FMap.get (fun _ => 0) x.temps (36 * q + i)))
    ++ leBytes 248 0

/-- A copy of the store as it stands in the flash, but for CHECK (R153). -/
def Store.body (x : Store) : List Byte :=
  leBytes 4 0x53544341 ++ leBytes 4 1 ++ leBytes 4 x.idcode ++ leBytes 4 x.gen ++ leBytes 8 x.device ++ leBytes 4 0x4000 ++ leBytes 4 0
    ++ (List.range 16).flatMap x.quadBytes

/-- What the bytes of a copy say (R153). -/
def storeOf (bs : List Byte) : Store :=
  let at_ (q x n : Nat) : Nat := leAt bs (0x20 + 0x400 * q + x) n
  ⟨leAt bs 0xC 4, leAt bs 8 4, leAt bs 0x10 8,
    FMap.ofFn (fun _ => ⟨0, 0, 0, 0⟩) 576 (fun j =>
      let (q, x) := (j / 36, 0x10 * (j % 36))
      ⟨at_ q x 4, at_ q (x + 4) 4, at_ q (x + 8) 4, at_ q (x + 12) 4⟩),
    FMap.ofFn (fun _ => blankChan) 64 (fun c =>
      let (q, x) := (c / 4, 0x240 + 0x20 * (c % 4))
      ⟨at_ q x 4, at_ q (x + 4) 4, at_ q (x + 8) 4, at_ q (x + 12) 4, at_ q (x + 16) 4⟩),
    FMap.ofFn (fun _ => 0) 576 (fun j => at_ (j / 36) (0x2C0 + 2 * (j % 36)) 2)⟩

/-- The flash offset of copy 1 (A) or 2 (B) (R153). -/
def storeBase (copy : Nat) : Nat := if copy = 1 then 0x0F000000 else 0x0F800000

/-- Whether a copy in the flash counts as valid on this device (R154). -/
def State.storeOk (s : State) (copy : Nat) : Bool :=
  let head := s.flashBytes (storeBase copy) 0x18
  leAt head 0 4 == 0x53544341 && leAt head 4 4 == 1 && leAt head 8 4 == s.part.idcode && leAt head 0x10 8 == s.cal.otp.device
    && (let bs := s.flashBytes (storeBase copy) 0x4024
        leAt bs 0x4020 4 == crc32c (bs.take 0x4020))

/-- The generation of a copy. -/
def State.storeGenOf (s : State) (copy : Nat) : Nat := leAt (s.flashBytes (storeBase copy + 0xC) 4) 0 4

/-- The newest valid generation, 0 when none. -/
def State.newestGen (s : State) : Nat :=
  max (if s.storeOk 1 then s.storeGenOf 1 else 0) (if s.storeOk 2 then s.storeGenOf 2 else 0)

/-- The store as the coefficients stand (R153, R155). -/
def State.storeImage (s : State) : Store :=
  let nq := s.part.quads
  ⟨s.newestGen + 1, s.part.idcode, s.cal.otp.device,
    FMap.ofFn (fun _ => ⟨0, 0, 0, 0⟩) (36 * nq) (fun x =>
      let (q, i) := (x / 36, x % 36)
      ⟨(s.reg (sOfs q i)).toNat, (s.reg (sGain q i)).toNat, (s.reg (sBw q i)).toNat, (s.reg (sSkew q i)).toNat⟩),
    FMap.ofFn (fun _ => blankChan) (4 * nq) (fun c =>
      let (q, k) := (c / 4, c % 4)
      ⟨(s.reg (cOfs q k)).toNat, (s.reg (cGain q k)).toNat, (s.oldReg (chCtrl q k)).toNat,
        s.fld (chCalTemp q k) chCalTemp_T, ((FMap.get (fun _ => none) s.cal.aPrev (s.setting q k)).map (·.1)).getD 0⟩),
    FMap.ofFn (fun _ => 0) (36 * nq) (fun x => s.fld (sliceCal (x / 36) (x % 36)) sliceCal_TEMP)⟩

/-- The copy that the next write goes to: the one that does not hold the newest valid generation (R155). -/
def State.nextCopy (s : State) : Nat := if s.storeOk 1 && s.storeGenOf 1 == s.newestGen then 2 else 1

/-- A store write that falls due (R155, R156), with the coefficients as they stand; the ROM writes none (R525). -/
def State.storeDue (s : State) : State :=
  if s.cal.image.isSome || s.romAlone || !s.deogen then s
  else { s.setFld calStatus calStatus_STORE_BUSY 1 with cal := { s.cal with image := some s.storeImage, changed := false } }

/-- Whether STORE_INTERVAL seconds have passed since the last write, or since t0 where there has been none (R155; DESIGN CHOICE, log entry
67). -/
def State.intervalOver (s : State) : Bool :=
  let n := s.fld storeInterval storeInterval_SECONDS
  n != 0 && decide (max s.cal.savedAt s.boot.t0 + 2000000000 * n ≤ s.time.now)

/-- STORE_INTERVAL_EXPIRY (R155). -/
def execStoreIntervalExpiry (s : State) : Result :=
  .next (s.onlyIf (s.bit calCtrl calCtrl_STORE_EN && s.cal.changed && s.intervalOver) s.storeDue)

/-- A write of STORE_CMD (R155, R156, R158). -/
def State.writeStoreCmd (s : State) (f : Nat) (v : Word) : State :=
  s.allowed (f == 0) f storeCmd v
    (if storeCmd_SAVE.get v = 0 then s
     else if s.cal.image.isSome then { s with cal := { s.cal with saveAgain := true } } else s.storeDue)

/-- SAVE (R155). -/
def execSave (f : Nat) (v : Word) (s : State) : Result := s.hostWrite (s.writeStoreCmd f v)

/-- A copy of the store erased and programmed (R153, R155). -/
def State.programStore (s : State) (copy : Nat) (x : Store) : State :=
  (s.eraseFlash (storeBase copy) 0x4024).programFlash (storeBase copy) (x.body ++ leBytes 4 (crc32c x.body))

/-- STORE_WRITE_DONE (R155, R156): the read-back passes or fails; the write waits while the flash is at other work. A copy whose check
fails is left erased (DESIGN CHOICE, log entry 67), and its changes wait for the next interval. ACTIVE_COPY keeps its value from boot
(DESIGN CHOICE, log entry 110). -/
def execStoreWriteDone (ok : Bool) (s : State) : Result :=
  .next (match s.cal.image with
    | none => s
    | some im =>
      if s.flashBusy || !s.deogen then s else
      let c := s.nextCopy
      let t := { s with cal := { s.cal with image := none, saveAgain := false, changed := s.cal.changed || !ok, savedAt := s.time.now } }
      let t := t.setFld calStatus calStatus_STORE_BUSY 0
      let t := if ok then (t.programStore c im).setReg storeGen (BitVec.ofNat 32 im.gen)
        else ((t.eraseFlash (storeBase c) 0x4024).setFlag calStatus calStatus_STORE_FAIL).raise 857 3 [storeBase c]
      if s.cal.saveAgain then t.storeDue else t)

end Sys2Proof.Machine
end

