-- ==== Sys2Proof/Machine/Routes.lean ====
section
/-! DEFINITION. Network interfaces, the links of routes and the choice of a route (R271, R275, R365, R374, R381). -/

namespace Sys2Proof.Machine

open Regs

/-! ### Network interfaces (R365) -/

/-- The NI of a chain (R365). -/
def niChain (n : Nat) : Nat := if n < 64 then 4 * n else 4 * (n - 64) + 2
/-- The NI of a core. -/
def niCore (n : Nat) : Nat := if n < 64 then 4 * n + 1 else 4 * (n - 48) + 2
/-- The NI of a sagger: its first or its second. -/
def niSagger (s half : Nat) : Nat := 4 * (24 + 2 * s + half) + 2
/-- The NI of a chip link. -/
def niLink (l : Nat) : Nat := 4 * (56 + l) + 2
/-- The NI of a quad. -/
def niQuad (q : Nat) : Nat := 4 * q + 3
/-- The NI of a capture memory port. -/
def niPort (p : Nat) : Nat := 4 * (16 + p) + 3
/-- The NI of a host DMA engine. -/
def niEngine (e : Nat) : Nat := 4 * (48 + e) + 3

/-- The power domain of an NI (R365). -/
def niDomain (n : Nat) : Nat :=
  let (r, j) := (n / 4, n % 4)
  if j = 1 then 32 + r / 8
  else if j = 2 then (if 16 ≤ r ∧ r < 24 then 32 + (48 + r) / 8 else if 24 ≤ r ∧ r < 56 then 16 + (r - 24) / 2 else 43)
  else if j = 3 then (if r < 16 then r else if r < 48 then 41 else 42)
  else 43

/-- The FIFOs of a domain's NIs reset, while it is unpowered. -/
def State.resetBridges (s : State) (d : Nat) : State :=
  { s with noc := { s.noc with bridge := s.noc.bridge.filter (fun e => niDomain (e.1 / 2) != d) } }

/-! ### Hops and links (R271, R374) -/

/-- The distance along a ring of 8 and the hops that take it: the shorter way, and the first of the two on a tie (R374). -/
def ringHops (from_ to_ up down : Nat) : List Nat :=
  let d := (to_ + 8 - from_) % 8
  if d ≤ 4 then List.replicate d up else List.replicate (8 - d) down

/-- The hops from NI to NI: along x and then y, or `yFirst` (R275, R374), ending in the eject. -/
def hopsOf (src dst : Nat) (yFirst : Bool) : List Nat :=
  let (r, t) := (src / 4, dst / 4)
  let xs := ringHops (r % 8) (t % 8) 0 1
  let ys := ringHops (r / 8) (t / 8) 2 3
  (if yFirst then ys ++ xs else xs ++ ys) ++ [4 + dst % 4]

/-- The directed links of a route: 256 + n into the router of NI n, 4r + p from port p of router r, 512 + n out to NI n. -/
def linksOf (src : Nat) (hops : List Nat) : List Nat :=
  let step (a : Nat × List Nat) (h : Nat) : Nat × List Nat :=
    let r := a.1
    let (x, y) := (r % 8, r / 8)
    match h with
    | 0 => (8 * y + (x + 1) % 8, a.2 ++ [4 * r])
    | 1 => (8 * y + (x + 7) % 8, a.2 ++ [4 * r + 1])
    | 2 => (8 * ((y + 1) % 8) + x, a.2 ++ [4 * r + 2])
    | 3 => (8 * ((y + 7) % 8) + x, a.2 ++ [4 * r + 3])
    | j => (r, a.2 ++ [512 + 4 * r + (j - 4)])
  (hops.foldl step (src / 4, [256 + src])).2

/-- Whether a torus port is ENABLED (R385). -/
def State.portEnabled (s : State) (k : Nat) : Bool :=
  s.fld (portCtrl (k / 4)) portCtrl_EN / 2 ^ (k % 4) % 2 == 1 && bitsOf (s.fld (portStatus (k / 4)) portStatus_STATE) (2 * (k % 4) + 1) (2 * (k % 4)) == 0

/-- Whether every torus port of a route is ENABLED. -/
def State.routeOpen (s : State) (links : List Nat) : Bool := links.all (fun k => decide (256 ≤ k) || s.portEnabled k)

/-- The units that a link already carries. -/
def linkLoad (edges : List PlacedEdge) (k : Nat) : Nat :=
  ((edges.filter (fun e => (linksOf e.src e.hops).contains k)).map (·.units)).foldl (· + ·) 0

/-- Whether every link of a route has room for `u` more units (R270). -/
def State.linksFit (s : State) (edges : List PlacedEdge) (links : List Nat) (u : Nat) : Bool :=
  links.all (fun k => decide (linkLoad edges k + u ≤ 17 * s.tickDiv))

/-- The units of request buffer that an NI can grant to streams (R381). -/
def niGrants (n : Nat) : Nat :=
  (if (n % 4 = 3 ∧ 16 ≤ n / 4) ∨ (n % 4 = 2 ∧ 56 ≤ n / 4 ∧ n / 4 ≤ 59) then 2048 else 512) - 128

/-- The streams bound at a destination NI. -/
def boundAt (edges : List PlacedEdge) (n : Nat) : Nat := (edges.filter (fun e => e.dst == n)).length

/-- The lowest number below `n` that a list does not hold. -/
def lowestFree (n : Nat) (l : List Nat) : Option Nat := lowest n (fun i => !l.contains i)

/-- Whether an edge is a stream with a route. -/
def PlacedEdge.onNet (e : PlacedEdge) : Bool := !e.ed.analog && !e.hops.isEmpty && !e.stopped

/-- Whether two placed edges are one edge of the graph: the same ports. -/
def PlacedEdge.sameEdge (a b : PlacedEdge) : Bool :=
  a.ed.frm == b.ed.frm && a.ed.fromPort == b.ed.fromPort && a.ed.to_ == b.ed.to_ && a.ed.toPort == b.ed.toPort

/-- The edges that a change has removed and that are still released only two boundaries later (R280, R283). -/
def State.leavingEdges (s : State) : List PlacedEdge := (s.wheel.leaving.flatMap (·.edges)).filter PlacedEdge.onNet

/-- The streams of a graph as it stands and as a waiting change has them. -/
def Graph.netEdges (g : Graph) : List PlacedEdge :=
  (g.edges ++ ((g.change.map (fun c => c.edges.filter (fun e => !g.edges.contains e))).getD [])).filter PlacedEdge.onNet

/-- Every stream that counts against budgets. -/
def State.netEdges (s : State) : List PlacedEdge := s.graphs.flatMap Graph.netEdges ++ s.leavingEdges

/-- The hops of an edge that is given other ends (R275, R286, R228, R185): along x first or, where that route's ports are not ENABLED or it
has no room, along y first. Where neither will do, the first of them that is open, else along x: a task or chain that has moved must send
(DESIGN CHOICE, log entry 75). -/
def State.newHops (s : State) (e : PlacedEdge) (src dst : Nat) : List Nat :=
  let others := s.netEdges.filter (fun x => !(x.src == e.src && x.num == e.num && x.dst == e.dst))
  let paths := [hopsOf src dst false, hopsOf src dst true]
  let opened := paths.filter (fun h => s.routeOpen (linksOf src h))
  let fit := opened.filter (fun h => s.linksFit others (linksOf src h) e.units)
  (fit ++ opened ++ paths).headD []

/-- The element of a version that stands for another's ID and kind. -/
def sameId (l : List PlacedElem) (e : PlacedElem) : Option PlacedElem :=
  l.find? (fun o => o.el.id == e.el.id && o.el.kind == e.el.kind)

/-- What a version takes away kept until it is released, two boundaries on (R280, R283): elements that are gone or have other units, but
for tasks that have moved, and streams that have other routes. -/
def State.leaveTo (s : State) (g : Graph) (oe : List PlacedElem) (od : List PlacedEdge) (ne : List PlacedElem) (nd : List PlacedEdge) : State :=
  let es := oe.filter (fun o => match sameId ne o with
    | none => true
    | some e => o.el.kind != 4 && e.unit != o.unit)
  let ds := od.filter (fun o => o.onNet && !nd.any (fun e => o.sameEdge e && o.src == e.src && o.dst == e.dst && o.num == e.num))
  if es.isEmpty && ds.isEmpty then s
  else { s with wheel := { s.wheel with leaving := s.wheel.leaving ++ [⟨s.time.bounds + 2, { g with elems := oe, edges := od }, es, ds⟩] } }

/-- A graph whose placement changes at this boundary: its generation advances by one, however much of it changes (R292). -/
def Graph.advance (g : Graph) (s : State) : Graph :=
  { g with gen := if g.genAt = s.time.bounds then g.gen else g.gen + 1, genAt := s.time.bounds, changeTick := s.time.tick }

/-- MAP_CHANGED of every graph whose placement this boundary has changed (R292, R293): the handle and the new generation. -/
def State.sayMaps (s : State) : State :=
  (s.graphs.filter (fun g => g.genAt == s.time.bounds)).foldl (fun t g => t.raise 858 6 [g.handle, 0xFFFF, g.gen] (g.fn + 1)) s

/-- An edge given other ends. -/
def State.rerouteEdge (s : State) (e : PlacedEdge) (src dst : Nat) : PlacedEdge := { e with src := src, dst := dst, hops := s.newHops e src dst }

end Sys2Proof.Machine
end

