-- ==== Sys2Proof/Machine/Packets.lean ====
section
/-! DEFINITION. Packets and what a sending NI does with them: the header, route tables, request credits and errors
(12_network_on_chip.md, R365–R376, R380–R382). -/

namespace Sys2Proof.Machine

open Regs

/-! ### The header unit (R369) -/

/-- ROUTE of a list of hops (R369). -/
def routeOf : List Nat → Nat
  | [] => 0
  | h :: hs => h + 8 * routeOf hs

/-- The header unit of a packet (R369): its fields in their places, and 0 in the reserved bits. -/
def headerUnit (p : Packet) : NocUnit :=
  let put (lo w v : Nat) : Nat := v % 2 ^ w * 2 ^ lo
  BitVec.ofNat 256 (put 0 39 p.route + put 39 4 p.hop + put 43 6 p.cmd + put 49 7 p.len + put 56 8 p.src + put 64 10 p.tag + put 74 4 p.domain
    + put 79 5 p.lasth + put 84 1 p.epoch + put 88 8 p.aux + put 96 64 p.addr + put 160 9 p.point + put 192 32 p.tick + put 224 32 p.sub)

/-- The data units of a packet (R369): 32 bytes each, the first byte lowest, and 0 behind the last. -/
def bodyUnits (p : Packet) : List NocUnit :=
  (List.range p.len).map (fun i => BitVec.ofNat 256 (leAt p.data (32 * i) 32))

/-- The units of a packet as they follow one another on a link (R366): the header, then the data. -/
def wireUnits (p : Packet) : List NocUnit := headerUnit p :: bodyUnits p

/-- How many units a packet takes. -/
def packetUnits (p : Packet) : Nat := 1 + p.len

/-- Whether a command code is reserved (R371). -/
def reservedCmd (c : Nat) : Bool := !([1, 2, 3, 4, 5, 0x21, 0x22, 0x23, 0x3F].contains c)

/-! ### Errors recorded at an NI (R373, R396) -/

/-- The fault-log entry of a refusal (R373, R474): the requester's owner code, that of the resource, ADDR, destination, SRC, POINT, code and
command. -/
def State.netEntry (s : State) (domain own addr dst src point code cmd : Nat) : FaultRec :=
  ⟨4, domain, own, 760 + dst / 4, addr, dst * 0x1000000 + src * 0x10000 + point, code, cmd, s.time.tick⟩

/-- The fault-log entry of a refused packet (R373, R474). -/
def State.netFault (s : State) (p : Packet) (code point own : Nat) : FaultRec :=
  s.netEntry p.domain own p.addr p.dst p.src point code p.cmd

/-- An ERR recorded at an NI: its registers, and one event per NI and code in each tick (R373, R396). -/
def State.recordErr (s : State) (n code addr point dest : Nat) : State :=
  let w := niErr_COUNT.put (niErr_CODE.put (s.reg (niErr n)) code) (s.fld (niErr n) niErr_COUNT + 1)
  let hi := if addr < 2 ^ 63 then addr / 0x100000000 + point / 256 * 0x80000000 else addr / 0x100000000
  let t := (((s.setReg (niErr n) w).setFlag (niErr n) niErr_ERR).setReg (niErrAddrLo n) (BitVec.ofNat 32 addr)).setReg (niErrAddrHi n) (BitVec.ofNat 32 hi)
  let t := t.setReg (niErrPoint n) (BitVec.ofNat 32 (dest % 256 * 256 + point % 256))
  if t.noc.said.contains (n, code) then t
  else
    let rsn := if code = 6 then 3 else if code = 5 then 4 else if code = 9 then 6 else 5
    (({ t with noc := { t.noc with said := (n, code) :: t.noc.said } }).raise (760 + n / 4) rsn [] (t.niOwner n))

/-- A packet that its own NI refuses, for its length or because it names an entry that is not valid (R370, R373, R376): recorded there and
logged (DEDUCED, log entry 89). -/
def State.refuseOwn (s : State) (p : Packet) (code : Nat) : State :=
  (s.logFault (s.netFault p code (0x100 + p.src) 15)).recordErr p.src code p.addr (0x100 + p.src) p.dst

/-! ### Route tables (R375, R376) -/

/-- The streams bound at a destination NI: those of the graphs that hold their reservations, and those that a change has taken away and
that are still to be released (R283). -/
def State.boundEdges (s : State) : List (Graph × PlacedEdge) :=
  (s.wheel.graphs.filter (fun g => g.phase != .stopped)).flatMap (fun g => (g.edges.filter PlacedEdge.onNet).map (fun e => (g, e)))
    ++ s.wheel.leaving.flatMap (fun l => (l.edges.filter PlacedEdge.onNet).map (fun e => (l.g, e)))

/-- The route table of an NI in an epoch: its valid entries. -/
def State.routeTable (s : State) (n epoch : Nat) : List RouteEntry := FMap.get (fun _ => []) s.noc.tables (2 * n + epoch)

/-- The epoch in force at an NI. -/
def State.epochOf (s : State) (n : Nat) : Nat := s.fld (niStatus n) niStatus_EPOCH

/-- The valid entry of a number in the table in force. -/
def State.routeEntry (s : State) (n num : Nat) : Option RouteEntry := (s.routeTable n (s.epochOf n)).find? (fun r => r.num == num)

/-- The tables of an NI at a boundary (R376, R386): where the streams in force ask for other entries than the table in force has, Deogen
writes the other epoch and the epochs swap, once. It writes no route through a port that is not ENABLED. -/
def State.swapTable (s : State) (n : Nat) (want : List RouteEntry) : State :=
  let e := s.epochOf n
  let has := s.routeTable n e
  let may := want.filter (fun r => s.routeOpen (linksOf n r.hops))
  if may.all has.contains && has.all want.contains then s
  else ({ s with noc := { s.noc with tables := FMap.set (fun _ => []) s.noc.tables (2 * n + (1 - e)) may } }).setFld (niStatus n) niStatus_EPOCH (1 - e)

/-! ### Sending (R376, R380–R382) -/

/-- The units of credit that an NI holds at a destination, used and unused (R381): 130 for each stream between them; for Deogen, the loader
and whatever sends no stream there, what Deogen keeps. -/
def State.creditsAt (s : State) (src dst : Nat) : Nat :=
  match ((s.routeTable src (s.epochOf src)).filter (fun r => r.dst == dst)).length
      + ((s.noc.remotes.filter (fun r => niLink (r.1 / 1024) == src)).flatMap (fun r => r.2.filter (fun x => x.entry.dst == dst))).length with
  | 0 => 128
  | k => 130 * k

/-- The units that an NI has at a destination and that no CREDIT has returned. -/
def State.creditsUsed (s : State) (src dst : Nat) : Nat := FMap.get (fun _ => 0) s.noc.used (256 * src + dst)

/-- Credits taken. -/
def State.takeCredits (s : State) (p : Packet) : State :=
  { s with noc := { s.noc with used := FMap.set (fun _ => 0) s.noc.used (256 * p.src + p.dst) (s.creditsUsed p.src p.dst + packetUnits p) } }

/-- Whether an NI holds the credits for a packet (R380). -/
def State.mayPay (s : State) (p : Packet) : Bool := decide (s.creditsUsed p.src p.dst + packetUnits p ≤ s.creditsAt p.src p.dst)

/-- A packet handed to the network. -/
def State.send (s : State) (p : Packet) : State := { s with net := s.net ++ [p] }

/-- A STREAM packet made by a unit for one of its streams (R369, R382). -/
def State.streamPacket (s : State) (e : PlacedEdge) (tick sub : Nat) (data : List Byte) : Packet :=
  let len := (data.length + 31) / 32
  { cmd := 1, route := routeOf e.hops, hop := 0, len := len, src := e.src, tag := e.tag,
    domain := s.niOwner e.src, lasth := (data.length + 1) / 2 - 16 * (len - 1),
    epoch := s.epochOf e.src, aux := 0, addr := e.num, point := 0,
    tick := tick % 0x100000000, sub := sub, dst := e.dst, data := data, poisoned := false, marks := [], crossed := false, flaws := [] }

/-- A packet that leaves its NI by a route (R376, R382): the header takes the route, the epoch and DOMAIN as they are in force now. -/
def State.leaveBy (s : State) (r : RouteEntry) (p : Packet) : State :=
  let p := { p with route := routeOf r.hops, dst := r.dst, epoch := s.epochOf p.src, domain := s.niOwner p.src }
  (s.takeCredits p).send p

/-- A packet that a unit sends by an entry of its NI's table (R376, R380): it leaves at once, or waits behind others of its stream for credits;
an entry that is not valid is refused with BAD_ROUTE. From 256 on it is an XL NI that sends, by an entry of its remote table (R392). -/
def State.sendBy (s : State) (entry : Nat) (p : Packet) : State :=
  let wait : State := { s with noc := { s.noc with waiting := s.noc.waiting ++ [(entry, p)] } }
  let first : Bool := !s.noc.waiting.any (fun w => w.2.src == p.src && w.1 == entry)
  if 256 ≤ entry then
    let p := { p with epoch := s.epochOf p.src }
    if s.mayPay p && first then (s.takeCredits p).send p else wait
  else match s.routeEntry p.src entry with
  | none => s.refuseOwn p 2
  | some r =>
    if s.mayPay { p with dst := r.dst } && first then s.leaveBy r p else wait

/-- A STREAM packet sent. -/
def State.sendOn (s : State) (e : PlacedEdge) (p : Packet) : State := s.sendBy e.entry p

/-- Packets that waited for credits, sent as far as these reach. -/
def State.sendWaiting (s : State) : State :=
  s.noc.waiting.foldl (fun t w => t.sendBy w.1 w.2) { s with noc := { s.noc with waiting := [] } }

/-- The bytes of words, least significant byte first. -/
def wordBytes (ws : List Word) : List Byte := ws.flatMap (fun w => leBytes 4 w.toNat)

/-- A stream as its route stands now: a packet takes its route when it leaves, after a task may have moved (R228, R286). -/
def State.streamNow (s : State) (e : PlacedEdge) : PlacedEdge :=
  (((s.wheel.graphs.filter (fun g => g.phase != .stopped)).flatMap (fun g => g.edges)).find?
    (fun x => x.src == e.src && x.num == e.num && x.ed == e.ed)).getD e

/-! ### Remote tables (R392) -/

/-- The links of the pair that faces a device (R388, R389), none for itself and for the diagonal one. -/
def State.linkPair (s : State) (device : Nat) : List Nat :=
  let me := s.fld board board_POS
  if me % 2 ≠ device % 2 ∧ me / 2 = device / 2 then [0, 1]
  else if me % 2 = device % 2 ∧ me / 2 ≠ device / 2 then [2, 3] else []

/-- The remote tables as the graphs that hold their reservations have them: every REMOTE_IN element, on both XL NIs that face its device.
The route from the NI that the Wheel has not chosen goes along x first (DESIGN CHOICE, log entry 116). -/
def State.writeRemotes (s : State) : State :=
  let all : List (Nat × Remote) := s.boundEdges.flatMap (fun x => match x.1.elem x.2.ed.frm with
    | some e =>
      if e.el.kind ≠ 11 then []
      else (s.linkPair (e.el.params.getD 0 0)).map (fun l =>
        let hops := if x.2.src = niLink l then x.2.hops else hopsOf (niLink l) x.2.dst false
        (1024 * l + x.2.tag, ⟨x.1.fn, x.2.num, ⟨x.2.entry, hops, x.2.dst⟩⟩))
    | none => [])
  let keys := (all.map (·.1)).eraseDups
  { s with noc := { s.noc with remotes := keys.foldl (fun m k => FMap.set (fun _ => []) m k ((all.filter (fun a => a.1 == k)).map (·.2))) [] } }

end Sys2Proof.Machine
end

