-- ==== Sys2Proof/Machine/Chains.lean ====
section
/-! DEFINITION. Decimation and filter chains (06_decimation_chains.md, R159–R191). -/

namespace Sys2Proof.Machine

open Regs

/-! ### Network interfaces and streams (R365, R369, R371) -/

/-- The streams that leave an output port of a unit, while their graph is in force; those of an element that a change has removed until
they are released (R283). -/
def State.streamsFrom (s : State) (unit port : Nat) : List PlacedEdge :=
  (s.wheel.graphs.filter (fun g => g.phase == .running || g.phase == .changing || g.phase == .stopping)).flatMap
    (fun g => g.edges.filter (fun e => !e.ed.analog && !e.stopped && e.ed.fromPort == port
      && (g.elem e.ed.frm).any (fun x => x.unit == unit)))
  ++ s.wheel.leaving.flatMap (fun l => l.edges.filter (fun e => !e.ed.analog && !e.stopped && e.ed.fromPort == port
      && l.elems.any (fun x => x.el.id == e.ed.frm && x.unit == unit)))

/-! ### Settings (R160, R169, R171, R173, R176) -/

/-- A field of CTRL of a chain. -/
def State.ctl (s : State) (n : Nat) (F : Fld) : Nat := s.fld (chainCtrl n) F

/-- Total decimation (R160, R176). -/
def chainDec (ctrl : Word) (taps : Nat) : Nat :=
  if chainCtrl_SCS.get ctrl = 1 then chainCtrl_DEC.get ctrl
  else chainCtrl_DEC.get ctrl * 2 ^ (chainCtrl_HB1_EN.get ctrl + chainCtrl_HB2_EN.get ctrl)
    * (if taps = 0 then 1 else chainCtrl_FIR_DEC.get ctrl)

/-- Span in input samples (R171, R176). -/
def chainSpanOf (ctrl : Word) (taps : Nat) : Nat :=
  let dc := chainCtrl_DEC.get ctrl
  let h1 := chainCtrl_HB1_EN.get ctrl
  let h2 := chainCtrl_HB2_EN.get ctrl
  if chainCtrl_SCS.get ctrl = 1 then dc
  else 1 + chainCtrl_CIC_ORDER.get ctrl * (dc - 1) + 22 * dc * h1 + 38 * dc * 2 ^ h1 * h2
    + (taps - 1) * dc * 2 ^ (h1 + h2)

/-- The settling count (R173). -/
def settleOf (ctrl : Word) (taps : Nat) : Nat :=
  (chainSpanOf ctrl taps - 1 + chainDec ctrl taps - 1) / chainDec ctrl taps

/-- Sub-ticks from one sample of a channel to the next (R92), 0 while it has no slices. -/
def State.chanStep (s : State) (c : Nat) : Nat :=
  let n := s.chanCount (c / 4) (c % 4)
  if n = 0 then 0 else 16 / n

/-- Input samples per tick of a channel (R40). -/
def State.chanPerTick (s : State) (c : Nat) : Nat :=
  if s.chanStep c = 0 then 0 else s.tickLength / s.chanStep c

/-- Output words per tick for inputs per tick (R41, R160): a pair counts as two words. -/
def wordsPerTick (ctrl : Word) (taps inputs : Nat) : Nat :=
  let d := chainDec ctrl taps
  if d = 0 then 0 else ((inputs + d - 1) / d) * (if chainCtrl_NCO_EN.get ctrl = 1 then 2 else 1)

/-- The first failing start check of R181: START_ERR, or 0. -/
def startError (p : Part) (ctrl : Word) (taps src inputs tickDiv : Nat) : Nat :=
  let scs := chainCtrl_SCS.get ctrl = 1
  let dec := chainCtrl_DEC.get ctrl
  let nc := chainCtrl_CIC_ORDER.get ctrl
  let f := chainCtrl_FIR_DEC.get ctrl
  if dec < 2 ∨ 4096 < dec then 1
  else if ¬ scs ∧ (nc < 1 ∨ 5 < nc) then 2
  else if ¬ scs ∧ (f < 1 ∨ 16 < f ∨ (taps = 0 ∧ f ≠ 1)) then 3
  else if ¬ scs ∧ 256 < taps then 4
  else if 2 ≤ chainCtrl_COARSE_MODE.get ctrl then 5
  else if 4 * p.quads ≤ src then 6
  else if ¬ scs ∧ 320 * tickDiv < taps * wordsPerTick ctrl taps inputs then 7
  else 0

/-! ### A chain's hidden state -/

/-- A chain that has not run. -/
def idleChain : ChainSt :=
  ⟨[], [], [], [], 0, 0, false, [], 0, 0, none, false, false, 0, none, [], 0, 0, [], 0, 0, 0, none⟩

/-- A chain with nothing in its history. Its open packet and its canceller's coefficients, which adapt without a break while PCAN_EN is
set, are no part of the history (R163, R188), and a swap goes on waiting for its boundary (R185). -/
def ChainSt.cleared (x : ChainSt) : ChainSt :=
  { idleChain with pkt := x.pkt, pktTick := x.pktTick, pktSub := x.pktSub, pktTo := x.pktTo, pcanIn := x.pcanIn, ci := x.ci, cq := x.cq,
                   switch := x.switch }

/-- What chain `n` holds. -/
def State.chain (s : State) (n : Nat) : ChainSt := FMap.get (fun _ => idleChain) s.chains n

/-- What chain `n` holds, replaced. -/
def State.setChain (s : State) (n : Nat) (x : ChainSt) : State :=
  { s with chains := FMap.set (fun _ => idleChain) s.chains n x }

/-- STATE of a chain (R180): 0 STOPPED, 1 ARMED, 2 RUNNING, 3 STOPPING. -/
def State.chainState (s : State) (n : Nat) : Nat := s.fld (chainStatus n) chainStatus_STATE

/-- STATE of a chain set. -/
def State.setChainState (s : State) (n st : Nat) : State := s.setFld (chainStatus n) chainStatus_STATE st

/-- STATUS as read: SETTLING while fine outputs carry S. -/
def State.chainStatusWord (s : State) (n : Nat) : Word :=
  chainStatus_SETTLING.put (s.reg (chainStatus n))
    (flag (s.chainState n == 2 && ((s.chain n).inS || decide (0 < (s.chain n).settle))))

/-- A restart point at the next input (R173, R178); with zeroed history (R175). -/
def State.restartChain (s : State) (n : Nat) (zero : Bool) : State :=
  let x := s.chain n
  let x := { x with settle := s.fld (chainSettle n) chainSettle_SETTLE, fresh := 0, inS := false }
  s.setChain n (if zero then { x with cic := [], hb1 := [], hb2 := [], fir := [], window := [], last := none } else x)

/-- A refusal under R170. -/
def State.refuseChain (s : State) (n : Nat) : State :=
  (s.setFlag (chainStatus n) chainStatus_REFUSED).raise (648 + n) 2

/-! ### Start, stop and swap (R180–R186) -/

/-- A chain started at this boundary: its checks, then zeroed history (R181). -/
def State.startChain (s : State) (n : Nat) : State :=
  let ctrl := s.reg (chainCtrl n)
  let taps := s.fld (firCtrl n) firCtrl_TAPS
  let src := s.cur (chainSrc n) chainSrc_CH
  match startError s.part ctrl taps src (s.chanPerTick src) s.tickDiv with
  | 0 =>
    let t := (s.setFld (chainSettle n) chainSettle_SETTLE (settleOf ctrl taps)).setFld (chainSpan n) chainSpan_SPAN
      (chainSpanOf ctrl taps)
    let t := t.setChain n { (s.chain n).cleared with started := s.time.bounds }
    ((t.setChainState n 2).setReg (coarse n) 0).restartChain n true
  | e =>
    (((s.setChainState n 0).setFld (chainStatus n) chainStatus_START_ERR e).setFlag (chainStatus n)
      chainStatus_START_FAIL).raise (648 + n) 1

/-- A running chain stopped at this boundary (R182). -/
def State.stopChain (s : State) (n : Nat) : State :=
  if s.chainState n = 1 then s.setChainState n 0
  else if s.chainState n = 2 then
    (s.setChainState n 3).setChain n { s.chain n with stop := false, stopAt := s.time.now }
  else s

/-- A write of CMD (R180, R190). -/
def State.writeChainCmd (s : State) (f n : Nat) (v : Word) : State :=
  s.allowed (s.ownChain n == f + 1) f (chainCmd n) v
    (let st := s.chainState n
     match chainCmd_START.get v, chainCmd_STOP.get v with
     | 0, 0 => s
     | 1, 0 => if st = 0 then s.setChainState n 1 else s.refuseChain n
     | 0, 1 =>
       if st = 1 then s.setChainState n 0
       else if st = 2 then s.setChain n { s.chain n with stop := true }
       else s.refuseChain n
     | _, _ => s.refuseChain n)

/-- Whether chain `n` exists. -/
def State.hasChain (s : State) (n : Nat) : Bool := decide (n < s.part.chains)

/-- CHAIN_START (R180). -/
def execChainStart (f n : Nat) (v : Word) (s : State) : Result :=
  s.hostWrite (s.onlyIf (s.hasChain n) (s.writeChainCmd f n (chainCmd_START.put v 1)))

/-- CHAIN_STOP (R180). -/
def execChainStop (f n : Nat) (v : Word) (s : State) : Result :=
  s.hostWrite (s.onlyIf (s.hasChain n) (s.writeChainCmd f n (chainCmd_STOP.put v 1)))

/-- CHAIN_STOPPED (R182): 200 ns after the STOP boundary. -/
def execChainStopped (n : Nat) (s : State) : Result :=
  .next (s.onlyIf (s.hasChain n && s.chainState n == 3 && decide ((s.chain n).stopAt + 400 ≤ s.time.now))
    (let t := s.setChain n (s.chain n).cleared
     (t.setChainState n 0).raise (648 + n) 5))

/-- The bisque chain of quad `q` (R530). -/
def Part.bisqueChain (p : Part) (q : Nat) : Nat := if p = .ka3216C then 32 + q else 64 + q

/-- Whether the bisque service runs chain `n` and delivers its stream (R532, R535). -/
def State.bisqueQuad (s : State) (n : Nat) : Option Nat :=
  if s.boot.bisque then (List.range s.part.quads).find? (fun q => s.part.bisqueChain q == n
    && s.fld (bisqueCh q) bisqueCh_STATE != 0 && s.fld (bisqueCh q) bisqueCh_STATE != 3) else none

/-- The engine that serves data ring 0 of a function after reset; Host.lean has the ENGINE field itself (R452). -/
def State.ring0Engine (s : State) (f : Nat) : Nat := s.fld (dataCtrl f 0) dataCtrl_ENGINE

/-- The stream of the bisque channel of a quad, to data ring 0 of the function that owns the channel: it names an entry of Deogen's, one for
each function (R375, R532; DESIGN CHOICE, log entry 115). -/
def State.bisqueEdges (s : State) (q : Nat) : List PlacedEdge :=
  (functionOf (s.ownChan (4 * q))).map (fun f =>
    let n := niChain (s.part.bisqueChain q)
    let e := niEngine (s.ring0Engine f)
    ⟨⟨0, 1, false, f, 0, 0⟩, 0, 0, 0, n, e, hopsOf n e false, 240 + f, 0x8000 + q, 0, 0, false⟩)

/-- The streams that name chain `n`. The bisque stream is bound while EN is 1 and a function owns the channel (R532). -/
def State.chainStreams (s : State) (n : Nat) : List PlacedEdge :=
  match s.bisqueQuad n with
  | some q =>
    if s.cur (bisqueCh q) bisqueCh_EN = 1 then s.bisqueEdges q else []
  | none => s.streamsFrom (0x3000 + n) 1

/-! ### The route tables at a boundary (R375, R376) -/

/-- The entries that the streams in force ask for: NI, number, hops and destination. The bisque service asks for its own while it runs,
and for what an open packet of it still needs. -/
def State.routesWanted (s : State) : List (Nat × RouteEntry) :=
  let bisque (q : Nat) : List PlacedEdge :=
    let n := s.part.bisqueChain q
    (if s.bisqueQuad n = some q then s.bisqueEdges q else []) ++ (s.chain n).pktTo.filter (fun e => decide (0x8000 ≤ e.num))
  (s.boundEdges.map (·.2) ++ (List.range s.part.quads).flatMap bisque).map (fun e => (e.src, ⟨e.entry, e.hops, e.dst⟩))

/-- Every NI's tables at a boundary. -/
def State.swapTables (s : State) : State :=
  let want : List (Nat × RouteEntry) := s.routesWanted.eraseDups
  let nis : List Nat := (want.map (fun (x : Nat × RouteEntry) => x.1) ++ s.noc.tables.map (fun (x : Nat × List RouteEntry) => x.1 / 2)).eraseDups
  nis.foldl (fun t n => t.swapTable n ((want.filter (fun (x : Nat × RouteEntry) => x.1 == n)).map (fun (x : Nat × RouteEntry) => x.2))) s

/-- A write of SWITCH (R185, R190): the request waits for the boundary. -/
def State.writeSwitch (s : State) (f n : Nat) (v : Word) : State :=
  s.allowed (s.ownChain n == f + 1) f (chainSwitch n) v
    (let t := s.writeReg (chainSwitch n) chainSwitchDesc v
     if chainSwitch_GO.get v = 1 then t.setChain n { t.chain n with switch := some (chainSwitch_PARTNER.get v) } else t)

/-- SWITCH_GO (R185). -/
def execSwitchGo (f n : Nat) (v : Word) (s : State) : Result :=
  s.hostWrite (s.onlyIf (s.hasChain n) (s.writeSwitch f n (chainSwitch_GO.put v 1)))

/-- The first failing condition of R185, in the order 0x4, 0x1, 0x2, 0x3: SW_ERR, or 0. -/
def State.switchError (s : State) (a b : Nat) : Nat :=
  if !s.hasChain b || a == b then 4
  else if s.chainState b ≠ 2 ∨ s.time.bounds ≤ (s.chain b).started then 1
  else if !(s.chainStreams b).isEmpty || !(s.streamsFrom (0x3000 + b) 2).isEmpty then 2
  else if s.ownChain a ≠ s.ownChain b then 3
  else 0

/-- Chain `b` in the place of chain `a` in the graph that holds it (R185): its streams leave from b's NI. -/
def Graph.swapChain (s : State) (g : Graph) (a b : Nat) : Graph :=
  let elems (es : List PlacedElem) : List PlacedElem := es.map (fun e =>
    if e.el.kind = 3 ∧ e.unit = 0x3000 + a then { e with unit := 0x3000 + b, since := s.time.tick } else e)
  let edges (es : List PlacedElem) (ds : List PlacedEdge) : List PlacedEdge := ds.map (fun e =>
    if !e.ed.analog && e.src == niChain a && es.any (fun x => x.el.id == e.ed.frm && x.unit == 0x3000 + a) then
      s.rerouteEdge e (niChain b) e.dst else e)
  if g.elems.any (fun e => e.el.kind == 3 && e.unit == 0x3000 + a) then
    let g' : Graph := { g with elems := elems g.elems, edges := edges g.elems g.edges
                               change := g.change.map (fun c => { c with elems := elems c.elems, edges := edges c.elems c.edges }) }
    g'.advance s
  else g

/-- A swap at this boundary (R185). -/
def State.switchChain (s : State) (a b : Nat) : State :=
  match s.switchError a b with
  | 0 =>
    let t := { s with wheel := { s.wheel with graphs := s.wheel.graphs.map (fun (g : Graph) => g.swapChain s a b) } }
    let t := s.graphs.foldl (fun t g => t.leaveTo g g.elems g.edges g.elems (g.swapChain s a b).edges) t
    let t := (t.stopChain a).setFlag (chainStatus a) chainStatus_SW_DONE
    t.raise (648 + a) 3 [(0x3000 + b) * 0x10000 + (0x3000 + a), s.time.tick % 0x100000000]
  | e => (s.setFld (chainStatus a) chainStatus_SW_ERR e).refuseChain a

/-- Step 3 for the chains' own requests: starts, restarts by live changes (R183), swaps, stops. `live` are the chains
whose SRC, NCO_FTW, NCO_PHASE or GAIN changed at this boundary. -/
def State.chainStep (s : State) (live : List Nat) : State :=
  let t := foldBelow (fun n t => if t.chainState n = 1 then t.startChain n else t) s.part.chains s
  let t := live.foldl (fun t n => if t.chainState n = 2 then
    let t := t.restartChain n false
    t.setChain n { t.chain n with last := none } else t) t
  let t := foldBelow (fun n t => match (t.chain n).switch with
    | some b => (t.setChain n { t.chain n with switch := none }).switchChain n b
    | none => t) s.part.chains t
  foldBelow (fun n t => if (t.chain n).stop then t.stopChain n else t) s.part.chains t

/-- The chains with a live change that this boundary brings into force (R183). -/
def State.liveChains (s : State) : List Nat :=
  (List.range s.part.chains).filter (fun n =>
    [chainSrc n, ncoFtw n, ncoPhase n, chainGain n].any (fun off => s.oldReg off != s.reg off))

/-! ### Arithmetic of the stages (R162–R168) -/

/-- round_conv(cos(2π p / 2²⁰) × 2²²) for a 20-bit phase (R164). -/
def cosCode (p : Nat) : Int := roundEven (cosFix (p * 4096)) (2 ^ 78)

/-- round_conv(sin(2π p / 2²⁰) × 2²²) for a 20-bit phase (R164). -/
def sinCode (p : Nat) : Int := cosCode (p + 0xC0000)

/-- A stage output in 2⁻⁸ LSB, limited to R162's range, and whether it was limited. -/
def stageLimit (x : Int) : Int × Bool := (satI 32 x, decide (satI 32 x ≠ x))

/-- The NCO mixer (R164) on input index `i`. -/
def mix (x2 : Bool) (ftw phase i : Nat) (x : Pt) : Pt :=
  let ph := ((phase + ftw * i) % 0x100000000) / 0x1000
  let g : Int := if x2 then 2 else 1
  let (a, ca) := stageLimit (roundEven (g * x.i * cosCode ph) 0x400000)
  let (b, cb) := stageLimit (roundEven (-(g * x.i * sinCode ph)) 0x400000)
  ⟨a, b, x.c || ca || cb, x.m⟩

/-- Moving sums of `w` neighbours: one factor 1 + z⁻¹ + … + z^−(w−1) of the CIC polynomial. -/
def boxcar (w : Nat) (b : List Int) : List Int :=
  (List.range (b.length + w - 1)).map (fun i =>
    ((b.drop (i + 1 - w)).take (i + 1 - (i + 1 - w))).foldl (· + ·) 0)

/-- The CIC coefficients b[k] (R165). -/
def cicCoefs : Nat → Nat → List Int
  | 0, _ => [1]
  | n + 1, dc => boxcar dc (cicCoefs n dc)

/-- n! -/
def factorial : Nat → Nat
  | 0 => 1
  | n + 1 => (n + 1) * factorial n

/-- 1 × 3 × … × (2k − 1). -/
def doubleFact : Nat → Nat
  | 0 => 1
  | n + 1 => (2 * n + 1) * doubleFact n

/-- The tap codes h'[n] × 2²³ of a half-band stage with K coefficients per side (R166). -/
def halfBandTap (k n : Nat) : Int :=
  let d := if n < 2 * k - 1 then 2 * k - 1 - n else n - (2 * k - 1)
  if d = 0 then 2 ^ 22
  else if d % 2 = 0 then 0
  else
    let j := (d + 1) / 2
    let num : Int := (doubleFact k : Int) ^ 2 * 2 ^ 23
    roundEven (if j % 2 = 1 then num else -num)
      (4 ^ k * (2 * j - 1) * factorial (k + j - 1) * factorial (k - j))

/-- The taps of a half-band stage. -/
def halfBandTaps (k : Nat) : List Int := (List.range (4 * k - 1)).map (halfBandTap k)

/-- A weighted sum over a history, divided, rounded and limited (R162); C and M from every input in its span. -/
def filterSum (co : List Int) (div : Nat) (h : List Pt) : Pt :=
  let sum (p : Pt → Int) := ((co.zip h).map (fun x => x.1 * p x.2)).foldl (· + ·) 0
  let (a, ca) := stageLimit (roundEven (sum (·.i)) div)
  let (b, cb) := stageLimit (roundEven (sum (·.q)) div)
  let span := h.take co.length
  ⟨a, b, ca || cb || span.any (·.c), span.any (·.m)⟩

/-- A history with a new value, kept to the length of a filter. -/
def pushPt (len : Nat) (x : Pt) (h : List Pt) : List Pt := (x :: h).take len

/-- One decimating filter stage: the new history, and the output on every `dec`-th of its inputs. -/
def stage (co : List Int) (div dec idx : Nat) (x : Option Pt) (h : List Pt) : List Pt × Option Pt :=
  match x with
  | none => (h, none)
  | some p =>
    let h := pushPt co.length p h
    (h, if idx % dec = 0 then some (filterSum co div h) else none)

/-- The FIR coefficients of chain `n` (R167). -/
def State.firCoefs (s : State) (n taps : Nat) : List Int :=
  (List.range taps).map (fun k => sx 24 (s.fld (coef n k) coef_C))

/-- Stages 3 to 6 of chain `n` on the mixed input of index `i`: the new histories, and the output that falls on it. -/
def State.stages (s : State) (n i : Nat) (p : Pt) (x : ChainSt) : ChainSt × Option Pt :=
  let ctrl := s.reg (chainCtrl n)
  let dc := chainCtrl_DEC.get ctrl
  if chainCtrl_SCS.get ctrl = 1 then
    let (h, o) := stage (List.replicate dc 1) dc dc i (some p) x.cic
    ({ x with cic := h }, o)
  else
    let nc := chainCtrl_CIC_ORDER.get ctrl
    let (h, o) := stage (cicCoefs nc dc) (dc ^ nc) dc i (some p) x.cic
    let x := { x with cic := h }
    let i := i / dc
    let (h, o, i) := if chainCtrl_HB1_EN.get ctrl = 1
      then (let (h, o) := stage (halfBandTaps 6) (2 ^ 23) 2 i o x.hb1; (h, o, i / 2)) else (x.hb1, o, i)
    let x := { x with hb1 := h }
    let (h, o, i) := if chainCtrl_HB2_EN.get ctrl = 1
      then (let (h, o) := stage (halfBandTaps 10) (2 ^ 23) 2 i o x.hb2; (h, o, i / 2)) else (x.hb2, o, i)
    let x := { x with hb2 := h }
    let taps := s.fld (firCtrl n) firCtrl_TAPS
    if taps = 0 then (x, o)
    else
      let (h, o) := stage (s.firCoefs n taps) (2 ^ 23) (chainCtrl_FIR_DEC.get ctrl) i o x.fir
      ({ x with fir := h }, o)

/-! ### The coarse path (R177–R179) -/

/-- The coarse value of a window (R177). -/
def coarseValue (mode : Nat) (w : List CoarsePt) : Int :=
  satI 16 (roundEven ((w.map (fun x => if mode = 1 then (x.x.natAbs : Int) else x.x)).foldl (· + ·) 0) 0x100000)

/-- The comparator's output after a new value (R179): held at 0 while the value carries S or EN is 0. -/
def compare (en s out : Bool) (v hi lo : Int) : Bool :=
  en && !s && (if out then !decide (v < lo) else decide (hi < v))

/-- The coarse path takes an input; at the end of a chain-clock cycle its value, flags and comparator follow. -/
def State.coarseInput (s : State) (n sub step : Nat) (p : CoarsePt) : State :=
  let x := s.chain n
  let w := (p :: x.window).take 16
  let t := s.setChain n { x with window := w, fresh := min 16 (x.fresh + 1) }
  if (sub + step) % 8 ≠ 0 then t
  else
    let v := coarseValue (s.ctl n chainCtrl_COARSE_MODE) w
    let sf := decide (x.fresh < 16) || w.any (·.s)
    let was := s.bit (coarse n) coarse_OUT
    let thr := coarseThr n
    let out := compare (s.bit (coarseCtrl n) coarseCtrl_EN) sf was v (sx 16 (s.cur thr coarseThr_HI))
      (sx 16 (s.cur thr coarseThr_LO))
    let r := coarse_OUT.put (coarse_VALUE.put 0 (ux 16 v)) (flag out)
    let r := coarse_M.put (coarse_C.put (coarse_S.put r (flag sf)) (flag (w.any (·.c)))) (flag (w.any (·.m)))
    let t := t.setReg (coarse n) r
    if out && !was && s.bit (coarseCtrl n) coarseCtrl_IE then t.raise (648 + n) 4 else t

/-! ### Inputs and outputs (R161, R172–R174, R187, R188) -/

/-- The instant from which sample indices of a quad's channels count (R45, R161, R51). -/
def State.sampleOrigin (s : State) (q : Nat) : Nat := max s.time.origin (FMap.get (fun _ => 0) s.time.quadOrigin q)

/-- The index of the first sample of the present tick on a channel. -/
def State.baseIndex (s : State) (c : Nat) : Nat := (s.tickStart - s.sampleOrigin (c / 4)) / s.chanStep c

/-- The 500 ps periods from a sampling instant to that at which the output it completes leaves the chain: 128 ns (R187). -/
def chainDelay : Nat := 256

/-- The open packet of a chain closed and sent on each of its streams (R188): the words that have left the chain by instant `by_`
(R187). A new packet opens with the others, under the timestamp of the first of them. -/
def State.closePacket (s : State) (n by_ : Nat) : State :=
  let x := s.chain n
  let gone := x.pkt.filter (fun w => decide (w.1 ≤ by_))
  let stay := x.pkt.filter (fun w => decide (by_ < w.1))
  if gone.isEmpty then s
  else
    let t := x.pktTo.foldl (fun t e => t.sendOn (t.streamNow e) (t.streamPacket (t.streamNow e) x.pktTick x.pktSub (wordBytes (gone.map (·.2))))) s
    t.setChain n (match stay with
      | [] => { x with pkt := [], pktTo := [] }
      | w :: _ => { x with pkt := stay, pktTick := s.time.tick, pktSub := w.1 - chainDelay - s.tickStart })

/-- A chain's open packet closed whole. -/
def State.flushPacket (s : State) (n : Nat) : State := s.closePacket n (((s.chain n).pkt.map (·.1)).foldl max 0)

/-- A word of an output (R107, R168, R172, R174). -/
def outWord (v : Int) (s c m : Bool) (seq : Nat) : Word :=
  BitVec.ofNat 32 (ux 24 v * 0x100 + flag s * 0x80 + flag c * 0x40 + flag m * 0x10 + seq % 16)

/-- Fine output `j` leaves chain `n`, with the timestamp of its input. -/
def State.fineOutput (s : State) (n j sub : Nat) (inS : Bool) (p : Pt) : State :=
  let x := s.chain n
  let g := s.cur (chainGain n) chainGain_GAIN_SH
  let (a, b) := (roundEven (p.i * 2 ^ g) 256, roundEven (p.q * 2 ^ g) 256)
  let cplx := s.ctl n chainCtrl_NCO_EN == 1
  let c := p.c || decide (satI 24 a ≠ a) || (cplx && decide (satI 24 b ≠ b))
  let sf := inS || decide (0 < x.settle)
  let t := if c then s.setFlag (chainStatus n) chainStatus_CLIP else s
  let x := { x with settle := if inS then x.settle else x.settle - 1 }
  let to_ := t.chainStreams n
  if to_.isEmpty then t.setChain n x
  else
    let out := s.tickStart + sub + chainDelay
    let ws := (out, outWord (satI 24 a) sf c p.m j) :: (if cplx then [(out, outWord (satI 24 b) sf c p.m j)] else [])
    let t := t.setChain n x
    -- words for other streams leave on their own
    let t := if x.pktTo.map t.streamNow = to_ then t else t.flushPacket n
    let x := t.chain n
    let x := if x.pkt.isEmpty then { x with pkt := ws, pktTick := s.time.tick, pktSub := sub, pktTo := to_ }
      else { x with pkt := x.pkt ++ ws }
    let t := t.setChain n x
    if 512 ≤ x.pkt.length then t.flushPacket n else t

/-- The step of a coefficient for a residual `e` in 2⁻⁸ LSB (R163): 2⁻¹⁴ e times the cosine or sine `f`, in units of 2⁻²² LSB. -/
def pcanStep (e f : Int) : Int := openRound (e * f) (2 ^ 100)

/-- The pilot canceller (R163) on a sample at sub-tick `sub`: its output, x − (ci cos θ + cq sin θ), is a stage output (R162). -/
def State.cancelPilot (s : State) (n q sub : Nat) (p : Pt) : State × Pt :=
  if s.ctl n chainCtrl_PCAN_EN = 0 then (s, p)
  else
    let x := s.chain n
    let phase := s.tonePhase q sub
    let (fc, fs) := (cosFix phase, sinFix phase)
    let (e, c) := stageLimit (roundEven (p.i * 2 ^ 114 - (x.ci * fc + x.cq * fs)) (2 ^ 114))
    (s.setChain n { x with pcanIn := min 131072 (x.pcanIn + 1), ci := x.ci + pcanStep e fc, cq := x.cq + pcanStep e fs },
      { p with i := e, c := p.c || c })

/-- u and y of the last sample of a channel that was not marked M, before the one at instant `at_` (R112): the chain's own last one, else
the last that any chain took. Where no chain has taken one, and the channel has had samples, the model does not know them (log
entry 59). -/
def State.lastUnmarked (s : State) (n c at_ age : Nat) : State × Int × Int :=
  match (s.chain n).last, FMap.get (fun _ => none) s.pool.last c with
  | some l, _ => (s, l)
  | none, some (a, l) => if a < at_ then (s, l) else s.freeLast
  | none, none => if age = 0 then (s, 0, 0) else s.freeLast

/-- A pool sample taken by chain `n`: index `i`, timestamp `sub` of the present tick. -/
def State.chainTake (s : State) (n c i sub : Nat) (xs : List Int) : State :=
  let (q, k) := (c / 4, c % 4)
  let x := s.chain n
  let st := s.chanStep c
  let at_ := s.tickStart + sub
  let age := min i ((at_ - FMap.get (fun _ => 0) s.pool.chStart c) / st)
  let (s, lastU, lastY) := s.lastUnmarked n c at_ age
  let y := s.poolSample q ⟨k, i, at_, age, xs, lastU, lastY⟩
  let inS := s.settlingAt q k at_ || s.startingUp q k i at_ || !s.quadLocked q || s.time.realign.contains q
  let p : Pt := ⟨y.y * 65536, 0, y.c || s.overloadAt q k at_, y.m⟩
  let t := if x.lost then s.restartChain n true else if x.inS && !inS then s.restartChain n false else s
  let x := { t.chain n with next := i + 1, inS := inS, lost := false, lastIn := some s.time.bounds }
  let t := if y.m then t.setChain n x
    else ({ t with pool := { t.pool with last := FMap.set (fun _ => none) t.pool.last c (some (at_, y.u, y.y)) } } : State).setChain n
      { x with last := some (y.u, y.y) }
  let (t, p) := t.cancelPilot n q sub p
  let p := if t.ctl n chainCtrl_NCO_EN = 1 then mix (t.ctl n chainCtrl_NCO_X2 == 1)
      (t.cur (ncoFtw n) ncoFtw_FTW) (t.cur (ncoPhase n) ncoPhase_PHASE) i p else p
  let t := t.coarseInput n sub st ⟨p.i, inS, p.c, p.m⟩
  let (x, o) := t.stages n i p (t.chain n)
  let t := t.setChain n x
  match o with
  | none => t
  | some o =>
    let d := chainDec (t.reg (chainCtrl n)) (t.fld (firCtrl n) firCtrl_TAPS)
    t.fineOutput n (i / d) sub inS o

/-- CHAIN_PACKET_CLOSE (R188): the open packet as it is 200 ns after a boundary. -/
def execChainPacketClose (n : Nat) (s : State) : Result :=
  .next (s.onlyIf (s.hasChain n && s.ticking && decide (400 ≤ s.time.sub)) (s.closePacket n (s.tickStart + 400)))

/-- SOURCE_LOST (R184): a whole tick has passed without input. -/
def execSourceLost (n : Nat) (s : State) : Result :=
  .next (s.onlyIf (s.hasChain n && s.chainState n == 2 && !(s.chain n).lost
      && decide ((s.chain n).started < s.time.bounds) && (s.chain n).lastIn.all (fun t => decide (t + 1 < s.time.bounds)))
    ((s.setChain n { s.chain n with lost := true, last := none }).raise (648 + n) 6))

/-- PCAN_EN set or cleared by Deogen (R163, R170). -/
def State.setPcan (s : State) (n b : Nat) : State :=
  let t := (s.setFld (chainCtrl n) chainCtrl_PCAN_EN b).setFld (pcan n) pcan_EN b
  (t.setFld (pcan n) pcan_CONV 0).setChain n { t.chain n with pcanIn := 0, ci := 0, cq := 0 }

/-- The pilot cancellers at a boundary (R163): on where the source is opted in and the tone runs, off where it is not. -/
def State.pcanStep (s : State) : State :=
  if !s.deogen then s
  else foldBelow (fun n t =>
    let c := t.cur (chainSrc n) chainSrc_CH
    let opted := t.toneReaches (c / 4) (c % 4)
    let on := t.ctl n chainCtrl_PCAN_EN == 1
    if !on && opted && t.bit (pilotStatus (c / 4)) pilotStatus_TONE_ON && t.chainState n == 2 then t.setPcan n 1
    else if on && !opted then t.setPcan n 0 else t) s.part.chains s

/-- PCAN_CONVERGED (R163). -/
def execPcanConverged (n : Nat) (s : State) : Result :=
  .next (s.onlyIf (s.hasChain n && s.bit (pcan n) pcan_EN && decide (131072 ≤ (s.chain n).pcanIn))
    (s.setFld (pcan n) pcan_CONV 1))

/-- Every running chain whose source is in quad `q`, restarted: at an end of its settling (R58) or with zeroed history. -/
def State.restartOn (s : State) (p : Nat → Bool) (zero : Bool) : State :=
  foldBelow (fun n t => if t.chainState n = 2 ∧ p (t.cur (chainSrc n) chainSrc_CH) then t.restartChain n zero else t)
    s.part.chains s

/-- SETTLING_WINDOW_END (R57, R58, R66): the window of channel path `k`, or of CAB k − 4, has run out. A chain counts its
settled outputs from its first input without S, which restarts it as it is taken (R173). -/
def execSettlingWindowEnd (q k : Nat) (s : State) : Result :=
  .next (match FMap.get (fun _ => none) s.ana.win (12 * q + k) with
    | some e =>
      if s.hasQuad q && decide (k < 12) && decide (e ≤ s.time.now) then
        { s with ana := { s.ana with win := FMap.set (fun _ => none) s.ana.win (12 * q + k) none } }
      else s
    | none => s)

/-! ### Writes -/

/-- A write to CHAIN[n], `x` bytes into its block (R170, R179, R183, R190). -/
def State.writeChain (s : State) (f n x : Nat) (v : Word) : State :=
  let off := 0x200000 + 0x1000 * n + x
  let mine (t : State) : State := s.allowed (s.ownChain n == f + 1) f off v t
  let stopped (d : Desc) : State := mine (if s.chainState n = 0 then s.writeReg off d v else s.refuseChain n)
  if x = 0 then stopped chainCtrlDesc
  else if x = 4 then mine (s.writeReg off chainSrcDesc v)
  else if x = 8 then mine (s.writeReg off ncoFtwDesc v)
  else if x = 0xC then mine (s.writeReg off ncoPhaseDesc v)
  else if x = 0x10 then mine (if 8 < chainGain_GAIN_SH.get v then s.refuseChain n else s.writeReg off chainGainDesc v)
  else if x = 0x14 then stopped firCtrlDesc
  else if x = 0x18 then s.writeChainCmd f n v
  else if x = 0x1C then mine (s.writeReg off chainStatusDesc v)
  else if x = 0x2C then
    mine (if sx 16 (coarseThr_HI.get v) < sx 16 (coarseThr_LO.get v) then s.refuseChain n
      else s.writeReg off coarseThrDesc v)
  else if x = 0x30 then
    mine (let t := s.writeReg off coarseCtrlDesc v
          if coarseCtrl_EN.get v = 0 then t.setFld (coarse n) coarse_OUT 0 else t)
  else if x = 0x34 then s.writeSwitch f n v
  else if 0x400 ≤ x ∧ x < 0x800 then stopped coefDesc
  else s

end Sys2Proof.Machine
end

