-- ==== Sys2Proof/Machine/Operands.lean ====
section
/-! DEFINITION. The operand forms of a DSP core: fields of the instruction word (R234), register codes (R236, R237),
pointer updates under a modulus (R204–R206), parallel moves (R238, R239) and the reserved encodings (R235, R240). -/

namespace Sys2Proof.Machine

/-! ### Instruction word (R234) -/

/-- Bits `hi` down to `lo` of an instruction word. -/
def ibits (w : IWord) (hi lo : Nat) : Nat := bitsOf w.toNat hi lo

/-- OPC. -/
def opcOf (w : IWord) : Nat := ibits w 47 40
/-- EXT. -/
def extOf (w : IWord) : Nat := ibits w 23 0

/-- A parallel move (R238): TYPE 1 LOAD, 2 STORE, 3 UPDATE, 0 none. -/
structure Mv where
  type : Nat
  reg : Nat
  ptr : Nat
  upd : Nat
  res : Nat
  deriving DecidableEq, Repr

/-- A move field of 12 bits read. -/
def mvOf (f : Nat) : Mv := ⟨bitsOf f 11 10, bitsOf f 9 6, bitsOf f 5 3, bitsOf f 2 1, bitOf f 0⟩

/-- XM of a format P word. -/
def xmOf (w : IWord) : Mv := mvOf (ibits w 23 12)
/-- YM of a format P word. -/
def ymOf (w : IWord) : Mv := mvOf (ibits w 11 0)

/-! ### Registers -/

/-- An element of a register file. -/
def vget {n k : Nat} (v : Vector (BitVec k) n) (i : Nat) : BitVec k := v.toList.getD i 0

/-- The active bank of a core changed. -/
def Core.withBank (c : Core) (f : Bank → Bank) : Core := { c with bank := f c.bank }

/-- Dn as a signed number. -/
def Core.dn (c : Core) (i : Nat) : Int := (vget c.bank.d i).toInt
/-- Dn as an unsigned number. -/
def Core.du (c : Core) (i : Nat) : Nat := (vget c.bank.d i).toNat
/-- ACCn as a signed number. -/
def Core.accn (c : Core) (i : Nat) : Int := (vget c.bank.acc i).toInt
/-- ACCn as a bit pattern. -/
def Core.accu (c : Core) (i : Nat) : Nat := (vget c.bank.acc i).toNat
/-- Pn. -/
def Core.pn (c : Core) (i : Nat) : Nat := (vget c.bank.p i).toNat

/-- Dn written with the low 24 bits of a number. -/
def Core.setD (c : Core) (i : Nat) (v : Int) : Core :=
  c.withBank (fun b => { b with d := b.d.setIfInBounds i (BitVec.ofInt 24 v) })
/-- ACCn written with the low 56 bits of a number. -/
def Core.setAcc (c : Core) (i : Nat) (v : Int) : Core :=
  c.withBank (fun b => { b with acc := b.acc.setIfInBounds i (BitVec.ofInt 56 v) })
/-- Pn written. -/
def Core.setP (c : Core) (i v : Nat) : Core :=
  c.withBank (fun b => { b with p := b.p.setIfInBounds i (BitVec.ofNat 15 v) })

/-- A bit of SRG in force. -/
def Core.srgBit (c : Core) (k : Nat) : Bool := bitOf c.bank.srg.toNat k == 1

/-- A bit of SRG set or cleared. -/
def Core.setSrg (c : Core) (k : Nat) (b : Bool) : Core :=
  c.withBank (fun x => { x with srg := (x.srg &&& ~~~ (BitVec.ofNat 24 (2 ^ k))) ||| BitVec.ofNat 24 (2 ^ k * flag b) })

/-- SCALE (R199). -/
def Core.scale (c : Core) : Nat := bitsOf c.bank.srg.toNat 17 16
/-- OM (R199). -/
def Core.om (c : Core) : Bool := c.srgBit 18

/-- SRG as read: LSP and IN_ISR follow the loop stack and the handler (R199). -/
def Core.srgWord (c : Core) : Nat :=
  (c.bank.srg.toNat % 0x100000) + flag c.inIsr * 0x100000 + c.stack.length * 0x200000

/-- The bits of SRG that a program writes: SCALE, OM, IE, V and SL (R237). -/
def srgWritable : DWord := 0x0F00C0

/-- SRG written by a program. -/
def Core.writeSrg (c : Core) (v : Nat) : Core :=
  c.withBank (fun b => { b with srg := (b.srg &&& ~~~ srgWritable) ||| (BitVec.ofNat 24 v &&& srgWritable) })

/-- A move out of an accumulator (R201): the data word, and whether it was limited. -/
def Core.accOut (c : Core) (i : Nat) : Int × Bool :=
  let a := c.accn i
  let a := if c.scale = 1 then a * 2 else if c.scale = 2 then a / 2 else a
  let h := a / 0x1000000
  if 8388607 < h then (8388607, true) else if h < -8388608 then (-8388608, true) else (h, false)

/-- Whether a register code is one (R236). -/
def regCode (r : Nat) : Bool := decide (r < 12 ∨ (16 ≤ r ∧ r < 43) ∨ (44 ≤ r ∧ r < 56))

/-- A register read as a move does (R237): the 24-bit value, and whether it was limited. -/
def Core.readReg (c : Core) (r : Nat) : Nat × Bool :=
  if r < 8 then (c.du r, false)
  else if r < 12 then (ux 24 (c.accOut (r - 8)).1, (c.accOut (r - 8)).2)
  else if r < 24 then (c.pn (r - 16), false)
  else if r < 32 then ((vget c.s (r - 24)).toNat, false)
  else if r < 40 then ((vget c.m (r - 32)).toNat, false)
  else if r = 40 then (c.lc, false)
  else if r = 41 then (c.la, false)
  else if r = 42 then (c.srgWord, false)
  else if r < 48 then (bitsOf (c.accu (r - 44)) 55 48, false)
  else if r < 52 then (bitsOf (c.accu (r - 48)) 47 24, false)
  else (bitsOf (c.accu (r - 52)) 23 0, false)

/-! ### Moduli (R204–R207) -/

/-- The word of the modulus that governs pointer `j`: that of the lowest Mn that binds it; 0 where none does. -/
def governing (m : List DWord) (j : Nat) : Nat :=
  ((m.find? (fun w => bitOf w.toNat (16 + j) == 1)).getD 0).toNat

/-- The least k with 2^k ≥ l. -/
def log2Up (l : Nat) : Nat := (lowest 16 (fun k => decide (l ≤ 2 ^ k))).getD 15

/-- 15 bits in reverse order. -/
def rev15 (x : Nat) : Nat := (List.range 15).foldl (fun a i => a * 2 + bitOf x i) 0

/-- A pointer after an update by a signed step under a modulus word (R205). -/
def stepped (mw p : Nat) (st : Int) : Nat :=
  let l := mw % 0x8000
  if bitOf mw 15 = 1 then rev15 ((rev15 p + rev15 (ux 15 st)) % 0x8000)
  else if l = 0 then ux 15 ((p : Int) + st)
  else
    let k := 2 ^ log2Up l
    p - p % k + (((p % k : Nat) : Int) + st).fmod l |>.toNat

/-- A reserved modulus value (R207). -/
def modReserved (v : Nat) : Bool := decide (if bitOf v 15 = 1 then v % 0x8000 ≠ 0 else v % 0x8000 = 1)

/-- The pointers that Mi governs in modulo mode. -/
def modPointers (m : List DWord) (i : Nat) : List Nat :=
  (List.range 8).filter (fun j => m.findIdx? (fun w => bitOf w.toNat (16 + j) == 1) == some i
    && bitOf (m.getD i 0).toNat 15 == 0 && decide (2 ≤ (m.getD i 0).toNat % 0x8000))

/-- A write of Mi: the modulus, and its pointers reduced (R206). -/
def Core.writeMod (c : Core) (i v : Nat) : Core :=
  let m := c.m.setIfInBounds i (BitVec.ofNat 24 v)
  let l := v % 0x8000
  let k := 2 ^ log2Up l
  (modPointers m.toList i).foldl (fun c j => c.setP j (c.pn j - c.pn j % k + c.pn j % k % l)) { c with m := m }

/-- A register written by a move (R237). A write of Mn is `writeMod`, after its check. -/
def Core.writeRegCode (c : Core) (r v : Nat) : Core :=
  if r < 8 then c.setD r v
  else if r < 12 then c.setAcc (r - 8) (sx 24 v * 0x1000000)
  else if r < 24 then c.setP (r - 16) v
  else if r < 32 then { c with s := c.s.setIfInBounds (r - 24) (BitVec.ofNat 16 v) }
  else if r < 40 then c.writeMod (r - 32) v
  else if r = 40 then { c with lc := v % 0x10000, lcWait := c.lcWait ++ [(2, c.lc)] }
  else if r = 41 then { c with la := v % 0x4000, laWait := c.laWait ++ [(2, c.la)] }
  else if r = 42 then c.writeSrg v
  else
    let i := (r - 44) % 4
    let u := c.accu i
    c.setAcc i ((if r < 48 then u % 2 ^ 48 + v % 0x100 * 2 ^ 48
      else if r < 52 then u / 2 ^ 48 * 2 ^ 48 + v % 0x1000000 * 2 ^ 24 + u % 2 ^ 24
      else u / 2 ^ 24 * 2 ^ 24 + v % 0x1000000 : Nat) : Int)

/-! ### Memories (R195) -/

/-- A word of X or Y. -/
def Core.mem (c : Core) (y : Bool) (a : Nat) : DWord := FMap.get (fun _ => 0) (if y then c.y else c.x) (a % 0x8000)

/-- A word of X or Y written. -/
def Core.setMem (c : Core) (y : Bool) (a : Nat) (v : DWord) : Core :=
  if y then { c with y := FMap.set (fun _ => 0) c.y (a % 0x8000) v }
  else { c with x := FMap.set (fun _ => 0) c.x (a % 0x8000) v }

/-- The instruction word at an address. -/
def Core.fetch (c : Core) (a : Nat) : IWord := FMap.get (fun _ => 0) c.prog (a % 0x4000)

/-! ### Parallel moves (R238–R240) -/

/-- The step of an update. -/
def Core.updStep (c : Core) (mv : Mv) : Int :=
  match mv.upd with | 0 => 0 | 1 => 1 | 2 => -1 | _ => (vget c.s mv.ptr).toInt

/-- A pointer of `c` updated as a move directs, with steps and moduli of `old`. -/
def Core.updated (c old : Core) (mv : Mv) : Core :=
  if mv.type = 0 ∨ mv.upd = 0 then c
  else c.setP mv.ptr (stepped (governing old.m.toList mv.ptr) (c.pn mv.ptr) (old.updStep mv))

/-- A load or store on one memory; `old` is the core before the instruction. -/
def Core.moved (c old : Core) (y : Bool) (mv : Mv) : Core :=
  match mv.type with
  | 1 => c.writeRegCode mv.reg (old.mem y (old.pn mv.ptr)).toNat
  | 2 =>
    let (v, lim) := old.readReg mv.reg
    let c := c.setMem y (old.pn mv.ptr) (BitVec.ofNat 24 v)
    if lim then c.setSrg 6 true else c
  | _ => c

/-- Both parallel moves of a format P word, every operand as it was before the instruction (R239, R240). -/
def Core.moves (c : Core) (w : IWord) : Core :=
  let (xm, ym) := (xmOf w, ymOf w)
  (((c.moved c false xm).moved c true ym).updated c xm).updated c ym

/-! ### Reserved encodings (R235, R240) -/

/-- The register that a code denotes for a conflict: ACCn for its parts. -/
def regGroup (r : Nat) : Nat := if 44 ≤ r then 8 + (r - 44) % 4 else r

/-- A move field as R238 allows it. -/
def mvOk (mv : Mv) : Bool :=
  decide (mv.res = 0 ∧ (if mv.type = 0 then mv.reg = 0 ∧ mv.ptr = 0 ∧ mv.upd = 0
    else if mv.type = 3 then mv.reg = 0 else mv.reg < 12))

/-- The operand fields of a format P word, as the table row of its opcode allows them. -/
def operandsOk (w : IWord) : Bool :=
  let opc := opcOf w
  let acc := decide (8 ≤ ibits w 39 36 ∧ ibits w 39 36 < 12)
  let z (hi lo : Nat) := decide (ibits w hi lo = 0)
  let data := decide (ibits w 39 36 < 8)
  if opc = 0 then z 39 24
  else if opc ≤ 9 then acc && decide (ibits w 35 32 < 8 ∧ ibits w 31 28 < 8) && z 27 24
  else if opc ≤ 0xD then acc && decide (ibits w 35 32 < 12) && z 31 24
  else if opc ≤ 0x11 then acc && z 35 24
  else if opc ≤ 0x13 then acc && z 35 30 && decide (1 ≤ ibits w 29 24 ∧ ibits w 29 24 ≤ 55)
  else if opc ≤ 0x16 then acc && decide (ibits w 35 32 < 8) && z 31 24
  else if opc = 0x1B then data && z 35 24
  else if 0x1C ≤ opc ∧ opc ≤ 0x1E then data && z 35 29 && decide (1 ≤ ibits w 28 24 ∧ ibits w 28 24 ≤ 23)
  else if opc ≤ 0x20 then data && decide (ibits w 35 32 < 8) && z 31 24
  else regCode (ibits w 39 34) && regCode (ibits w 33 28) && z 27 24

/-- The register that the operation of a format P word writes, if any. -/
def writtenBy (w : IWord) : Option Nat :=
  let opc := opcOf w
  if opc = 0 ∨ opc = 0xC then none
  else if opc = 0x15 then some (ibits w 35 32)
  else if opc = 0x21 then some (regGroup (ibits w 33 28))
  else some (ibits w 39 36)

/-- The conflict rules of R240 for a format P word. -/
def conflict (w : IWord) : Bool :=
  let (xm, ym) := (xmOf w, ymOf w)
  let loads (mv : Mv) := mv.type == 1 && writtenBy w == some mv.reg
  let ptr (mv : Mv) := mv.type != 0 && opcOf w == 0x21 && ibits w 33 28 == 0x10 + mv.ptr
  loads xm || loads ym || (xm.type == 1 && ym.type == 1 && xm.reg == ym.reg) || ptr xm || ptr ym

/-- The extension of LDX, LDY, STX and STY as R248 allows it. -/
def eaOk (w : IWord) : Bool := if ibits w 23 23 = 0 then ibits w 22 15 == 0 else ibits w 19 16 == 0

/-- Whether an opcode is listed (R235). -/
def listed (opc : Nat) : Bool :=
  decide (opc ≤ 0x16 ∨ (0x18 ≤ opc ∧ opc ≤ 0x21) ∨ (0x40 ≤ opc ∧ opc ≤ 0x44) ∨ opc = 0x48 ∨ opc = 0x49
    ∨ (0x50 ≤ opc ∧ opc ≤ 0x56) ∨ (0x58 ≤ opc ∧ opc ≤ 0x5C))

/-- Whether a word at address `a` is a reserved encoding, but for the placement rule of R253. -/
def reserved (w : IWord) (a : Nat) : Bool :=
  let opc := opcOf w
  let z (hi lo : Nat) := decide (ibits w hi lo = 0)
  let reg := regCode (ibits w 39 34) && z 33 24
  let exit_ := z 23 14 && (let x := if ibits w 13 0 = 0 then 0x4000 else ibits w 13 0; decide (a + 2 ≤ x))
  !(if !listed opc then false
    else if opc < 0x40 then operandsOk w && mvOk (xmOf w) && mvOk (ymOf w) && !conflict w
    else if opc = 0x40 then reg
    else if opc ≤ 0x42 then reg && eaOk w && !(ibits w 23 23 == 1 && ibits w 39 34 == 0x10 + ibits w 22 20)
    else if opc ≤ 0x44 then reg && eaOk w
    else if opc ≤ 0x49 then reg && z 23 7
    else if opc = 0x50 then decide (ibits w 39 36 ≠ 15) && z 35 24 && z 23 14
    else if opc = 0x51 then z 36 24 && z 23 14
    else if opc = 0x52 then decide (ibits w 39 36 ≠ 15) && z 32 24 && z 23 0
    else if opc = 0x53 ∨ opc = 0x54 ∨ opc = 0x5A then z 39 0
    else if opc ≤ 0x56 then z 39 24
    else if opc = 0x58 then exit_
    else if opc = 0x59 then z 36 24 && exit_
    else if opc = 0x5B then z 39 36 && z 23 0
    else z 36 0)

end Sys2Proof.Machine
end

