-- ==== Sys2Proof/Machine/Flags.lean ====
section
/-! DEFINITION. The flags of a DSP core: put_acc, carry and borrow (R203, R242), the flags of data-register operations
(R246) and the conditions (R241). SRG bits: C 2, Z 3, N 4, W 5, SL 6, V 7. -/

namespace Sys2Proof.Machine

/-- W, N and Z of a 56-bit result (R242). -/
def Core.setWNZ (c : Core) (v : Int) : Core :=
  let u := ux 56 v
  let top := u / 2 ^ 47
  ((c.setSrg 5 (top != 0 && top != 511)).setSrg 4 (bitOf u 55 == 1)).setSrg 3 (v == 0)

/-- Whether an exact result leaves the 56-bit range (R203). -/
def outside56 (v : Int) : Bool := decide (v < -(2 ^ 55) ∨ 2 ^ 55 - 1 < v)

/-- An exact result wrapped or saturated (R203). -/
def fit56 (om : Bool) (v : Int) : Int := if outside56 v then (if om then satI 56 v else sx 56 (ux 56 v)) else v

/-- put_acc (R242). -/
def Core.putAcc (c : Core) (n : Nat) (v : Int) : Core :=
  let c := if outside56 v then c.setSrg 7 true else c
  (c.setAcc n (fit56 c.om v)).setWNZ (fit56 c.om v)

/-- C set or cleared. -/
def Core.setC (c : Core) (b : Bool) : Core := c.setSrg 2 b

/-- carry(a, b) on 56-bit patterns (R242). -/
def carry56 (a b : Int) : Bool := decide (2 ^ 56 ≤ ux 56 a + ux 56 b)

/-- borrow(a, b) on 56-bit patterns (R242). -/
def borrow56 (a b : Int) : Bool := decide (ux 56 a < ux 56 b)

/-- The result of a data-register operation with its flags (R246): N from bit 23, Z, W 0, and C as given. -/
def Core.putData (c : Core) (n : Nat) (v : Int) (cf : Bool) : Core :=
  let u := ux 24 v
  ((((c.setD n v).setSrg 4 (bitOf u 23 == 1)).setSrg 3 (u == 0)).setSrg 5 false).setC cf

/-- A condition (R241), tested on SRG as it stands. -/
def Core.cond (c : Core) (cc : Nat) : Bool :=
  let (z, n, cf, w, v, sl) := (c.srgBit 3, c.srgBit 4, c.srgBit 2, c.srgBit 5, c.srgBit 7, c.srgBit 6)
  match cc with
  | 0 => true | 1 => z | 2 => !z | 3 => n | 4 => !n | 5 => !n && !z | 6 => n || z | 7 => cf | 8 => !cf
  | 9 => w | 10 => !w | 11 => v | 12 => !v | 13 => sl | 14 => !sl | _ => false

end Sys2Proof.Machine
end

