-- ==== Sys2Proof/Machine/DspRun.lean ====
section
/-! DEFINITION. The tick program of a DSP core: entry, end, abort, output and input streams, retirement and replay
(07_dsp_cores.md, R193–R232). -/

namespace Sys2Proof.Machine

open Regs

/-! ### Cores -/

/-- A register bank as R198 sets it. -/
def zeroBank : Bank := ⟨.replicate 8 0, .replicate 4 0, .replicate 8 0, 0⟩

/-- A core that holds no task. -/
def idleCore : Core where
  task := none
  bank := zeroBank
  shadow := zeroBank
  s := .replicate 8 0
  m := .replicate 8 0
  lc := 0
  la := 0
  ls := 0
  stack := []
  lcWait := []
  laWait := []
  x := []
  y := []
  prog := []
  pc := 0
  ret := 0
  inIsr := false
  running := false
  ended := true
  faulted := false
  cycles := 0
  runTick := 0
  first := false
  replay := false
  hazP := []
  hazD := []
  timer := 0
  irqStat := 0
  irqSet := 0
  irqAt := 0
  irqEn := 0
  src := []
  fsrc := []
  out := []
  work := []
  rx := []
  phase := 0
  kept := []
  persX := []
  persY := []
  pend := []
  loaded := false
  home := none
  stopped := false
  failTick := 0
  reported := true

/-- What core `n` holds. -/
def State.core (s : State) (n : Nat) : Core := FMap.get (fun _ => idleCore) s.cores n

/-- What core `n` holds, replaced. -/
def State.setCore (s : State) (n : Nat) (c : Core) : State :=
  { s with cores := FMap.set (fun _ => idleCore) s.cores n c }

/-- Whether core `n` exists. -/
def State.hasCore (s : State) (n : Nat) : Bool := decide (n < s.part.cores)

/-- STATE of a core (R193): 0 OFF, 1 SPARE, 2 LOADING, 3 PLACED, 4 RETIRED. -/
def State.coreState (s : State) (n : Nat) : Nat := s.fld (dspState n) dspState_STATE

/-- STATE of a core set. -/
def State.setCoreState (s : State) (n st : Nat) : State := s.setFld (dspState n) dspState_STATE st

/-- RUN of a core set: 0 idle, 1 running, 2 in handler, 3 replaying (R233). -/
def State.setRunCode (s : State) (n r : Nat) : State := s.setFld (dspState n) dspState_RUN r

/-- RUN as the core stands. -/
def Core.runCode (c : Core) : Nat := if !c.running then 0 else if c.inIsr then 2 else if c.replay then 3 else 1

/-- B of R40 and R217: the whole part of 0.98 × 12 × TICK_DIV. -/
def State.budget (s : State) : Nat := 1176 * s.tickDiv / 100

/-- An empty output stream. -/
def noOut : OutSt := ⟨0, 0, false, none, 0, [], 0, 0, false⟩

/-- Output stream `j`. -/
def Core.outOf (c : Core) (j : Nat) : OutSt := FMap.get (fun _ => noOut) c.out j

/-- Output stream `j` replaced. -/
def Core.setOut (c : Core) (j : Nat) (o : OutSt) : Core := { c with out := FMap.set (fun _ => noOut) c.out j o }

/-- The binding of output stream `j`. -/
def Core.outPort (c : Core) (j : Nat) : Option OutPort := c.task.bind (fun t => t.outs.find? (fun o => o.port == j))

/-- The binding of input stream `i`. -/
def Core.inPort (c : Core) (i : Nat) : Option InPort := c.task.bind (fun t => t.ins.find? (fun p => p.port == i))

/-- The bits of IRQ_STAT that hardware has set in the present cycle (R12). -/
def Core.irqJust (c : Core) : Nat := if c.irqAt = c.cycles then c.irqSet else 0

/-- Bits of IRQ_STAT set by hardware (R222): a write in the same cycle does not clear them (R12). -/
def Core.raiseIrq (c : Core) (b : Nat) : Core :=
  { c with irqStat := c.irqStat ||| b, irqSet := c.irqJust ||| b, irqAt := c.cycles }

/-- The post in progress of a stream at its end: BUSY falls, with OUT_IDLE where no other stream is busy (R222). -/
def Core.endPost (c : Core) (j : Nat) : Core :=
  let c := c.setOut j { c.outOf j with busy := none }
  if (List.range 8).any (fun i => (c.outOf i).busy.isSome) then c else c.raiseIrq 2

/-! ### Output engine (R213–R215) -/

/-- The capture stream that an edge feeds. -/
def State.sinkCap (s : State) (e : PlacedEdge) : Option Nat :=
  (s.wheel.graphs.find? (fun g => g.edges.contains e)).bind (fun g =>
    (g.elem e.ed.to_).bind (fun y => if y.el.kind = 8 then some y.stream else none))

/-- The index of the first word that a task sends on an edge, kept for the capture stream that the edge feeds (R409). -/
def State.noteLead (s : State) (e : PlacedEdge) (i : Nat) : State :=
  match s.sinkCap e with
  | none => s
  | some k => if (s.cap k).lead.isSome then s else s.setCap k { s.cap k with lead := some i }

/-- The open packet of an output stream closed and sent as words of a tick (R215). -/
def State.closeOutAt (s : State) (n j tick : Nat) : State :=
  let c := s.core n
  let o := c.outOf j
  if o.pkt.isEmpty then s
  else
    let t := (s.streamsFrom (0x4000 + n) (8 + j)).foldl
      (fun t e => (t.noteLead e (o.seq - o.pkt.length)).sendOn e (t.streamPacket e tick 0 (wordBytes o.pkt))) s
    t.setCore n (c.setOut j { o with pkt := [], sent := o.sent + o.pkt.length })

/-- The open packet of the run in progress closed and sent. -/
def State.closeOut (s : State) (n j : Nat) : State := s.closeOutAt n j (s.core n).runTick

/-- A word put into the open packet of an output stream (R213, R215): P says a replay. -/
def State.pushWord (s : State) (n j tick : Nat) (data : DWord) (flags : Nat) (p : Bool) : State :=
  let c := s.core n
  let o := c.outOf j
  let w : Word := BitVec.ofNat 32 (data.toNat * 0x100 + flags + flag p * 0x20 + o.seq % 16)
  let o1 := { o with seq := o.seq + 1, pkt := o.pkt ++ [w] }
  let t := s.setCore n (c.setOut j o1)
  if 512 ≤ o1.pkt.length then t.closeOutAt n j tick else t

/-- A word of the run in progress formed by the output engine: sent, or only counted where a replay is not to send it again (R213, R228). -/
def State.formWord (s : State) (n j : Nat) (data : DWord) (flags : Nat) : State :=
  let c := s.core n
  let o := c.outOf j
  let o1 := { o with formed := o.formed + 1 }
  if 0 < o.skip then s.setCore n (c.setOut j { o1 with skip := o.skip - 1, sent := o.sent + 1 })
  else (s.setCore n (c.setOut j o1)).pushWord n j c.runTick data flags c.replay

/-- The flag bits of word `i` of a post: those of the post, and of the word's byte in its flag area (R211, R213). -/
def Core.postFlags (c : Core) (p : Post) (i : Nat) : Nat :=
  let b := if p.packed then bitsOf (c.mem p.fy (p.faddr + i / 3)).toNat (8 * (i % 3) + 7) (8 * (i % 3)) else 0
  (p.flags ||| b) &&& 0xD0

/-- A post read by the output engine, from word `i` on. -/
def State.readPost (s : State) (n j : Nat) (p : Post) : Nat → Nat → State
  | 0, _ => s
  | k + 1, i =>
    let c := s.core n
    (s.formWord n j (c.mem p.y (p.addr + i)) (c.postFlags p i)).readPost n j p k (i + 1)

/-- The post in progress of a stream read to its end; BUSY falls. -/
def State.drainPost (s : State) (n j : Nat) : State :=
  match ((s.core n).outOf j).busy with
  | none => s
  | some p =>
    let t := s.readPost n j p p.count 0
    t.setCore n ((t.core n).endPost j)

/-- The run's words on an output stream completed: the missing ones of a SAMPLE stream added with DATA 0 and M, and its packet closed
(R214, R215). -/
def State.padOut (s : State) (n : Nat) (o : OutPort) : State :=
  let x := (s.core n).outOf o.port
  if x.closed ∨ o.record then s.closeOut n o.port
  else
    let t := (List.range (o.w - x.formed)).foldl (fun t _ => t.formWord n o.port 0 0x10) s
    let c := t.core n
    (t.setCore n (c.setOut o.port { c.outOf o.port with closed := true })).closeOut n o.port

/-- Every post of a core that is still being read, read to its end, and the run's words on its stream completed. -/
def State.settleOut (s : State) (n : Nat) : State :=
  (List.range 8).foldl (fun t j =>
    if !((t.core n).outOf j).busy.isSome then t
    else
      let t := t.drainPost n j
      match (t.core n).outPort j with
      | some o => t.padOut n o
      | none => t) s

/-- A post of `k` words by the program (R213, R214): those beyond W are dropped, and so are any after the run's words have been
completed. -/
def State.postWords (s : State) (n j : Nat) (p : Post) : State :=
  let c := s.core n
  match c.outPort j with
  | none => s
  | some op =>
    let o := c.outOf j
    let k := if o.closed then 0 else min p.count (op.w - o.posted)
    let o1 := { o with posted := o.posted + k, excess := o.excess || decide (k < p.count),
                       busy := if k = 0 then none else some { p with count := k, at_ := c.cycles } }
    let t := s.setCore n (c.setOut j o1)
    if k < p.count && !o.excess then t.raise (576 + n) 0xA [] ((c.task.map (fun t => t.fn + 1)).getD 15) else t

/-! ### The end of a run (R217–R220) -/

/-- CYCLES_LAST, CYCLES_MAX and the WCET check of a run (R217, R219). -/
def State.countCycles (s : State) (n cycles : Nat) : State :=
  let t := s.setReg (cyclesLast n) (BitVec.ofNat 32 cycles)
  let t := if (t.reg (cyclesMax n)).toNat < cycles then t.setReg (cyclesMax n) (BitVec.ofNat 32 cycles) else t
  let before := if (s.core n).ended then (s.reg (cyclesLast n)).toNat else 0
  let w := (t.reg (Regs.wcet n)).toNat
  if before ≤ w ∧ w < cycles then
    (t.setFlag (dspStatus n) dspStatus_WCET_EXC).raise (576 + n) 3 [] (((s.core n).task.map (fun t => t.fn + 1)).getD 15)
  else t

/-- The function that owns a core's task, as an owner code. -/
def Core.fnCode (c : Core) : Nat := (c.task.map (fun t => t.fn + 1)).getD 15

/-- The persistent region as it stands, put in the retention store (R226). -/
def Core.retain (c : Core) : Core :=
  match c.task with
  | some t => { c with persX := (List.range t.persX).map (c.mem false), persY := (List.range t.persY).map (c.mem true) }
  | none => c

/-- The pending runs of a core (R228), shown in LAG. -/
def State.setPend (s : State) (n : Nat) (l : List RunIn) : State :=
  (s.setCore n { s.core n with pend := l }).setFld (lag n) lag_PENDING (min 4 l.length)

/-- The output of an ended run completed: after an abort or a fault (`drop`) a post is cut off behind the words that the output engine has
read by then, at 4 a cycle from its own post on (R213, R218; DESIGN CHOICE, log entry 73); a stream still busy after HALT is completed when
its post is done. -/
def State.finishOut (s : State) (n cycles : Nat) (drop : Bool) : State :=
  match (s.core n).task with
  | none => s
  | some k => k.outs.foldl (fun t o =>
      match ((t.core n).outOf o.port).busy with
      | none => t.padOut n o
      | some p =>
        if !drop then t
        else
          let t := t.readPost n o.port p (min p.count (4 * (cycles - p.at_))) 0
          (t.setCore n ((t.core n).endPost o.port)).padOut n o) s

/-- The run of a core ended: `drop` after an abort or a fault. -/
def State.endRun (s : State) (n cycles : Nat) (drop : Bool) : State :=
  let t := s.countCycles n cycles
  let c := (t.core n).retain
  let t := t.setCore n { c with running := false, ended := true, inIsr := false, first := false, cycles := cycles }
  (t.setRunCode n 0).finishOut n cycles drop

/-! ### The start of a run (R198, R210, R217) -/

/-- The registers and peripherals of a core at tick program entry (R198, R216, R224). -/
def Core.entry (c : Core) : Core :=
  { c with bank := zeroBank, shadow := zeroBank, s := .replicate 8 0, m := .replicate 8 0, lc := 0, la := 0, ls := 0,
           stack := [], lcWait := [], laWait := [], pc := 0, ret := 0, inIsr := false, faulted := false, cycles := 0, hazP := [],
           hazD := [], timer := 0, irqStat := 0, irqSet := 0, irqAt := 0, irqEn := 0, src := [], fsrc := [] }

/-- An output stream at the start of a run; `redo` keeps the words that are not to be sent again (R228). -/
def OutSt.begin (o : OutSt) (redo : Bool) : OutSt :=
  { o with posted := 0, formed := 0, excess := false, busy := none, pkt := [], sent := 0, skip := if redo then o.skip else 0, closed := false }

/-- A run begun on an input that lies in the work buffers: a replay, and whether it does again what a retired core had begun (R228). -/
def State.beginRunOn (s : State) (n : Nat) (r : RunIn) (replay : Bool) (redo : Bool := false) : State :=
  let c := (s.core n).entry
  let c := { c with running := true, ended := false, runTick := r.tick, replay := replay,
                    work := r.rx.foldl (fun m (x : Nat × Rx) => FMap.set (fun _ => ⟨[], false⟩) m x.1 x.2) [] }
  let c := (List.range 8).foldl (fun c j => c.setOut j ((c.outOf j).begin redo)) c
  (s.setCore n c.retain).setRunCode n c.runCode

/-- The cycles that a run has had at this boundary, which ends the tick before it (R217). -/
def State.fullCycles (s : State) : Nat := 6 * (s.tickStart - s.time.lastStart) / 10 - 8

/-- The run of a core over at a boundary (R218, R224): one that has not halted is aborted, a handler that runs after HALT is cut off with
its cycles counted, and posts are read to their end. -/
def State.settleRun (s : State) (n : Nat) : State :=
  let c := s.core n
  if c.running && !c.ended then
    let t := ((s.endRun n s.fullCycles true).setFlag (dspStatus n) dspStatus_OVERRUN).count (overruns n)
    t.raise (576 + n) 1 [] c.fnCode
  else
    let t := if c.running then (s.countCycles n c.cycles).setCore n { c.retain with running := false, inIsr := false } else s
    t.settleOut n

/-- What a core has received since the last boundary, as the input of a run. -/
def Core.received (c : Core) (tick : Nat) : RunIn :=
  ⟨tick, (c.task.map (fun t => t.ins.map (fun p => (p.port, FMap.get (fun _ => ⟨[], false⟩) c.rx p.port)))).getD []⟩

/-- The buffers exchanged (R210) and the input kept in the retention store (R226). -/
def Core.exchange (c : Core) (r : RunIn) : Core :=
  { c with rx := [], phase := 1 - c.phase, kept := (c.kept ++ [r]).drop ((c.kept.length + 1) - 4) }

/-- A word of an input stream written into a buffer (R211): `ph` is the buffer, `k` its place. -/
def Core.storeIn (c : Core) (p : InPort) (ph k : Nat) (w : Word) : Core :=
  let base := if ph = 0 then p.base0 else p.base1
  let c := c.setMem p.y (base + k) (BitVec.ofNat 24 (w.toNat / 0x100))
  if !p.flagged then c
  else
    let a := (if ph = 0 then p.f0 else p.f1) + k / 3
    let old := (c.mem p.y a).toNat
    let b := 2 ^ (8 * (k % 3))
    c.setMem p.y a (BitVec.ofNat 24 (old - (old / b % 0x100) * b + (w.toNat % 0x100) * b))

/-- A word taken by a core's input stream `i`: into memory, or only into the retention store while a spare catches up. -/
def State.takeWord (s : State) (n i : Nat) (w : Word) (store : Bool) : State :=
  let c := s.core n
  match c.inPort i with
  | none => s
  | some p =>
    let r := FMap.get (fun _ => ⟨[], false⟩) c.rx i
    let put (c : Core) (r : Rx) : Core := { c with rx := FMap.set (fun _ => ⟨[], false⟩) c.rx i r }
    if p.len ≤ r.words.length then
      (s.setCore n (put c { r with ovf := true })).raise (576 + n) 9 [] c.fnCode
    else
      let c := if store then c.storeIn p c.phase r.words.length w else c
      s.setCore n (put c { r with words := r.words ++ [w] })

/-- A sample word that reaches the NI of core `n` for its input stream `i`: while a spare catches up for `n`, the word
goes to the retention store (R226–R228). -/
def State.inputWord (s : State) (n i : Nat) (w : Word) : State :=
  let p := s.fld (dspState n) dspState_PARTNER
  if s.coreState n = 3 then s.takeWord n i w true
  else if s.coreState n = 2 ∧ (s.core n).home.isSome then s.takeWord n i w false
  else if s.coreState n = 4 ∧ p < s.part.cores ∧ (s.core p).home = some n then s.takeWord p i w false
  else if s.coreState n = 4 ∧ !(s.core n).reported then s.takeWord n i w false
  else s

/-- INPUT_WORD_ARRIVAL (R211, R212). -/
def execInputWordArrival (n i : Nat) (w : Word) (s : State) : Result :=
  .next (s.onlyIf (s.hasCore n && decide (i < 8)) (s.inputWord n i w))

/-- Step 4 for a PLACED core (R217, R218, R210, R224): the overrun check, or the count of a handler that still runs after HALT; the
exchange of buffers, and the entry. -/
def State.tickEntry (s : State) (n : Nat) : State :=
  let t := s.settleRun n
  let r := (t.core n).received s.time.ended
  (t.setCore n ((t.core n).exchange r)).beginRunOn n r false

/-! ### Retirement (R197, R221, R225–R231) -/

/-- A core retired now (R227): it stops at once, and the run in progress is pending again from its start (R228), without the words that
have been sent. -/
def State.retireCore (s : State) (n cause : Nat) : State :=
  let c := s.core n
  let redo := c.running && !c.ended
  let c1 : Core := (List.range 8).foldl (fun (c : Core) j =>
    let o := c.outOf j
    c.setOut j { o with seq := o.seq - o.pkt.length, busy := none, pkt := [], skip := if redo then o.skip + o.sent else o.skip }) c
  let cur : RunIn := ⟨c.runTick, c.work⟩
  let pend := if redo && !c.replay then [cur] else c.pend
  let t := s.setCore n { c1 with running := false, ended := true, replay := false, failTick := s.time.tick,
                                 reported := false }
  let t := (((t.setPend n pend).setCoreState n 4).setFld (dspState n) dspState_CAUSE cause).setRunCode n 0
  (t.setFlag (dspStatus n) dspStatus_RETIRE).setFld (dspStatus n) dspStatus_CATCHUP 0

/-- Words corrected on a core (R197). -/
def State.eccCorrected (s : State) (n words : Nat) : State :=
  if words = 0 then s
  else
    let t := s.setReg (eccCount n) (s.reg (eccCount n) + BitVec.ofNat 32 words)
    if t.bit (dspStatus n) dspStatus_ECC_CORR then t
    else (t.setFlag (dspStatus n) dspStatus_ECC_CORR).raise (576 + n) 8 [] (s.core n).fnCode

/-- OUTPUT_POST_DONE (R213, R222, R197): the output engine has read the posted words of a stream; a double-bit error among them retires
the core. -/
def execOutputPostDone (n : Nat) (p : PostEnd) (s : State) : Result :=
  .next (s.onlyIf (s.hasCore n && s.clocked && ((s.core n).outOf p.stream).busy.isSome)
    (match p.ecc with
     | .double => s.retireCore n 1
     | e =>
       let t := (s.eccCorrected n (match e with | .single k => k | _ => 0)).drainPost n p.stream
       let c := t.core n
       match c.outPort p.stream with
       | some o => if c.ended then t.padOut n o else t
       | none => t))

/-- The fewest torus hops between two routers (R374). -/
def routerDistance (a b : Nat) : Nat :=
  let ring (x y : Nat) := min ((x + 8 - y) % 8) ((y + 8 - x) % 8)
  ring (a % 8) (b % 8) + ring (a / 8) (b / 8)

/-- The SPARE cores of a cluster that no graph has reserved (R276). -/
def State.sparesOf (s : State) (g : Nat) : List Nat :=
  ((List.range 8).map (8 * g + ·)).filter (fun n => s.hasCore n && s.coreState n == 1 && !s.claimed (0x4000 + n))

/-- The spare chosen for a retired core (R227). -/
def State.chooseSpare (s : State) (n : Nat) : Option Nat :=
  match s.sparesOf (n / 8) with
  | x :: _ => some x
  | [] =>
    let dist (g : Nat) : Option Nat := ((s.sparesOf g).map (fun m => routerDistance (niCore n / 4) (niCore m / 4))).min?
    let best := (List.range 9).foldl (fun (b : Option (Nat × Nat)) g =>
      match dist g, b with
      | some d, some (d0, g0) => if d < d0 then some (d, g) else some (d0, g0)
      | some d, none => some (d, g)
      | none, b => b) none
    best.bind (fun x => (s.sparesOf x.2).head?)

/-- Words written to a memory from an address on. -/
def putWords (m : FMap DWord) (a : Nat) (l : List DWord) : FMap DWord :=
  (l.zipIdx).foldl (fun m x => FMap.set (fun _ => 0) m ((a + x.2) % 0x8000) x.1) m

/-- A persistent region written into a core's memories (R226, R286). -/
def Core.putRegion (c : Core) (px py : List DWord) : Core :=
  { c with x := putWords c.x 0 px, y := putWords c.y 0 py, persX := px, persY := py }

/-- A task loaded into a core: its images, and a persistent region (R196, R227); its next run is the first (RUNINFO). -/
def Core.load (c : Core) (t : Task) (px py : List DWord) : Core :=
  let prog := (t.prog.zipIdx).foldl (fun m x => FMap.set (fun _ => 0) m x.2 x.1) []
  { c with task := some t, prog := prog, x := putWords [] t.xAddr t.xWords, y := putWords [] t.yAddr t.yWords, first := true }.putRegion px py

/-- The registers that Deogen writes when a task is placed (R233). -/
def State.showTask (s : State) (n : Nat) (k : Task) : State :=
  let t := (s.setReg (Regs.budget n) (BitVec.ofNat 32 s.budget)).setReg (Regs.wcet n) (BitVec.ofNat 32 k.wcet)
  let t := ((t.setReg (cyclesLast n) 0).setReg (cyclesMax n) 0).setReg (overruns n) 0
  t.setReg (pfaults n) 0

/-- The element of a task, given another core (R227, R292); edges that leave it start at the new core's NI, and those
that end at it move when `inputs` says so. -/
def Graph.moveTask (s : State) (g : Graph) (id old new flags : Nat) (inputs : Bool) : Graph :=
  let unit (since : Nat) (es : List PlacedElem) : List PlacedElem := es.map (fun e =>
    if e.el.id = id ∧ e.el.kind = 4 ∧ e.unit = 0x4000 + old then { e with unit := 0x4000 + new, since := since, flags := e.flags ||| flags } else e)
  let route (ds : List PlacedEdge) : List PlacedEdge := ds.map (fun e =>
    if e.ed.analog then e
    else if e.ed.frm = id ∧ e.src = niCore old then s.rerouteEdge e (niCore new) e.dst
    else if inputs ∧ e.ed.to_ = id ∧ e.dst = niCore old then s.rerouteEdge e e.src (niCore new)
    else e)
  let g' : Graph := { g with elems := unit s.time.tick g.elems, edges := route g.edges
                             change := g.change.map (fun c => { c with elems := unit 0 c.elems, edges := route c.edges }) }
  g'.advance s

/-- The reserved core of a version that waits, given up for another (R22, R24): in the version it belongs to, whether the graph has not
started or a change of it waits. -/
def Graph.replaceReserved (s : State) (g : Graph) (old new : Nat) : Graph :=
  let unit (es : List PlacedElem) : List PlacedElem := es.map (fun e =>
    if e.el.kind = 4 ∧ e.unit = 0x4000 + old then { e with unit := 0x4000 + new, flags := e.flags ||| 2 } else e)
  let route (ds : List PlacedEdge) : List PlacedEdge := ds.map (fun e =>
    if e.ed.analog then e
    else if e.src = niCore old then s.rerouteEdge e (niCore new) e.dst
    else if e.dst = niCore old then s.rerouteEdge e e.src (niCore new)
    else e)
  let now : Bool := g.phase == .admitted && g.elems.any (fun e => e.el.kind == 4 && e.unit == 0x4000 + old)
  let g := { g with change := g.change.map (fun c => { c with elems := unit c.elems, edges := route c.edges }) }
  let g' : Graph := { g with elems := unit g.elems, edges := route g.edges }
  if now then g'.advance s else g

/-- A change to one graph. -/
def State.onGraph (s : State) (fn handle : Nat) (f : Graph → Graph) : State :=
  let pick (g : Graph) : Bool := g.fn == fn && g.handle == handle && g.phase != .stopped
  { s with wheel := { s.wheel with graphs := s.wheel.graphs.map (fun (g : Graph) => if pick g then f g else g) } }

/-- A task moved in its graph (R292). -/
def State.moveTask (s : State) (k : Task) (old new flags : Nat) (inputs : Bool) : State :=
  s.onGraph k.fn k.handle (fun g => g.moveTask s k.elem old new flags inputs)

/-- The unit code of a core, 0xFFFF for none (R460). -/
def coreUnit : Option Nat → Nat | some n => 0x4000 + n | none => 0xFFFF

/-- A retired core reported at step 2 (R231, R460, R474). -/
def State.reportCore (s : State) (n : Nat) (spare : Option Nat) (firstTick : Nat) : State :=
  let c := s.core n
  let cause := s.fld (dspState n) dspState_CAUSE
  let a0 := coreUnit spare * 0x10000 + (0x4000 + n)
  s.report ⟨5, 0, s.ownCore n, 576 + n, a0, firstTick % 0x100000000, cause, 0, c.failTick⟩ (576 + n) 4
    [a0, cause * 0x1000000, firstTick % 0x100000000] c.fnCode

/-- A spare takes over the task of a retired core at step 2 (R227): it is LOADING, with the images, the persistent
region and the retained input. -/
def State.takeOver (s : State) (n p : Nat) (k : Task) : State :=
  let c := s.core n
  let new := (idleCore.load k c.persX c.persY)
  let new := { new with out := c.out, pend := c.pend, home := some (c.home.getD n), kept := c.kept, rx := c.rx,
                        first := c.first }
  let t := (s.setPend n []).setCore n { idleCore with failTick := c.failTick }
  let t := ((t.setCore p new).showTask p k).setCoreState p 2
  let t := (t.setFld (dspState p) dspState_PARTNER n).setFld (dspState (c.home.getD n)) dspState_PARTNER p
  let t := ((t.setFld (dspState n) dspState_PARTNER p).setFld (dspStatus p) dspStatus_CATCHUP 1).setOwner coreOwner p 10
  (t.setPend p c.pend).moveTask k n p 2 false

/-- The words of a run that is not executed, on one stream: `k` of them with DATA 0 and M, in packets of their own under the run's tick. What
the run in progress has in its open packet leaves first, under that run's own tick (R214, R215, R229, R230). -/
def State.padRun (s : State) (n j tick k : Nat) : State :=
  let t := s.closeOut n j
  let o := (t.core n).outOf j
  let t := ((List.range k).foldl (fun t _ => t.pushWord n j tick 0 0x10 false) t).closeOutAt n j tick
  t.setCore n ((t.core n).setOut j { (t.core n).outOf j with sent := o.sent })

/-- The SAMPLE words of a run that is not executed, on every stream; of a run that a retired core had begun, those not yet sent. -/
def State.padRuns (s : State) (n : Nat) (k : Task) (r : RunIn) (begun : Bool) : State :=
  k.outs.foldl (fun t o =>
    let x := (t.core n).outOf o.port
    let t := if o.record then t else t.padRun n o.port r.tick (o.w - (if begun then x.skip else 0))
    if begun then t.setCore n ((t.core n).setOut o.port { (t.core n).outOf o.port with skip := 0 }) else t) s

/-- A task that finds no spare stops (R230): the runs that were pending deliver their words as every later one will. -/
def State.stopTask (s : State) (n : Nat) (k : Task) : State :=
  let c := s.core n
  let t := (c.pend.zipIdx).foldl (fun t r => t.padRuns n k r.1 (r.2 == 0)) s
  let t := t.setPend n []
  let t := t.setCore n { t.core n with stopped := true }
  t.onGraph k.fn k.handle (fun g => { g with elems := g.elems.map (fun e =>
    if e.el.id = k.elem then { e with flags := e.flags ||| 24 } else e) })

/-- Whether a core is reserved for a version that has not yet come into force (R276). -/
def State.reserved_ (s : State) (n : Nat) : Bool := s.graphs.any (fun g => g.allElems.any (fun e => e.el.kind == 4 && e.unit == 0x4000 + n))

/-- Step 2 for a retired core that holds no task (R22, R24, R231): where a graph or a change that waits has reserved it, a spare takes its
place there, or NO_SPARE is raised. -/
def State.replaceSpare (s : State) (n : Nat) : State :=
  let whose := (s.graphs.filter (fun g => g.allElems.any (fun e => e.el.kind == 4 && e.unit == 0x4000 + n))).head?
  let spare := if s.reserved_ n then s.chooseSpare n else none
  let t := (s.reportCore n spare 0).setOwner coreOwner n 15
  match whose, spare with
  | some g, some p =>
    let t := (t.setFld (dspState n) dspState_PARTNER p).setFld (dspState p) dspState_PARTNER n
    t.onGraph g.fn g.handle (fun g => g.replaceReserved t n p)
  | some g, none => t.raise (576 + n) 7 [] (g.fn + 1)
  | none, _ => t

/-- Step 2 for one retired core (R227, R230, R231). -/
def State.replaceCore (s : State) (n : Nat) : State :=
  let c := s.core n
  if s.coreState n ≠ 4 ∨ c.reported then s
  else
    let s := (s.setCore n { c with reported := true }).setFld (dspState n) dspState_PARTNER 0xFF
    match c.task with
    | none => s.replaceSpare n
    | some k =>
      let firstTick := (c.pend.head?.map (fun r => r.tick)).getD s.time.ended
      match s.chooseSpare n with
      | some p =>
        let t := s.reportCore n (some p) firstTick
        (t.takeOver n p k).setOwner coreOwner n 15
      | none => ((s.reportCore n none firstTick).raise (576 + n) 7 [] c.fnCode).stopTask n k

/-- SPARE_LOAD_DONE (R227): the load of a spare has ended. -/
def execSpareLoadDone (n : Nat) (s : State) : Result :=
  .next (s.onlyIf (s.hasCore n && s.coreState n == 2 && (s.core n).home.isSome)
    (s.setCore n { s.core n with loaded := true }))

/-- A pending run dropped (R229): its SAMPLE words are padded and sent at once, and it is not executed. -/
def State.dropPending (s : State) (n : Nat) (r : RunIn) (first : Bool) : State :=
  let c := s.core n
  match c.task with
  | none => s
  | some k => ((s.padRuns n k r first).setFlag (dspStatus n) dspStatus_DROPPED).raise (576 + n) 6 [] c.fnCode

/-- The input of a replay run copied into the work buffers (R228). -/
def Core.copyIn (c : Core) (r : RunIn) : Core :=
  r.rx.foldl (fun c x => match c.inPort x.1 with
    | some p => (x.2.words.zipIdx).foldl (fun c w => c.storeIn p (1 - c.phase) w.2 w.1) c
    | none => c) c

/-- The oldest pending run begun (R228); `redo` for the first one, of which a retired core has sent words. -/
def State.nextReplay (s : State) (n : Nat) (redo : Bool) : State :=
  match (s.core n).pend with
  | [] => s
  | r :: _ => (s.setCore n ((s.core n).copyIn r)).beginRunOn n r true redo

/-- A replay run over: it leaves the pending runs, and the next begins at once (R228); what a retired core had sent of it is no matter any
more. -/
def State.endReplay (s : State) (n : Nat) : State :=
  let t := s.settleOut n
  let t := t.setCore n ((List.range 8).foldl (fun c j => c.setOut j { c.outOf j with skip := 0 }) (t.core n))
  (t.setPend n ((t.core n).pend.drop 1)).nextReplay n false

/-- A spare that catches up, at a boundary (R228, R229): a further run becomes pending, too old a backlog is dropped, and
the spare begins or goes on. -/
def State.catchUp (s : State) (n : Nat) : State :=
  let c := s.core n
  let busy := c.running && !c.ended
  let r := c.received s.time.ended
  let t := s.setCore n { c with rx := [], kept := (c.kept ++ [r]).drop ((c.kept.length + 1) - 4) }
  let all := c.pend ++ [r]
  let t := if all.length ≤ 4 then t.setPend n all
    else if busy then
      (match all with
       | a :: b :: rest => (t.dropPending n b false).setPend n (a :: rest)
       | _ => t.setPend n all)
    else
      (match all with
       | a :: rest => (t.dropPending n a true).setPend n rest
       | [] => t)
  if c.loaded && !busy then t.nextReplay n true else t

/-- Whether a spare is in step at a boundary (R228). -/
def State.inStep (s : State) (n : Nat) : Bool :=
  s.coreState n == 2 && (s.core n).home.isSome && (s.core n).loaded && !((s.core n).running && !(s.core n).ended) && (s.core n).pend.isEmpty

/-- The words received since the last boundary, put where the next run finds them: a spare has had them in the retention
store only (R228). -/
def Core.fetchKept (c : Core) : Core :=
  c.rx.foldl (fun c x => match c.inPort x.1 with
    | some p => (x.2.words.zipIdx).foldl (fun c w => c.storeIn p c.phase w.2 w.1) c
    | none => c) c

/-- A spare in step becomes PLACED (R228, R231): its owner, its input routes, CAUGHT_UP. -/
def State.placeSpare (s : State) (n : Nat) : State :=
  let c := (s.core n).fetchKept
  match c.task, c.home with
  | some k, some old =>
    let t := s.setCore n { c with home := none, loaded := false, replay := false }
    let t := ((t.setCoreState n 3).setFld (dspStatus n) dspStatus_CATCHUP 0).setOwner coreOwner n (k.fn + 1)
    let moved := s.graphs.any (fun g => g.fn == k.fn && g.handle == k.handle
      && g.edges.any (fun e => !e.ed.analog && e.ed.to_ == k.elem && e.dst == niCore old))
    let redirect (e : PlacedEdge) : PlacedEdge :=
      if !e.ed.analog && e.ed.to_ == k.elem && e.dst == niCore old then
        s.rerouteEdge e e.src (niCore n) else e
    let t := t.onGraph k.fn k.handle (fun g => { g with change := g.change.map (fun c => { c with edges := c.edges.map redirect }) })
    let t := if moved then t.onGraph k.fn k.handle (fun g => ({ g with edges := g.edges.map redirect } : Graph).advance s) else t
    t.raise (576 + n) 5
  | _, _ => s

/-- A task without a core (R230): its SAMPLE streams deliver words with DATA 0 and M. -/
def State.stoppedTask (s : State) (n : Nat) : State :=
  let c := s.core n
  match c.task with
  | some k => if c.stopped then s.padRuns n k ⟨s.time.ended, []⟩ false else s
  | none => s

/-- Step 4 for every core, but those that await a copy (R286). -/
def State.coresStep4 (s : State) (skip : Nat → Bool) : State :=
  foldBelow (fun n t =>
    if skip n then t
    else match t.coreState n with
    | 3 => t.tickEntry n
    | 2 => if (t.core n).home.isSome then t.catchUp n else t
    | 4 => t.stoppedTask n
    | _ => t) s.part.cores s

/-- REPLAY_RUN_ABORT (R228): a replay run has run B cycles without halting. -/
def execReplayRunAbort (n : Nat) (s : State) : Result :=
  .next (s.onlyIf (s.hasCore n && s.clocked && (s.core n).running && !(s.core n).ended && (s.core n).replay
      && decide (s.budget ≤ (s.core n).cycles))
    (let t := ((s.endRun n s.budget true).setFlag (dspStatus n) dspStatus_OVERRUN).count (overruns n)
     (t.raise (576 + n) 1 [] (s.core n).fnCode).endReplay n))

/-- WATCHDOG_TIMEOUT (R221): of a core that is to execute. -/
def execWatchdogTimeout (n : Nat) (s : State) : Result :=
  .next (s.onlyIf (s.hasCore n && (s.coreState n == 3 || (s.coreState n == 2 && (s.core n).home.isSome))) (s.retireCore n 2))

/-- Whether an interrupt of a core waits to be taken (R222). -/
def Core.interrupting (c : Core) : Bool := (c.irqStat &&& c.irqEn) != 0 && bitOf c.bank.srg.toNat 19 == 1 && !c.inIsr && !c.faulted

/-- Whether a PLACED core runs its self-test (R225): it has halted, no handler runs or waits, and at least 2,000 cycles remain before the
next boundary. -/
def State.mayTest (s : State) (n : Nat) : Bool :=
  let c := s.core n
  c.ended && !c.running && !c.interrupting && decide (2000 + (6 * s.time.sub + 9) / 10 ≤ 12 * s.tickDiv)

/-- SPARE_SELF_TEST (R225): the self-test of a SPARE core, or of a PLACED core that has halted; a mismatch retires it. -/
def execSpareSelfTest (n : Nat) (pass : Bool) (s : State) : Result :=
  .next (s.onlyIf (s.hasCore n && !pass && (s.coreState n == 1 || (s.coreState n == 3 && s.mayTest n)))
    (s.retireCore n 3))

end Sys2Proof.Machine
end

