-- ==== Sys2Proof/Machine/Rings.lean ====
section
/-! DEFINITION. Rings, doorbells, descriptors, the delivery of event records and MSI-X (14_host_interface.md, R429–R453;
15_events_and_faults.md, R458). What each descriptor does stands in the file of the unit that serves it. -/

namespace Sys2Proof.Machine

open Regs

/-! ### Functions -/


/-- Function `f`. -/
def State.fn (s : State) (f : Nat) : FnSt := FMap.get (fun _ => idleFn) s.fns f

/-- Function `f` replaced. -/
def State.setFn (s : State) (f : Nat) (x : FnSt) : State := { s with fns := FMap.set (fun _ => idleFn) s.fns f x }

/-- Whether a function reaches no host memory: it is in D3hot or has not yet resumed (R427), or it has Bus Master Enable clear (R420, R429). -/
def FnSt.silent (x : FnSt) : Bool := x.d3 || x.waking || !x.busMaster

/-- Whether GLOBAL reports Deogen ready (R429). -/
def State.ready (s : State) : Bool := s.bit bootStatus bootStatus_READY && s.open_

/-- STATUS of FN[f] as read: READY says that descriptors are being read (R429, R453). -/
def State.hostStatusWord (s : State) (f : Nat) : Word := hostStatus_READY.put (s.reg (hostStatus f)) (flag (s.ready && (s.fn f).busMaster))

/-! ### Descriptors (R435–R438) -/

/-- A 32-bit word of a descriptor. -/
def HostDesc.word (d : HostDesc) (k : Nat) : Nat := leAt d.bytes k 4
/-- CODE. -/
def HostDesc.code (d : HostDesc) : Nat := d.word 0 % 0x100
/-- TAG. -/
def HostDesc.tag (d : HostDesc) : Nat := d.word 0 / 0x10000
/-- IE. -/
def HostDesc.ie (d : HostDesc) : Bool := bitOf (d.word 0) 9 == 1
/-- END. -/
def HostDesc.ends (d : HostDesc) : Bool := bitOf (d.word 0) 8 == 1
/-- LENGTH. -/
def HostDesc.length (d : HostDesc) : Nat := d.word 4 % 0x1000000
/-- ADDR. -/
def HostDesc.buffer (d : HostDesc) : Nat := leAt d.bytes 8 8
/-- PARAM`i`. -/
def HostDesc.param (d : HostDesc) (i : Nat) : Nat := d.word (0x10 + 4 * i)
/-- DEADLINE. -/
def HostDesc.deadline (d : HostDesc) : Nat := d.word 0x2C % 0x10000
/-- The tick that a graph command requests (R436). -/
def HostDesc.tick (d : HostDesc) : Nat := d.param 1 + d.param 2 * 0x100000000

/-- The codes that only F0 may use (R436). -/
def onlyF0 (code : Nat) : Bool := [5, 8, 0x10, 0x11].contains code
/-- The codes whose descriptors have no buffer (R436). -/
def noBuffer (code : Nat) : Bool := [0, 3, 5, 9].contains code
/-- The parameters that a code names, as a bit per word and the bits that each may hold (R436). -/
def paramMask (code i : Nat) : Nat :=
  match code, i with
  | 1, 0 => 0xFF | 2, 0 => 0xFF | 3, 0 => 0xFF | 4, 0 => 0xFF
  | 1, 1 => 0xFFFFFFFF | 1, 2 => 0xFFFFFFFF | 2, 1 => 0xFFFFFFFF | 2, 2 => 0xFFFFFFFF
  | 3, 1 => 0xFFFFFFFF | 3, 2 => 0xFFFFFFFF
  | 5, 0 => 0xFFFF01
  | 9, 0 => 0x800000FF | 9, 1 => 0xFFFFFFFF | 9, 2 => 0xFFFFFFFF
  | 0xA, 1 => 0xFFFFFFFF | 0xA, 2 => 0xFFFFFFFF | 0xA, 3 => 0xFFFFFFFF
  | 0x11, 0 => 1
  | _, _ => 0

/-- Whether a reserved bit of a descriptor is set, a parameter word holds more than its code names, or END stands outside CFG_DATA
(R435, R437). -/
def HostDesc.malformed (d : HostDesc) : Bool :=
  decide (bitsOf (d.word 0) 15 10 ≠ 0 ∨ d.word 4 / 0x1000000 ≠ 0 ∨ d.word 0x2C / 0x10000 ≠ 0)
    || (d.ends && d.code != 8) || (List.range 7).any (fun i => d.param i &&& (0xFFFFFFFF ^^^ paramMask d.code i) != 0)

/-- What R438 finds in LENGTH alone for a code with a buffer: 0, less than a graph's header, or more than a firmware slot. -/
def HostDesc.badLength (d : HostDesc) : Bool :=
  decide (d.length = 0) || ([1, 2].contains d.code && decide (d.length < 32)) || (d.code == 0x10 && decide (0x400000 < d.length))

/-- What the common rules make of a command descriptor: its STATUS, or 0 (R436–R438): ownership first (R450), then fields,
then lengths. SEG_FREE looks at its segments' owners first, and at its lengths itself. -/
def HostDesc.judge (d : HostDesc) (f : Nat) : Nat :=
  if onlyF0 d.code && f != 0 then 4
  else if d.malformed then 2
  else if d.code = 9 then 0
  else if noBuffer d.code then (if d.length ≠ 0 ∨ d.buffer ≠ 0 then 3 else 0)
  else if d.badLength then 3 else 0

/-- The ring number of R474: 0 for the command ring, 0x10 + k for data ring k. -/
def HostDesc.ringCode (d : HostDesc) : Nat := if d.ring = 0 then 0 else 0x0F + d.ring

/-- The 16 bytes of a completion (R435). -/
def completion (status result detail xfer tick : Nat) : List Byte :=
  leBytes 4 (0x80000000 + (if status = 0 then 0 else 0x40000000) + status * 0x10000 + detail % 0x10000)
    ++ leBytes 4 (result * 0x1000000 + xfer % 0x1000000) ++ leBytes 8 tick

/-- A descriptor taken off those that wait. -/
def State.takeDesc (s : State) (f : Nat) (d : HostDesc) : State := s.setFn f { s.fn f with cmds := (s.fn f).cmds.erase d }

/-- A completion written and announced (R435, R437, R451): DESC_DONE says only OK, DATA_DONE any completion of a DATA_BUF with IE; an OWNER status is a violation (R470, R474). -/
def State.finishNow (s : State) (f : Nat) (d : HostDesc) (status result detail xfer tick : Nat) : State :=
  let t := s.emit (.hostWrite f (d.addr + 0x30) (completion status result detail xfer tick))
  let t := if status ≠ 4 then t
    else
      let a2 := d.ringCode * 0x10000 + d.slot
      t.report ⟨3, f + 1, 15, 860, d.addr, a2, 4, d.code, s.time.tick⟩ 860 3
        [d.addr % 0x100000000, a2, 4 * 0x100 + d.code] (f + 1)
  let t := if status = 0 then t else t.raise (832 + 2 * f) 2 [d.tag, status, d.ringCode * 0x10000 + d.slot] (f + 1)
  if !d.ie then t
  else if d.ring ≠ 0 then t.raise (833 + 2 * f) 1 [d.ring - 1, d.tag, d.slot] (f + 1)
  else if status = 0 then t.raise (832 + 2 * f) 1 [d.tag, status, d.slot] (f + 1) else t

/-- A completion, which waits where the function reaches no host memory (R427). -/
def State.finish (s : State) (f : Nat) (d : HostDesc) (status result detail xfer tick : Nat) : State :=
  let x := s.fn f
  if x.silent then s.setFn f { x with later := x.later ++ [(d, status, result, detail, xfer, tick)] }
  else s.finishNow f d status result detail xfer tick

/-- A descriptor taken off and completed. -/
def State.completeDesc (s : State) (f : Nat) (d : HostDesc) (status result detail xfer tick : Nat) : State :=
  (s.takeDesc f d).finish f d status result detail xfer tick

/-- The kind of a command (R433): commands of one kind are carried out in ring order. WHEEL_CONFIG is decided when it is read
(R436), and so waits for no graph. -/
def codeKind (c : Nat) : Nat := if 1 ≤ c ∧ c ≤ 4 then 1 else if c = 8 then 2 else if c = 0xA then 3 else if 0x10 ≤ c ∧ c ≤ 0x11 then 4 else 0

/-- The next command of function `f` of the kind of `code`, where its code is `code`; none once Deogen has stopped (R521), nor one with a
buffer while the function reaches no host memory (R427; DEDUCED, log entry 92). -/
def State.nextDesc (s : State) (f code : Nat) : Option HostDesc :=
  if (s.fn f).silent && !noBuffer code || !s.deogen then none
  else match (s.fn f).cmds.find? (fun d => d.ring == 0 && codeKind d.code == codeKind code) with
    | some d => if d.code = code then some d else none
    | none => none

/-- The commands that Deogen accepts while it runs from ROM alone (R525). -/
def romAccepts (code : Nat) : Bool := [0, 8, 0x10, 0x11].contains code

/-- A command carried out: the next descriptor of its code is judged by the common rules and then given to its meaning; from
ROM alone, all but four are refused with BISQUE (R525). -/
def State.command (s : State) (f code : Nat) (run : HostDesc → State) : Result :=
  .next (match s.nextDesc f code with
    | none => s
    | some d => if s.romAlone && !romAccepts code then s.completeDesc f d 7 6 0 0 s.time.tick else match d.judge f with
      | 0 => run d
      | e => s.completeDesc f d e 0 0 0 s.time.tick)

/-- NOP_COMMAND (R436). -/
def execNopCommand (f : Nat) (s : State) : Result := s.command f 0 (fun d => s.completeDesc f d 0 0 0 0 s.time.tick)

/-! ### MSI-X (R448, R449) -/

/-- A word of the MSI-X table: vectors are masked after reset. -/
def msixReset (k : Nat) : Word := if k % 4 = 3 then 1 else 0

/-- Whether the message of a vector may go. -/
def FnSt.mayMsix (x : FnSt) (v : Nat) : Bool :=
  x.msixOn && !x.msixMask && (FMap.get msixReset x.msix (4 * v + 3)).toNat % 2 == 0

/-- A vector's message: sent, left pending while it is masked or the function reaches no host memory (R427, R448), or owed at the end of an
interval that HOLDOFF still asks for (R449). -/
def State.announce (s : State) (f v : Nat) : State :=
  let x := s.fn f
  let h := s.fld (evtCtrl f) evtCtrl_HOLDOFF
  if !x.mayMsix v || x.silent then s.setFn f { x with msixPend := (v :: x.msixPend).eraseDups }
  else if h ≠ 0 ∧ x.holding.contains v then s.setFn f { x with owed := (v :: x.owed).eraseDups }
  else
    let t := s.emit (.msix f v)
    if h = 0 then t
    else t.setFn f { x with holding := v :: x.holding, holdEnd := FMap.set (fun _ => 0) x.holdEnd v (s.time.now + 2000 * h) }

/-- The pending vectors that may go, sent. -/
def State.sendPending (s : State) (f : Nat) : State :=
  let x := s.fn f
  if x.silent then s
  else
    let go := x.msixPend.filter x.mayMsix
    go.foldr (fun v t => t.announce f v) (s.setFn f { x with msixPend := x.msixPend.filter (fun v => !x.mayMsix v) })

/-- A function that has returned to D0 goes on at the boundary (R427): the completions that waited are written, and the messages held. -/
def State.resume (s : State) (f : Nat) : State :=
  let x := s.fn f
  if x.d3 || !x.busMaster || !x.waking && x.later.isEmpty then s
  else (x.later.foldl (fun t c => t.finishNow f c.1 c.2.1 c.2.2.1 c.2.2.2.1 c.2.2.2.2.1 c.2.2.2.2.2)
    (s.setFn f { x with later := [], waking := false })).sendPending f

/-- MSIX_UNMASK (R448): the mask of one vector clears; or MSI-X is enabled with the function unmasked, in configuration
space. -/
def execMsixUnmask (f : Nat) (vec : Option Nat) (s : State) : Result :=
  .next (s.onlyIf (decide (f < 8))
    (match vec with
      | none => (s.setFn f { s.fn f with msixOn := true, msixMask := false }).sendPending f
      | some v =>
        if 64 ≤ v then s
        else
          let x := s.fn f
          let w := FMap.get msixReset x.msix (4 * v + 3)
          (s.setFn f { x with msix := FMap.set msixReset x.msix (4 * v + 3) (w &&& 0xFFFFFFFE) }).sendPending f))

/-- HOLDOFF_EXPIRY (R449): the interval of a vector ends, h µs after its message, and one message announces what was written in it. -/
def execHoldoffExpiry (f vec : Nat) (s : State) : Result :=
  .next (s.onlyIf (decide (f < 8) && (s.fn f).holding.contains vec && decide (FMap.get (fun _ => 0) (s.fn f).holdEnd vec ≤ s.time.now))
    (let x := s.fn f
     let t := s.setFn f { x with holding := x.holding.filter (· != vec), holdEnd := FMap.set (fun _ => 0) x.holdEnd vec 0, owed := x.owed.filter (· != vec) }
     if x.owed.contains vec then t.announce f vec else t))

/-! ### Event records (R447, R458, R459) -/

/-- The vector of a source (R463). -/
def State.vectorOf (s : State) (f src : Nat) : Nat := bitsOf (s.reg (vmap f (src / 4))).toNat (8 * (src % 4) + 5) (8 * (src % 4))

/-- The 32 bytes of a record (R458). -/
def recordBytes (e : Event) (seq : Nat) (ovfl : Bool) : List Byte :=
  let w0 := e.reason * 0x1000000 + e.owner * 0x100000 + flag e.slot.isSome * 0x80000 + flag ovfl * 0x40000
    + e.slot.getD 0 * 0x400 + e.source
  [w0, seq, e.tick % 0x100000000, e.tick / 0x100000000, e.sub, e.arg0, e.arg1, e.arg2].flatMap (leBytes 4)

/-- Whether the event ring of a function takes a record: enabled, and not full. -/
def State.evtRoom (s : State) (f : Nat) : Bool :=
  s.bit (evtCtrl f) evtCtrl_EN &&
    decide ((s.fld (evtCtrl f) evtCtrl_WIDX + 0x10000 - (s.fn f).cons) % 0x10000 < 2 ^ s.fld (evtCtrl f) evtCtrl_SIZE)

/-- A record written into the next slot and announced. -/
def State.writeRecord (s : State) (f : Nat) (e : Event) (seq : Nat) (ovfl : Bool) : State :=
  let w := s.fld (evtCtrl f) evtCtrl_WIDX
  let a := s.pair (evtBaseLo f) (evtBaseHi f) + 32 * (w % 2 ^ s.fld (evtCtrl f) evtCtrl_SIZE)
  let t := s.emit (.hostWrite f a (recordBytes e seq ovfl))
  (t.setFld (evtCtrl f) evtCtrl_WIDX (w + 1)).announce f (t.vectorOf f e.source)

/-- EVENT_RECORD_WRITE (R447, R458): the oldest event of the function takes its SEQ and is written, or counted as lost while
the ring is full, and until the overflow record has said how many were lost; one due while the ring is disabled is only counted in EVT_LOST
(R450; DEDUCED, log entry 93). -/
def execEventRecordWrite (f : Nat) (s : State) : Result :=
  .next (match s.queueOf f with
    | [] => s
    | e :: rest =>
      if (s.fn f).silent || !s.open_ || decide (8 ≤ f) then s
      else
        let t := { s with events := FMap.set (fun _ => []) s.events f rest }
        let seq := (t.reg (evSeqNext f)).toNat
        let t := t.count (evSeqNext f)
        if t.evtRoom f && (t.fn f).lostNow == 0 then t.writeRecord f e seq false
        else
          let x := t.fn f
          let t := t.count (evtLost f)
          if t.bit (evtCtrl f) evtCtrl_EN then
            (t.setFn f { x with
                lostNow := x.lostNow + 1
                lostSeq := if x.lostNow = 0 then seq else x.lostSeq
                lostAt := if x.lostNow = 0 then (e.tick, e.sub) else x.lostAt }).setFlag (hostStatus f) hostStatus_EVT_OVF
          else t)

/-- The overflow record, once a doorbell read shows room (R447, R458): its condition arose with the first record lost, so that it stands in the
order of timestamps (R459; DEDUCED, log entry 123); a function that has its source disabled does not receive it (R463). -/
def State.overflowRecord (s : State) (f : Nat) : State :=
  let x := s.fn f
  if x.lostNow = 0 ∨ !s.evtRoom f then s
  else
    let t := s.setFn f { x with lostNow := 0 }
    if s.enabled f 865 then t.writeRecord f ⟨865, 1, 0, none, x.lostAt.1, x.lostAt.2, x.lostNow, 0, 0⟩ x.lostSeq true else t

/-! ### Doorbell reads (R431–R434, R443) -/

/-- Whether a function's doorbell line may be read (R427, R431). -/
def State.wantsDoorbell (s : State) (f : Nat) : Bool :=
  s.open_ && !(s.fn f).silent && decide (s.pair (dbAddrLo f) (dbAddrHi f) ≠ 0)

/-- A doorbell read issued, which counts as read at boundary `at_`; while one is outstanding, one more follows it (R431, R450). -/
def State.readDoorbell (s : State) (f at_ : Nat) : State :=
  let x := s.fn f
  if !s.wantsDoorbell f then s
  else if x.reading.isSome then (if x.again then s else s.setFn f { x with again := true, againAt := at_ })
  else (s.emit (.doorbellRead f)).setFn f { x with reading := some at_ }

/-- Step 5 of a boundary (R37, R431, R443): a function whose command or event ring is enabled, or whose latest read has failed. -/
def State.boundaryDoorbells (s : State) : State :=
  foldBelow (fun f t =>
    let go := t.bit (cmdCtrl f) cmdCtrl_EN || t.bit (evtCtrl f) evtCtrl_EN || (t.fn f).retry
    let t := if (t.fn f).retry then t.setFn f { t.fn f with retry := false } else t
    if go then t.readDoorbell f t.time.bounds else t) 8 s

/-- A write of WAKE (R431, R452). -/
def State.writeWake (s : State) (f : Nat) (v : Word) : State :=
  if wake_GO.get v = 1 then s.readDoorbell f (s.time.bounds + 1) else s

/-- WAKE_GO (R431). -/
def execWakeGo (f : Nat) (v : Word) (s : State) : Result := s.hostWrite (s.onlyIf (decide (f < 8)) (s.writeWake f v))

/-- The control register of a ring: 0 the command ring, 1 + k data ring k. -/
def ringCtrl (f g : Nat) : Nat := if g = 0 then cmdCtrl f else dataCtrl f (g - 1)

/-- The base address of a ring. -/
def State.ringBase (s : State) (f g : Nat) : Nat :=
  if g = 0 then s.pair (cmdBaseLo f) (cmdBaseHi f) else s.pair (dataBaseLo f (g - 1)) (dataBaseHi f (g - 1))

/-- DB_ERR set, and DB_ERROR raised once per tick (R432, R443). -/
def State.dbError (s : State) (f : Nat) : State :=
  let t := s.setFlag (hostStatus f) hostStatus_DB_ERR
  if (t.fn f).dbSaid then t else (t.raise (832 + 2 * f) 3 [] (f + 1)).setFn f { t.fn f with dbSaid := true }

/-- Whether a ring's descriptors are read. -/
def State.ringRuns (s : State) (f g : Nat) : Bool :=
  s.bit (ringCtrl f g) cmdCtrl_EN && !s.bit (ringCtrl f g) cmdCtrl_HALTED

/-- The producer index of a ring taken from a doorbell line (R432). -/
def State.takeIndex (s : State) (f g p : Nat) : State :=
  if !s.ringRuns f g || (s.fn f).ignore.contains g then s
  else if (p + 0x10000 - s.fld (ringCtrl f g) cmdCtrl_RIDX) % 0x10000 ≤ 2 ^ s.fld (ringCtrl f g) cmdCtrl_SIZE then
    s.setFn f { s.fn f with prod := FMap.set (fun _ => 0) (s.fn f).prod g p }
  else s.dbError f

/-- The consumer index of the event ring taken from a doorbell line (R432). -/
def State.takeCons (s : State) (f c : Nat) : State :=
  if !s.bit (evtCtrl f) evtCtrl_EN || (s.fn f).ignore.contains 17 then s
  else if (s.fld (evtCtrl f) evtCtrl_WIDX + 0x10000 - c) % 0x10000 ≤ 2 ^ s.fld (evtCtrl f) evtCtrl_SIZE then
    s.setFn f { s.fn f with cons := c }
  else s.dbError f

/-- The codes that a ring accepts (R436). -/
def ringAccepts (g code : Nat) : Bool :=
  if g = 0 then [0, 1, 2, 3, 4, 5, 8, 9, 0xA, 0x10, 0x11].contains code else code == 0x20

/-- One descriptor read from a ring: a reserved code completes at once, any other waits for its turn. NOP, WHEEL_CONFIG and SEG_FREE have their
decision point here, so no deadline acts on them (R436, R441). -/
def State.readDesc (s : State) (f g at_ : Nat) (bytes : List Byte) : State :=
  let r := s.fld (ringCtrl f g) cmdCtrl_RIDX
  let slot := r % 2 ^ s.fld (ringCtrl f g) cmdCtrl_SIZE
  let d : HostDesc := ⟨g, slot, s.ringBase f g + 64 * slot, bytes, at_, none⟩
  let d := { d with expiry := if g = 0 ∧ d.deadline ≠ 0 ∧ !([0, 5, 9].contains d.code) then some (at_ + d.deadline) else none }
  let t := s.setFld (ringCtrl f g) cmdCtrl_RIDX (r + 1)
  if ringAccepts g d.code then t.setFn f { t.fn f with cmds := (t.fn f).cmds ++ [d] }
  else t.finish f d 1 0 0 0 t.time.tick

/-- The new descriptors of a ring read, while Deogen is ready (R429, R433): at most 64 of the command ring and 256 of a data ring; `slots` are what the
reads returned, in order. -/
def State.readRing (s : State) (f g at_ : Nat) (slots : List Slot) : State :=
  if !s.ringRuns f g || !s.ready then s
  else
    let p := FMap.get (fun _ => 0) (s.fn f).prod g
    let n := min (if g = 0 then 64 else 256) ((p + 0x10000 - s.fld (ringCtrl f g) cmdCtrl_RIDX) % 0x10000)
    ((slots.filter (fun x => x.ring == g)).take n).foldl (fun t x => t.readDesc f g at_ x.bytes) s

/-- A doorbell read over: one more follows where a WAKE asked for it. -/
def State.doorbellOver (s : State) (f : Nat) : State :=
  let x := s.fn f
  let t := s.setFn f { x with reading := none, again := false, againAt := 0, ignore := [] }
  if x.again then t.readDoorbell f x.againAt else t

/-- DOORBELL_READ_DONE (R430–R433, R447): `line` is the line read and `slots` the descriptors that the device then reads. -/
def execDoorbellReadDone (f : Nat) (line : List Byte) (slots : List Slot) (s : State) : Result :=
  .next (match (s.fn f).reading with
    | none => s
    | some at_ =>
      if (s.fn f).silent || !s.open_ || decide (8 ≤ f) then
        s.setFn f { s.fn f with reading := none, again := false, againAt := 0, ignore := [] }
      else
        let t := (List.range 17).foldl (fun t g => t.takeIndex f g (leAt line (2 * g) 2)) s
        let t := (t.takeCons f (leAt line 34 2)).overflowRecord f
        let t := (List.range 17).foldl (fun t g => t.readRing f g at_ slots) t
        t.doorbellOver f)

/-! ### Data rings (R444–R446) -/

/-- The buffers posted to data ring `k`. -/
def State.bufsOf (s : State) (f k : Nat) : List HostDesc := FMap.get (fun _ => []) (s.fn f).bufs k

/-- The buffers posted to data ring `k`, replaced. -/
def State.setBufs (s : State) (f k : Nat) (l : List HostDesc) : State :=
  s.setFn f { s.fn f with bufs := FMap.set (fun _ => []) (s.fn f).bufs k l }

/-- An empty buffer. -/
def noFill : Fill := ⟨0, 0, 0, none⟩

/-- What the current buffer of data ring `k` holds. -/
def State.fillOf (s : State) (f k : Nat) : Fill := FMap.get (fun _ => noFill) (s.fn f).fill k

/-- What the current buffer holds, replaced. -/
def State.setFill (s : State) (f k : Nat) (x : Fill) : State :=
  s.setFn f { s.fn f with fill := FMap.set (fun _ => noFill) (s.fn f).fill k x }

/-- DATA_BUF (R438, R445): the next descriptor of the ring is posted, or completes with an error. -/
def execDataBuf (f j : Nat) (s : State) : Result :=
  .next (match (s.fn f).cmds.find? (fun d => d.ring == j + 1) with
    | none => s
    | some d =>
      if d.malformed then s.completeDesc f d 2 0 0 0 s.time.tick
      else if d.length < 2080 then s.completeDesc f d 3 0 0 0 s.time.tick
      else (s.takeDesc f d).setBufs f j (s.bufsOf f j ++ [d]))

/-- The current buffer of a data ring completed with a RESULT of R445. -/
def State.closeBuf (s : State) (f k result : Nat) : State :=
  match s.bufsOf f k with
  | [] => s
  | d :: rest =>
    let x := s.fillOf f k
    ((s.setBufs f k rest).setFill f k noFill).finish f d 0 result x.chunks x.bytes x.tick

/-- A chunk written into the current buffer, which completes when fewer than 64 bytes remain (R444, R445). -/
def State.putChunk (s : State) (f k : Nat) (chunk : List Byte) : State :=
  match s.bufsOf f k with
  | [] => s
  | d :: _ =>
    let x := s.fillOf f k
    let t := s.emit (.hostWrite f (d.buffer + x.bytes) chunk)
    let first := x.chunks == 0
    let y : Fill := { chunks := x.chunks + 1, bytes := x.bytes + chunk.length,
                      tick := if first then s.time.tick else x.tick,
                      expiry := if first then (if d.deadline = 0 then none else some (s.time.bounds + d.deadline)) else x.expiry }
    let t := t.setFill f k y
    if d.length / 32 * 32 < y.bytes + 64 then t.closeBuf f k 1 else t

/-- Words dropped for a ring (R446): counted in DATA_DROP and for the edge's next chunk, and said once per tick. -/
def State.dropWords (s : State) (f k edge n : Nat) : State :=
  let t := s.setReg (dataDrop f k) (s.reg (dataDrop f k) + BitVec.ofNat 32 n)
  let x := t.fn f
  let t := t.setFn f { x with lost := FMap.set (fun _ => 0) x.lost edge (min 0xFFFFFFFF (FMap.get (fun _ => 0) x.lost edge + n)) }
  if x.dropSaid.contains k then t
  else (t.raise (833 + 2 * f) 2 [k] (f + 1)).setFn f { t.fn f with dropSaid := k :: x.dropSaid }

/-- A packet that reaches the engine for data ring `k` (R444–R446): `kind` is 1 words, 2 raw samples, 3 records; `edge` is
HANDLE × 65,536 + EDGE. Once the link has come down to a lower rate or width it may not keep pace: whether the engine's request buffer then has
room is a free value (R428, R446; DESIGN CHOICE, log entry 122). -/
def State.hostChunk (s : State) (f k kind edge : Nat) (p : Packet) : State :=
  let halves := 16 * (p.len - 1) + p.lasth
  let n := if kind = 2 then halves else halves / 2
  let payload := p.data ++ List.replicate ((32 - p.data.length % 32) % 32) 0
  let size := 32 + payload.length
  let room (t : State) : Bool := match t.bufsOf f k with
    | [] => false
    | d :: _ => decide ((t.fillOf f k).bytes + size ≤ d.length / 32 * 32)
  let (x, s) : Nat × State := if s.boot.linkSlow then s.free else (0, s)
  if p.len = 0 then s
  else if x % 2 = 1 || !s.bit (dataCtrl f k) dataCtrl_EN || (s.fn f).silent || (s.bufsOf f k).isEmpty || !s.open_ then s.dropWords f k edge n
  else
    let t := if room s then s else s.closeBuf f k 1
    if !room t then t.dropWords f k edge n
    else
      let ws := (List.range (halves / 2)).map (fun i => leAt p.data (4 * i) 1)
      let fl := if kind = 1 then flag (ws.any (fun w => bitOf w 7 == 1)) * 8 + flag (ws.any (fun w => bitOf w 6 == 1)) * 4
        + flag (ws.any (fun w => bitOf w 5 == 1)) * 2 + flag (ws.any (fun w => bitOf w 4 == 1)) else 0
      let ts := completeTick t.time.tick p.tick
      let lost := FMap.get (fun _ => 0) (t.fn f).lost edge
      let hdr := leBytes 4 (kind * 0x1000000 + edge) ++ leBytes 4 (fl * 0x100000 + halves) ++ leBytes 4 p.sub
        ++ leBytes 8 ts ++ leBytes 4 lost ++ leBytes 8 0
      let t := t.setFn f { t.fn f with lost := FMap.set (fun _ => 0) (t.fn f).lost edge 0 }
      t.putChunk f k (hdr ++ payload)

/-- DATA_BUF_DEADLINE (R445). -/
def execDataBufDeadline (f j : Nat) (s : State) : Result :=
  .next (s.onlyIf (decide (f < 8 ∧ j < 16)
      && (s.fillOf f j).expiry.any (fun e => decide (e ≤ s.time.bounds))) (s.closeBuf f j 2))

/-! ### Ring registers (R429, R442, R452) -/

/-- EN of a ring written to 0 (R442): what its buffers come to. -/
def State.stopRing (s : State) (f g : Nat) : State :=
  let x := s.fn f
  let t := if x.reading.isSome then s.setFn f { x with ignore := g :: x.ignore } else s
  if g = 0 ∨ 17 ≤ g then t
  else
    let k := g - 1
    let t := if (t.fillOf f k).chunks = 0 then t else t.closeBuf f k 4
    let t := (t.bufsOf f k).foldl (fun t d => t.finish f d 8 0 0 0 t.time.tick) (t.setBufs f k [])
    ((t.fn f).cmds.filter (fun d => d.ring == g)).foldl (fun t d => t.completeDesc f d 8 0 0 0 t.time.tick) t

/-- A refused write of FN[f]. -/
def State.refuseSetup (s : State) (f : Nat) : State := s.setFlag (hostStatus f) hostStatus_SETUP_REFUSED

/-- A write of the control register of ring `g` (17: the event ring). A write of SIZE is one that would change it (DESIGN CHOICE, log entry
94). -/
def State.writeRing (s : State) (f g : Nat) (v : Word) : State :=
  let (off, en, d) : Nat × Fld × Desc := if g = 17 then (evtCtrl f, evtCtrl_EN, evtCtrlDesc)
    else if g = 0 then (cmdCtrl f, cmdCtrl_EN, cmdCtrlDesc) else (dataCtrl f (g - 1), dataCtrl_EN, dataCtrlDesc)
  let was := s.fld off en
  let will := en.get v
  if was = 1 ∧ cmdCtrl_SIZE.get v ≠ s.fld off cmdCtrl_SIZE then s.refuseSetup f
  else if will = 1 ∧ cmdCtrl_SIZE.get v < 4 then s.refuseSetup f
  else
    let t := s.writeReg off d v
    if was = 1 ∧ will = 0 then t.stopRing f g
    else if was = 0 ∧ will = 1 ∧ g ≠ 17 then t.setFld off cmdCtrl_HALTED 0 else t

/-- RING_ENABLE (R429): a write of EN to 1 on ring `g`. -/
def execRingEnable (f g : Nat) (v : Word) (s : State) : Result :=
  s.hostWrite (s.onlyIf (decide (f < 8 ∧ g ≤ 17)) (s.writeRing f g v))

/-- RING_DISABLE (R442): a write of EN to 0 on ring `g`. -/
def execRingDisable (f g : Nat) (v : Word) (s : State) : Result :=
  s.hostWrite (s.onlyIf (decide (f < 8 ∧ g ≤ 17)) (s.writeRing f g v))

/-- A write to FN[f] by Ff, `x` bytes into it. -/
def State.writeFn (s : State) (f x : Nat) (v : Word) : State :=
  let off := 0x10000 + 0x1000 * f + x
  let base (ctrl : Nat) (en : Fld) (d : Desc) : State := if s.fld ctrl en = 1 then s.refuseSetup f else s.writeReg off d v
  let k := (x - 0x100) / 0x10
  if x = 0 then base (cmdCtrl f) cmdCtrl_EN cmdBaseLoDesc
  else if x = 4 then base (cmdCtrl f) cmdCtrl_EN cmdBaseHiDesc
  else if x = 8 then s.writeRing f 0 v
  else if x = 0x10 then base (evtCtrl f) evtCtrl_EN evtBaseLoDesc
  else if x = 0x14 then base (evtCtrl f) evtCtrl_EN evtBaseHiDesc
  else if x = 0x18 then s.writeRing f 17 v
  else if x = 0x20 then s.writeReg off dbAddrLoDesc v
  else if x = 0x24 then s.writeReg off dbAddrHiDesc v
  else if x = 0x28 then s.writeWake f v
  else if x = 0x2C then s.writeReg off hostStatusDesc v
  else if 0x100 ≤ x ∧ x < 0x200 then
    match (x - 0x100) % 0x10 with
    | 0 => base (dataCtrl f k) dataCtrl_EN dataBaseLoDesc
    | 4 => base (dataCtrl f k) dataCtrl_EN dataBaseHiDesc
    | 8 => s.writeRing f (k + 1) v
    | _ => s
  else s

/-- A function enters D3hot (R427). -/
def execD3hotEntry (f : Nat) (s : State) : Result :=
  .next (s.onlyIf (decide (f < 8)) (s.setFn f { s.fn f with d3 := true, waking := false }))

/-- A function returns to D0 (R427): the device resumes at the next boundary. -/
def execD0Return (f : Nat) (s : State) : Result :=
  .next (s.onlyIf (decide (f < 8) && (s.fn f).d3) (s.setFn f { s.fn f with d3 := false, waking := true }))

/-- LINK_RETRAIN (R428): the link continues at a lower rate or width. -/
def execLinkRetrain (s : State) : Result :=
  .next (let t := s.raise 832 5; { t with boot := { t.boot with linkSlow := true } })

end Sys2Proof.Machine
end

