-- ==== Sys2Proof/Machine/Capture.lean ====
section
/-! DEFINITION. Capture memory, the segment map and capture streams (13_capture_memory.md, R399–R419). -/

namespace Sys2Proof.Machine

open Regs

/-! ### The segment map (R399–R405) -/

/-- A FREE entry (R404). -/
def freeSeg : Seg := ⟨15, 0, false, 0, false, 0, 0, 0, 0⟩

/-- Segment map entry `g`. -/
def State.seg (s : State) (g : Nat) : Seg := FMap.get (fun _ => freeSeg) s.mem.segs g

/-- Segment map entry `g`, replaced. -/
def State.setSeg (s : State) (g : Nat) (x : Seg) : State :=
  { s with mem := { s.mem with segs := FMap.set (fun _ => freeSeg) s.mem.segs g x } }

/-- Entries changed for each segment of a run. -/
def State.mapSegs (s : State) (g n : Nat) (f : Seg → Seg) : State := foldBelow (fun i t => t.setSeg (g + i) (f (t.seg (g + i)))) n s

/-- W`i` of an entry (R403). -/
def Seg.word (x : Seg) : Nat → Nat
  | 0 => x.owner * 0x10000000 + x.state * 0x2000000 + flag x.marks * 0x1000000 + x.flags * 0x100000 + flag x.ecc * 0x80000
      + (if x.state = 3 then 0 else x.units) * 0x100 + x.stream
  | 1 => x.seq % 0x100000000
  | 2 => x.tick % 0x100000000
  | _ => x.tick / 0x100000000

/-- The segments of a stack that are not FREE, in ascending number. -/
def State.heldSegs (s : State) (st : Nat) : List Nat := (s.mem.segs.map (·.1)).filter (fun g => g / 262144 == st)

/-- The runs between listed numbers, from `lo` up to `hi`: start and length. -/
def gaps (hi : Nat) : Nat → List Nat → List (Nat × Nat)
  | lo, [] => if lo < hi then [(lo, hi - lo)] else []
  | lo, g :: gs => (if lo < g then [(lo, g - lo)] else []) ++ gaps hi (g + 1) gs

/-- The free runs of a stack. -/
def State.freeRuns (s : State) (st : Nat) : List (Nat × Nat) := gaps (262144 * (st + 1)) (262144 * st) (s.heldSegs st)

/-- The lowest-numbered free run of `n` segments (R406). -/
def State.findRun (s : State) (st n : Nat) : Option Nat := ((s.freeRuns st).find? (fun r => decide (n ≤ r.2))).map (·.1)

/-- FREE of a stack as read. -/
def State.memFreeWord (s : State) (st : Nat) : Word := BitVec.ofNat 32 (262144 - (s.heldSegs st).length)

/-- LARGEST of a stack as read. -/
def State.memLargestWord (s : State) (st : Nat) : Word := BitVec.ofNat 32 ((s.freeRuns st).foldl (fun m r => max m r.2) 0)

/-- SEGMENT_MAP_W0_READ (R405): W0 is returned, and W1 to W3 are latched for the reader. -/
def State.readW0 (s : State) (f e : Nat) : State :=
  let x := s.seg e
  ({ s with mem := { s.mem with latch := FMap.set (fun _ => none) s.mem.latch f (some (e, x.word 1, x.word 2, x.word 3)) } }).emit
    (.readData f (BitVec.ofNat 32 (x.word 0)))

/-- SEGMENT_MAP_W0_READ (R405). -/
def execSegmentMapW0Read (f e : Nat) (s : State) : Result := s.hostRead f (s.onlyIf (decide (e < 524288)) (s.readW0 f e))

/-- A word of the segment map window as a function reads it (R405). -/
def State.segWordFor (s : State) (f e i : Nat) : Nat :=
  match FMap.get (fun _ => none) s.mem.latch f with
  | some (g, w1, w2, w3) => if g = e ∧ i ≠ 0 then (match i with | 1 => w1 | 2 => w2 | _ => w3) else (s.seg e).word i
  | none => (s.seg e).word i

/-! ### Bytes (R399, R407) -/

/-- The byte at a capture address; one that nothing has written reads 0 (DESIGN CHOICE, log entry 20). -/
def State.capByte (s : State) (a : Nat) : Byte := FMap.get (fun _ => 0) s.mem.data a

/-- Bytes written at a capture address. -/
def State.putBytes (s : State) (a : Nat) (bs : List Byte) : State :=
  { s with mem := { s.mem with data := (bs.zipIdx).foldl (fun m x => FMap.set (fun _ => 0) m (a + x.2) x.1) s.mem.data } }

/-- Bytes read from a capture address. -/
def State.getBytes (s : State) (a n : Nat) : List Byte := (List.range n).map (fun i => s.capByte (a + i))

/-! ### Streams (R406–R412) -/

/-- STATE of a stream (R419): 0 unused, 1 RESERVED, 2 RUNNING, 3 POST, 4 FULL, 5 CLOSED. -/
def State.capState (s : State) (k : Nat) : Nat := s.fld (capStrStatus k) capStrStatus_STATE

/-- STATE of a stream set. -/
def State.setCapState (s : State) (k x : Nat) : State := s.setFld (capStrStatus k) capStrStatus_STATE x

/-- Whether a stream is a raw tap. -/
def State.capRaw (s : State) (k : Nat) : Bool := s.bit (capStrStatus k) capStrStatus_RAW

/-- The owner of a stream. -/
def State.capOwner (s : State) (k : Nat) : Nat := s.fld (capStrStatus k) capStrStatus_OWNER

/-- A capture stream number that is free: unused, or closed with no segment held (DESIGN CHOICE, log entry 21). -/
def State.capFree (s : State) (k : Nat) : Bool :=
  s.capState k == 0 || (s.capState k == 5 && !s.mem.segs.any (fun x => x.2.stream == k))

/-- A stream reserved at admission with its segments (R406): `raw` with its mark segments. -/
def State.reserveCap (s : State) (k fn handle edge st segs : Nat) (ring raw : Bool) : State :=
  match s.findRun st segs with
  | none => s
  | some g =>
    let set (t : State) (g n : Nat) := t.mapSegs g n (fun _ => { freeSeg with state := 1, stream := k })
    let t := set s g segs
    let marks := if raw then (segs + 63) / 64 else 0
    let m := if raw then t.findRun st marks else none
    let t := match m with | some m => set t m marks | none => t
    let w := capStrStatus_OWNER.put (capStrStatus_STATE.put 0 1) (fn + 1)
    let w := capStrStatus_MODE.put (capStrStatus_STACK.put (capStrStatus_RAW.put w (flag raw)) st) (flag ring)
    let t := (t.setReg (capStrStatus k) w).setReg (firstSeg k) (BitVec.ofNat 32 g)
    let t := (t.setReg (capSegments k) (BitVec.ofNat 32 segs)).setReg (markSeg k) (BitVec.ofNat 32 (m.getD 0x7FFFF))
    let t := ((t.setReg (seqNow k) 0).setPair (startIdxLo k) (startIdxHi k) 0).setPair (trigIdxLo k) (trigIdxHi k) 0
    let t := (t.setPair (writtenLo k) (writtenHi k) 0).setReg (dropped k) 0
    (t.setCap k { idleCap with fn := fn, handle := handle, edge := edge })

/-- The segments reserved for a stream: its data run and its mark run. -/
def State.capRuns (s : State) (k : Nat) : List Nat :=
  let n := (s.reg (capSegments k)).toNat
  let m := (s.reg (markSeg k)).toNat
  (List.range n).map ((s.reg (firstSeg k)).toNat + ·)
    ++ (if s.capRaw k ∧ m ≠ 0x7FFFF then (List.range ((n + 63) / 64)).map (m + ·) else [])

/-- A stream opened at its start boundary (R278, R406): its segments take their owner. -/
def State.openCap (s : State) (k : Nat) : State :=
  let t := (s.capRuns k).foldl (fun t g => t.setSeg g { t.seg g with owner := s.capOwner k }) s
  t.setCapState k 2

/-- A withdrawn stream: its reserved segments become FREE, and its number unused (R284). -/
def State.dropCap (s : State) (k : Nat) : State :=
  let t := (s.capRuns k).foldl (fun t g => if (t.seg g).state = 1 then t.setSeg g freeSeg else t) s
  ((t.setReg (capStrStatus k) (capStrStatus_OWNER.put 0 15)).setReg (capSegments k) 0).setCap k idleCap

/-- Items (words or samples) in a segment of the stream: K of R409. -/
def State.capK (s : State) (k : Nat) : Nat := if s.capRaw k then 32768 else 16384

/-- Items in a data unit. -/
def State.capUnit (s : State) (k : Nat) : Nat := if s.capRaw k then 16 else 8

/-- The segment of SEQ `q` of a stream: ring slot SEQ mod SEGMENTS (R406, R407). -/
def State.slotSeg (s : State) (k q : Nat) : Nat :=
  (s.reg (firstSeg k)).toNat + q % max 1 (s.reg (capSegments k)).toNat

/-- A mark nibble written (R408): `r` ring slot, `v` unit. -/
def State.putMark (s : State) (k r v nib tick : Nat) : State :=
  let n := 2048 * r + v
  let g := (s.reg (markSeg k)).toNat + n / 131072
  let a := g * 65536 + (n % 131072) / 2
  let b := (s.capByte a).toNat
  let b := if n % 2 = 0 then b / 16 * 16 + nib else b % 16 + nib * 16
  let x := s.seg g
  let x := if x.state = 3 then { x with flags := x.flags ||| nib }
    else { x with state := 3, marks := true, flags := nib, ecc := false, units := 0, seq := 0, tick := tick }
  (s.putBytes a [BitVec.ofNat 8 b]).setSeg g x

/-- The unit in progress stored (R407): in the segment of SEQ `q`, at place `u`. -/
def State.storeUnit (s : State) (k q u tick : Nat) : State :=
  let x := s.cap k
  let g := s.slotSeg k q
  let bytes := x.part ++ List.replicate (32 - x.part.length) 0
  let e := s.seg g
  let t := s.putBytes (g * 65536 + u * 32) bytes
  let t := t.setSeg g { e with units := u + 1, state := if u = 2047 then 3 else e.state, flags := e.flags ||| x.nibble }
  let t := if s.capRaw k then t.putMark k (q % max 1 (s.reg (capSegments k)).toNat) u x.nibble tick else t
  t.setCap k { x with part := [], nibble := 0 }

/-- A stream closed (R412): `frozen` under R411. The unit in progress is filled with zeros; an OPEN segment becomes PART, or
FULL when complete; RESERVED segments become FREE. -/
def State.closeCap (s : State) (k : Nat) (frozen : Bool) : State :=
  let w := s.pair (writtenLo k) (writtenHi k)
  let q := w / s.capK k
  let t := if (s.cap k).part.isEmpty then s else s.storeUnit k q (w % s.capK k / s.capUnit k) (s.seg (s.slotSeg k q)).tick
  let t := (t.capRuns k).foldl (fun t g =>
    let e := t.seg g
    if e.state = 2 then t.setSeg g { e with state := 4 } else if e.state = 1 then t.setSeg g freeSeg else t) t
  let t := (t.setCapState k 5).setCap k { t.cap k with ending := false, late := false, trig := none, last := none }
  let own := t.capOwner k
  let t := if frozen then
      let i := t.pair (trigIdxLo k) (trigIdxHi k)
      (t.setFlag (capStrStatus k) capStrStatus_FROZEN).raise 830 2 [k, i % 0x100000000, i / 0x100000000] own
    else t
  t.raise 830 3 [k] own

/-- The item of index `idx` meets a trigger that waits (R411, R594): TRIG_IDX, and the SEQ whose filling closes the stream, where no stop governs
the close (R416). -/
def State.meetTrigger (s : State) (k idx : Nat) : State :=
  let x := s.cap k
  match x.trig with
  | none => s
  | some at_ =>
    if idx < at_ then s
    else
      let n := (s.reg (capSegments k)).toNat
      let post := s.fld (capStrCtrl k) capStrCtrl_POST
      let post := if s.bit (capStrStatus k) capStrStatus_MODE then min post (n - 1) else post
      let q := s.pair (writtenLo k) (writtenHi k) / s.capK k
      (s.setPair (trigIdxLo k) (trigIdxHi k) idx).setCap k { x with trig := none, last := if x.late then none else some (q + post) }

/-- A segment that has filled: the stream closes after its last one, and a FILL stream stops (R410, R411, R416). -/
def State.segmentFull (s : State) (k q : Nat) : State :=
  let n := (s.reg (capSegments k)).toNat
  let lastFill := !s.bit (capStrStatus k) capStrStatus_MODE && decide (n ≤ q + 1)
  if (s.cap k).last = some q ∨ (s.capState k = 3 ∧ lastFill ∧ (s.cap k).late = false) then s.closeCap k true
  else if lastFill && s.capState k == 2 then
    ((s.setCapState k 4).setFlag (capStrStatus k) capStrStatus_FULL).raise 830 1 [k] (s.capOwner k)
  else s

/-- One word or sample reaches a capture stream (R407): `idx` is its index in the stream, `nib` its flags S, C, P, M. -/
def State.captureItem (s : State) (k idx tick nib : Nat) (item : List Byte) : State :=
  let st := s.capState k
  if st = 4 then s.count (dropped k)
  else if st ≠ 2 ∧ st ≠ 3 then s
  else
    let s := if (s.cap k).begun then s
      else (s.setPair (startIdxLo k) (startIdxHi k) idx).setCap k { s.cap k with begun := true }
    let s := s.meetTrigger k idx
    let w := s.pair (writtenLo k) (writtenHi k)
    let (q, i) := (w / s.capK k, w % s.capK k)
    let g := s.slotSeg k q
    let t := if i = 0 then
        (s.setSeg g { s.seg g with state := 2, seq := q, stream := k, tick := tick, units := 0, flags := 0, ecc := false,
                                   marks := false }).setReg (seqNow k) (BitVec.ofNat 32 q)
      else s
    let x := t.cap k
    let t := t.setCap k { x with part := x.part ++ item, nibble := x.nibble ||| nib }
    let t := t.setPair (writtenLo k) (writtenHi k) (w + 1)
    if (i + 1) % s.capUnit k ≠ 0 then t
    else
      let u := i / s.capUnit k
      let t := t.storeUnit k q u tick
      if u = 2047 then t.segmentFull k q else t

/-! ### Indices (R409) -/

/-- The clock of a stream that carries timestamps (R35, R161): the origin of its indices, the periods of 500 ps from one
output to the next, and the words of an output. -/
def State.streamClock (s : State) (from_ : PlacedElem) : Option (Nat × Nat × Nat) :=
  match from_.el.kind with
  | 1 => some (s.sampleOrigin (unitIndex from_.unit / 4), max 1 (s.chanStep (unitIndex from_.unit)), 1)
  | 3 =>
    let n := unitIndex from_.unit
    let c := s.cur (chainSrc n) chainSrc_CH
    some (s.sampleOrigin (c / 4), max 1 (s.chanStep c * chainDec (s.reg (chainCtrl n)) (s.fld (firCtrl n) firCtrl_TAPS)),
      if s.ctl n chainCtrl_NCO_EN = 1 then 2 else 1)
  | _ => none

/-- The element that feeds a capture stream. -/
def State.capFrom (s : State) (k : Nat) : Option PlacedElem :=
  (s.wheel.graphs.find? (fun g => g.phase != .stopped && g.fn == (s.cap k).fn && g.handle == (s.cap k).handle)).bind
    (fun g => (g.edges[(s.cap k).edge]?).bind (fun e => g.elem e.ed.frm))

/-- The instant of a timestamp of this tick or an earlier one, in periods of 500 ps. -/
def State.instantOf (s : State) (tick sub : Nat) : Nat :=
  if tick % 0x100000000 = s.time.tick % 0x100000000 then s.tickStart + sub
  else if tick % 0x100000000 = s.time.ended % 0x100000000 then s.time.lastStart + sub
  else s.tickStart - (s.time.tick + 0x100000000 - tick % 0x100000000) % 0x100000000 * s.tickLength + sub

/-- The index that a capture stream's next item has if none is lost on the way: after those stored and dropped (R409, R410). -/
def State.nextIdx (s : State) (k : Nat) : Nat :=
  s.pair (startIdxLo k) (startIdxHi k) + s.pair (writtenLo k) (writtenHi k) + (s.reg (dropped k)).toNat

/-- The first index from `lo` on whose lowest four bits are a word's SEQ (R109). -/
def fromSeq (lo seq : Nat) : Nat := lo + (seq + 16 - lo % 16) % 16

/-- The index of the first item of a packet (R409): by its timestamp, where its stream carries one; by its place in a task's output, counted
from what the task first sent to the stream; from 0 for a fabric function. For a stream of a sibling it is that of the element which feeds
it: a sub-tick that is not 0 is that of a stream with timestamps, at the words per tick that REMOTE_IN declares, and else a first index is
not known here but for its SEQ (DESIGN CHOICE, log entry 121). -/
def State.firstIndex (s : State) (k : Nat) (p : Packet) : State × Nat :=
  let seq := leAt p.data 0 1 % 16
  match s.capFrom k with
  | none => (s, 0)
  | some e =>
    match s.streamClock e with
    | some (o, step, m) => (s, (s.instantOf p.tick p.sub - o) / step * m)
    | none =>
      if e.el.kind = 11 ∧ p.sub ≠ 0 then (s, (s.instantOf p.tick p.sub - s.time.origin) * e.el.params.getD 2 0 / s.tickLength)
      else if (s.cap k).begun then (s, if e.el.kind = 5 then s.nextIdx k else fromSeq (s.nextIdx k) seq)
      else if e.el.kind = 5 then (s, 0)
      else if e.el.kind = 4 then (s, fromSeq ((s.cap k).lead.getD 0) seq)
      else let (x, t) := s.free; (t, x % 0x1000000000000000 * 16 + seq)

/-- The marks of a raw sample by its index (R58, R60, R96, R108, R111): S for a window or a start-up at its instant, C for an overload, M where
its position was filled. -/
def State.rawMarks (s : State) (k i : Nat) : Nat :=
  match s.capFrom k with
  | some e => match s.streamClock e with
    | some (o, step, m) =>
      if e.el.kind ≠ 1 then 0
      else
        let c := unitIndex e.unit
        let (q, ch, at_) := (c / 4, c % 4, o + i * step / m)
        8 * flag (s.settlingAt q ch at_ || s.startingUp q ch i at_) + 4 * flag (s.overloadAt q ch at_)
          + flag (s.filledAt q ch (i % max 1 (s.chanCount q ch)) at_)
    | none => 0
  | none => 0

/-- The tick of item `i` of a packet whose first item carries a tick (R403): where the stream carries timestamps, an item after a boundary
lies in the tick that begins there (R35, R161). -/
def State.itemTick (s : State) (k : Nat) (p : Packet) (tick i : Nat) : Nat :=
  match (s.capFrom k).bind s.streamClock with
  | some (_, step, m) =>
    let a := s.instantOf p.tick p.sub + i / m * step
    if s.tickStart ≤ a then s.time.tick else if s.time.lastStart ≤ a then s.time.ended else tick
  | none => tick

/-- A packet that reaches a capture port for stream `k` (R407–R411). -/
def State.capturePacket (s : State) (k : Nat) (p : Packet) : State :=
  let (t, i0) := s.firstIndex k p
  let tick := completeTick s.time.tick p.tick
  let w := if s.capRaw k then 2 else 4
  let n := (16 * (p.len - 1) + p.lasth) * 2 / w
  foldBelow (fun i t =>
    let item := (p.data.drop (w * i)).take w
    let nib := if s.capRaw k then (p.marks.getD i 0 &&& 0xD) ||| s.rawMarks k (i0 + i) else (leAt item 0 1) / 16
    t.captureItem k (i0 + i) (s.itemTick k p tick i) nib item) n t

/-! ### Triggers (R411, R594, R595) -/

/-- A trigger or FREEZE_GO now; in the tick of a stop TRIG_IDX is recorded, and the stop governs the close (R416). The trigger word of a timed stream is the first at or after this instant, and of any other
the next to come. -/
def State.triggerCap (s : State) (k : Nat) : State :=
  let st := s.capState k
  let at_ := match (s.capFrom k).bind s.streamClock with
    | some (o, step, m) => (s.time.now - o + step - 1) / step * m
    | none => if (s.cap k).begun then s.nextIdx k else 0
  let t := s.setPair (trigIdxLo k) (trigIdxHi k) at_
  let stop := (s.cap k).ending
  if st = 2 then (t.setCap k { t.cap k with trig := some at_, late := stop }).setCapState k 3
  else if st = 4 then (if stop then t else t.closeCap k true)
  else s

/-- Whether a trigger source may be selected by owner `own` (R316, R595): no reserved code, no absent unit, and no CAB or chain
of another function. -/
def State.trigSourceOk (s : State) (own src : Nat) : Bool :=
  if src < 0x80 then decide (src / 8 < s.part.quads) && (s.ownCab src == own || !(1 ≤ s.ownCab src && s.ownCab src ≤ 8))
  else if src < 0xD0 then
    let n := src - 0x80
    decide (n < s.part.chains) && (s.ownChain n == own || !(1 ≤ s.ownChain n && s.ownChain n ≤ 8))
  else decide (src ≤ 0xD8 ∨ src = 0x1FF)

/-- A write of CAP_STREAM[k].CTRL (R411, R418, R595). -/
def State.writeCapCtrl (s : State) (f k : Nat) (v : Word) : State :=
  s.allowed (s.capOwner k == f + 1) f (capStrCtrl k) v
    (if s.trigSourceOk (s.capOwner k) (capStrCtrl_TRIG_SRC.get v) then
      let t := s.writeReg (capStrCtrl k) capStrCtrlDesc v
      if capStrCtrl_FREEZE_GO.get v = 1 then t.triggerCap k else t
    else (s.setFlag (capStrStatus k) capStrStatus_REFUSED).raise 830 4 [k] (s.capOwner k))

/-- FREEZE_GO (R411). -/
def execFreezeGo (f c : Nat) (v : Word) (s : State) : Result :=
  s.hostWrite (s.onlyIf (decide (c < 256)) (s.writeCapCtrl f c v))

/-- A write to the MEM block (R418, R419). -/
def State.writeMem (s : State) (f x : Nat) (v : Word) : State :=
  let off := 0x800000 + x
  if x < 0x1000 then s.allowed false f off v s
  else
    let k := (x - 0x1000) / 0x40
    match (x - 0x1000) % 0x40 with
    | 0 => s.writeCapCtrl f k v
    | 4 => s.allowed (s.capOwner k == f + 1) f off v (s.writeReg off capStrStatusDesc v)
    | _ => s.allowed false f off v s

/-! ### Freeing (R413) -/

/-- SEG_FREE (R413, R436–R438): an ownership rule before a length rule (R450). -/
def State.segFree (s : State) (f : Nat) (d : HostDesc) : State :=
  let range := bitOf (d.param 0) 31 == 1
  let (g, n) := (d.param 1, d.param 2)
  let mine := (s.mem.segs.filter (fun x => if range then g ≤ x.1 && decide (x.1 < g + n) else x.2.stream == d.param 0 % 0x100))
  if range ∧ (n = 0 ∨ 524288 < g + n) then s.completeDesc f d 2 0 0 0 s.time.tick
  else if mine.any (fun x => x.2.owner != f + 1 && !(x.2.owner == 15 && x.2.state == 1)) then
    s.completeDesc f d 4 0 0 0 s.time.tick
  else if d.length ≠ 0 ∨ d.buffer ≠ 0 then s.completeDesc f d 3 0 0 0 s.time.tick
  else if mine.any (fun x => s.capState x.2.stream != 5) then s.completeDesc f d 7 0 0 0 s.time.tick
  else
    let t := mine.foldl (fun t x => t.setSeg x.1 freeSeg) s
    t.completeDesc f d 0 0 0 mine.length s.time.tick

/-- SEG_FREE (R413). -/
def execSegFree (f : Nat) (s : State) : Result := s.command f 9 (fun d => s.segFree f d)

/-- The segments of function `f` whose streams have closed, freed after its reset (R413, R425). -/
def State.freeOwned (s : State) (f : Nat) : State :=
  (s.mem.segs.filter (fun x => x.2.owner == f + 1 && s.capState x.2.stream == 5)).foldl (fun t x => t.setSeg x.1 freeSeg) s

/-! ### Reading (R401, R414, R440) -/

/-- Errors found by a read of units `u0` to `u1` for owner code `by_` (R401): single ones are corrected and counted, double ones poison the read.
ECC_CORRECTED is raised at most once in 100 ms. -/
def State.findFlaws (s : State) (by_ u0 u1 : Nat) (flaws : List Flaw) : State × Bool :=
  (flaws.filter (fun x => decide (u0 ≤ x.unit ∧ x.unit ≤ u1))).foldl (fun (a : State × Bool) x =>
    let t := a.1
    let g := x.unit / 2048
    let st := g / 262144
    if x.double then
      let t := (t.count (eccUncorr st)).setPair (eccAddrLo st) (eccAddrHi st) (x.unit * 32)
      let t := (t.setFlag (stackStatus st) stackStatus_ECC_ERR).setSeg g { t.seg g with ecc := true }
      (t.report ⟨7, by_, (t.seg g).owner, 828 + st, x.unit * 32, g, 1, st, t.time.tick⟩ (828 + st) 1 [], true)
    else
      let t := t.count (eccCorr st)
      let last := FMap.get (fun _ => none) t.mem.corrSaid st
      if last.all (fun l => decide (l + 200000000 ≤ t.time.now)) then
        (({ t with mem := { t.mem with corrSaid := FMap.set (fun _ => none) t.mem.corrSaid st (some t.time.now) } }).raise
          (828 + st) 2, a.2)
      else (t, a.2)) (s, false)

/-- Whether a segment may be read by function `f`: it owns it, and it is OPEN, FULL or PART (R414, R440). -/
def State.mayReadSeg (s : State) (f g : Nat) : Bool :=
  (s.seg g).owner == f + 1 && decide (2 ≤ (s.seg g).state ∧ (s.seg g).state ≤ 4)

/-- The segments that bytes `a` to `a + n - 1` touch. -/
def segsOf (a n : Nat) : List Nat := (List.range ((a + n + 65535) / 65536 - a / 65536)).map (a / 65536 + ·)

/-- A BAR2 access that R414 forbids: logged with the address (R474). -/
def State.bar2Violation (s : State) (f a g code : Nat) : State :=
  let x := s.seg g
  s.report ⟨2, f + 1, x.owner, 831, a, g, code, x.state, s.time.tick⟩ 860 2 [a % 0x100000000, g, code * 0x100 + x.state] (f + 1)

/-- BAR2_READ (R414, R401, R513): `n` bytes at byte `a` of capture space; `flaws` are the errors that the read meets. While a warm reset
hides the registers it completes with Completer Abort, and nothing is logged. There is no such read where BAR2 is absent (R422), nor one longer than
Max Read Request Size (R423). -/
def execBar2Read (f a n : Nat) (flaws : List Flaw) (s : State) : Result :=
  .next (if s.boot.held then s.emit (.readBytes f (List.replicate n 0) false)
    else if !s.boot.bar2 || decide ((s.fn f).readSize < n) then s
    else if s.boot.warm then s.abortRead f
    else match (segsOf a n).find? (fun g => !s.mayReadSeg f g) with
      | some g => (s.abortRead f).bar2Violation f a g 1
      | none =>
        let (t, bad) := s.findFlaws (f + 1) (a / 32) ((a + n - 1) / 32) flaws
        let t := t.emit (.readBytes f (s.getBytes a n) bad)
        if bad then t.raise 831 1 [] (f + 1) else t)

/-- BAR2_WRITE (R414): an ownership violation; the write is dropped. There is none where BAR2 is absent (R422). -/
def execBar2Write (f a : Nat) (b : List Byte) (s : State) : Result :=
  .next (if s.open_ && s.boot.bar2 && !b.isEmpty then s.bar2Violation f a (a / 65536) 2 else s)

/-- A copy that meets poisoned units: it is written to the host unit by unit, and each of those in a TLP marked poisoned (R440). -/
def State.copyPoisoned (s : State) (f a n host : Nat) (bad : List Nat) : State :=
  (List.range ((a + n + 31) / 32 - a / 32)).foldl (fun t i =>
    let u := a / 32 + i
    let lo := max a (32 * u)
    let b := s.getBytes lo (min (a + n) (32 * u + 32) - lo)
    t.emit (if bad.contains u then .poisoned f (host + (lo - a)) b else .hostWrite f (host + (lo - a)) b)) s

/-- SEG_COPY (R440). -/
def State.segCopy (s : State) (f : Nat) (d : HostDesc) (flaws : List Flaw) : State :=
  let (g, o, n, len) := (d.param 1, d.param 2, d.param 3, d.length)
  let a := g * 65536 + o
  let done (t : State) (e x : Nat) := t.completeDesc f d e 0 0 x t.time.tick
  if 65535 < o ∨ n = 0 ∨ 262144 < n ∨ 524288 < g + n then done s 2 0
  else if (segsOf a (min len (n * 65536 - o))).any (fun i => !s.mayReadSeg f i) then done s 4 0
  else if n * 65536 - o < len then done s 3 0
  else
    let (t, bad) := s.findFlaws (f + 1) (a / 32) ((a + len - 1) / 32) flaws
    if bad then done (t.copyPoisoned f a len d.buffer (flaws.filterMap (fun x => if x.double then some x.unit else none))) 0xA len
    else done (t.emit (.hostWrite f d.buffer (s.getBytes a len))) 0 len

/-- SEG_COPY (R440). -/
def execSegCopy (f : Nat) (flaws : List Flaw) (s : State) : Result := s.command f 0xA (fun d => s.segCopy f d flaws)

end Sys2Proof.Machine
end

