-- ==== Sys2Proof/Machine/PinFunctions.lean ====
section
/-! DEFINITION. The functions in force of pins and what feeds them, timer channels and the levels of trigger sources (16_pins_and_gpio.md,
R480–R502). -/

namespace Sys2Proof.Machine

open Regs

/-! ### Functions of pins (R480–R482, R489, R490) -/

/-- The function in force of a pin: its ALT. -/
def State.pinAlt (s : State) (p : Nat) : Nat := FMap.get (fun _ => 0) s.pins.alt p % 16

/-- The function in force of a pin replaced. -/
def State.setPinAlt (s : State) (p alt : Nat) (analog : Bool) : State :=
  { s with pins := { s.pins with alt := FMap.set (fun _ => 0) s.pins.alt p (alt + 16 * flag analog) } }

/-- The next pin-clock edge after now (R480). -/
def State.nextPinEdge (s : State) : Nat := s.time.now + (10 - s.time.sub % 10)

/-- A register of a bank as its pads have it: a write reaches them at the first pin-clock edge after it (R484, R492). -/
def State.padReg (s : State) (off : Nat) : Word :=
  match FMap.get (fun _ => none) s.pins.late off with
  | some (w, at_) => if s.time.now < at_ then w else s.reg off
  | none => s.reg off

/-- A register that is about to be written: until the next pin-clock edge the pads keep what they have. -/
def State.holdPads (s : State) (off : Nat) : State :=
  { s with pins := { s.pins with late := FMap.set (fun _ => none) s.pins.late off (some (s.padReg off, s.nextPinEdge)) } }

/-- A field of PIN_CFG as the pin has it. -/
def State.padCfg (s : State) (p : Nat) (F : Fld) : Nat := F.get (s.padReg (pinCfg (p / 32) (p % 32)))

/-- The function switch in progress on a pin. -/
def State.switchOf (s : State) (p : Nat) : Option Switch := FMap.get (fun _ => none) s.pins.switch p

/-- The function switch of a pin replaced. -/
def State.setSwitch (s : State) (p : Nat) (x : Option Switch) : State :=
  { s with pins := { s.pins with switch := FMap.set (fun _ => none) s.pins.switch p x } }

/-- Whether a bank's VCCIO lies above 1.0 V. -/
def State.bankOk (s : State) (b : Nat) : Bool := s.bit (bankStatus b) bankStatus_VCCIO_OK

/-- Whether a pin is between edge 1 and edge 2 of a function switch: undriven, and feeding nothing (R491). -/
def State.pinDropped (s : State) (p : Nat) : Bool := (s.switchOf p).any (fun x => x.dropped || decide (x.edge1 ≤ s.time.now))

/-- Whether a pin's digital input works (R487–R489, R491). -/
def State.pinLive (s : State) (p : Nat) : Bool := !s.pinAnalog p && s.bankOk (p / 32) && !s.pinDropped p

/-- MODE of timer channel `n`. -/
def State.tmrMode (s : State) (n : Nat) : Nat := s.fld (tmrCtrl n) tmrCtrl_MODE

/-- The input function that a pin selects, as kind, unit and signal: 1 SPI MISO, 2 I²C, 3 UART, 4 timer capture, 5 PTI,
6 pin port, 7 FAB_CLK (R481, R489). -/
def State.inputOf (s : State) (p : Nat) : Option (Nat × Nat × Nat) :=
  let b := p / 32
  let i := p % 32
  match s.pinAlt p with
  | 1 => if i % 8 = 2 then some (1, b % 4, 2) else none
  | 2 => some (2, b % 4, i % 2)
  | 3 => if i % 4 = 1 ∨ i % 4 = 3 then some (3, b % 2, i % 4) else none
  | 4 => if s.tmrMode (i % 16) = 1 then some (4, i % 16, 0) else none
  | 5 => if i < 16 then some (5, i, 0) else none
  | 11 => some (7, p / 28, 0)
  | 0 => none
  | a => if a ≤ 10 then some (6, p / 28, p % 28) else none

/-- The pins that select an input function. -/
def State.selectors (s : State) (fn : Nat × Nat × Nat) : List Nat := (List.range 448).filter (fun p => s.inputOf p == some fn)

/-- The pin that feeds an input function; none where it sees its default (R489, R490). -/
def State.feeder (s : State) (fn : Nat × Nat × Nat) : Option Nat :=
  match s.selectors fn with
  | [p] => if s.pinLive p then some p else none
  | _ => none

/-- The accepted level of a pin. -/
def State.pinLevel (s : State) (p : Nat) : Bool := FMap.get (fun _ => false) s.pins.level p

/-- The level that an input function sees: that of its pin, or its default. -/
def State.inputLevel (s : State) (fn : Nat × Nat × Nat) (dflt : Bool) : Bool := ((s.feeder fn).map s.pinLevel).getD dflt

/-- Timer channel `n`. -/
def State.tmr (s : State) (n : Nat) : TmrSt := FMap.get (fun _ => ⟨none, false, none⟩) s.pins.tmr n

/-- Timer channel `n` replaced. -/
def State.setTmr (s : State) (n : Nat) (x : TmrSt) : State :=
  { s with pins := { s.pins with tmr := FMap.set (fun _ => ⟨none, false, none⟩) s.pins.tmr n x } }

/-- The length of a pin's debounce filter in periods of 500 ps (R494). -/
def State.debounce (s : State) (p : Nat) : Nat :=
  s.padCfg p pinCfg_DEBOUNCE * 2 ^ s.fld (bankCtrl (p / 32)) bankCtrl_PRESCALE * 10

/-! ### Trigger sources (R316, R502) -/

/-- The level of a trigger source (R316, R502). -/
def State.sourceLevel (s : State) (c : Nat) : Bool :=
  if c < 0x80 then s.bit (cabStatus (c / 8) (c % 8)) cabStatus_CMP_OUT
  else if c < 0xD0 then s.bit (coarse (c - 0x80)) coarse_OUT
  else if c < 0xD9 then s.fld trigLevel ⟨c - 0xD0, c - 0xD0⟩ == 1
  else if c < 0x100 then false
  else if c < 0x180 then FMap.get (fun _ => false) s.pins.outs (c - 0x100)
  else if c < 0x190 then (s.tmr (c - 0x180)).out
  else if c < 0x1A0 then s.fld trigLevel ⟨16 + (c - 0x190), 16 + (c - 0x190)⟩ == 1
  else false

end Sys2Proof.Machine
end

