-- ==== Sys2Proof/Machine/Triggers.lean ====
section
/-! DEFINITION. Rises of the trigger sources that the model itself holds, and the capture streams that they trigger (R316, R411, R594). -/

namespace Sys2Proof.Machine

open Regs

/-- The capture streams that select a source, before and after what made it rise, are triggered (R411, R594). -/
def State.riseTriggers (s0 s : State) (src : Nat) : State :=
  if !s0.sourceLevel src && s.sourceLevel src then
    foldBelow (fun k t =>
      if s0.cur (capStrCtrl k) capStrCtrl_TRIG_SRC = src ∧ t.cur (capStrCtrl k) capStrCtrl_TRIG_SRC = src then t.triggerCap k else t) 256 s
  else s

/-- CAPTURE_TRIGGER (R411, R594): the selected source of stream `c` rises, which it can only from 0; with none selected nothing can. The pulse
is over when the command is: what rises and stays at 1 comes by the command of its own source (DESIGN CHOICE, log entry 120). -/
def execCaptureTrigger (c : Nat) (s : State) : Result :=
  let src := s.cur (capStrCtrl c) capStrCtrl_TRIG_SRC
  .next (s.onlyIf (decide (c < 256) && src != 0x1FF && !s.sourceLevel src) (s.triggerCap c))

/-- CAB_COMPARATOR_RISE (R63–R66, R411): a CAB that compares nothing or is settling shows no rise. -/
def execCabComparatorRise (q b : Nat) (s : State) : Result :=
  .next (s.onlyIf (s.hasQuad q && decide (b < 8) && s.compares q b && !s.cabSettling q b
      && !s.bit (cabStatus q b) cabStatus_CMP_OUT)
    (let t := s.setCmp q b true
     let t := if s.integrator q b 2 then t.resetIntegrator q b else t
     let t := if s.bit (cabCmp q b) cabCmp_CMP_IE then t.raise (728 + q) 1 [b] else t
     s.riseTriggers t (8 * q + b)))

/-- CHAIN_INPUT_SAMPLE (R161, R179, R411): the next sample of the source channel reaches the chain; `xs` are the raw codes of the
samples from four before it to four after. -/
def execChainInputSample (n : Nat) (xs : List Int) (s : State) : Result :=
  .next (
    let c := s.cur (chainSrc n) chainSrc_CH
    let st := s.chanStep c
    let base := s.baseIndex c
    let i := max (s.chain n).next (base + s.time.sub / st)
    s.onlyIf (s.hasChain n && s.chainState n == 2 && st != 0 && s.ticking && s.clocked
        && s.powerOf (c / 4) == .on && decide ((i - base) * st < s.tickLength))
      (s.riseTriggers (s.chainTake n c i ((i - base) * st) xs) (0x80 + n)))

end Sys2Proof.Machine
end

