-- ==== Sys2Proof/Machine/Fabric.lean ====
section
/-! DEFINITION. Saggers: restart, stream ports, event lines, CAPTURE (10_logic_fabric.md, R294–R330). The design inside a
sagger runs by Tiles.lean as time passes; what it does at its stream ports and event lines comes with the commands (log entry 77). -/

namespace Sys2Proof.Machine

open Regs

/-- A sagger without an image. -/
def idleSagger : Sagger where
  restart := false
  held := []
  armed := false
  was := 0
  plane := []
  fifo := []
  pushed := []
  pkt := []
  said := []
  rises := []
  lines := []
  leave := none
  mute := false
  parked := false
  park := 0
  image := 0
  clocks := 0x7777
  released := []
  armedAt := 0
  heldAt := 0
  setting := 0
  want := 0
  due := none
  edges := []
  late := []
  shown := []
  heldEdges := []
  ff := []
  rr := []
  ram := []
  wasAt := 0
  wasFf := []
  wasRr := []
  wasRam := []
  ti := []
  tiMask := []
  tiWas := []
  tiPast := []
  event := none
  popped := []
  wall := []

/-- Sagger `g`. -/
def State.sag (s : State) (g : Nat) : Sagger := FMap.get (fun _ => idleSagger) s.sags g

/-- Sagger `g`, replaced. -/
def State.setSag (s : State) (g : Nat) (x : Sagger) : State := { s with sags := FMap.set (fun _ => idleSagger) s.sags g x }

/-- Whether sagger `g` exists. -/
def State.hasSagger (s : State) (g : Nat) : Bool := decide (g < s.part.saggers)

/-- STATE of a sagger (R295): 0 OFF, 1 UNFIRED, 2 LOADING, 3 FIRED, 4 PLACED. -/
def State.saggerState (s : State) (g : Nat) : Nat := s.fld (sagState g) sagState_STATE

/-- STATE of a sagger set. -/
def State.setSaggerState (s : State) (g st : Nat) : State := s.setFld (sagState g) sagState_STATE st

/-- Whether a design runs in sagger `g`. -/
def State.fired (s : State) (g : Nat) : Bool := s.saggerState g == 3 || s.saggerState g == 4

/-- A sagger's domain powered or not (R296). -/
def State.powerSagger (s : State) (g : Nat) (on : Bool) : State :=
  let t := if on then s else s.resetBridges (16 + g)
  (t.setPower (16 + g) (if on then .on else .off)).setFld (sagState g) sagState_POWERED (flag on)

/-! ### Clocks (R307, R308) -/

/-- The source code of clock net `j` of a sagger: while it loads, that of the image (R359). -/
def State.netSource (s : State) (g j : Nat) : Nat :=
  bitsOf (if s.saggerState g = 2 then (s.sag g).clocks else (s.reg (clksel g)).toNat) (4 * j + 3) (4 * j)

/-- Whether fabric PLL `p` is locked. -/
def State.fpllLocked (s : State) (p : Nat) : Bool := s.bit (fpllStatus p) fpllStatus_LOCK

/-- Whether the design in a sagger is clocked at all: heat stops every net (R578, R579). -/
def State.designRuns (s : State) (g : Nat) : Bool := s.fired g && !s.boot.hold && !s.boot.trip

/-- Whether a net is held low or off (R307, R308), EXT without a pin that feeds it (R489), or stopped by heat (R578, R579). -/
def State.netDead (s : State) (g j : Nat) : Bool :=
  let c := s.netSource g j
  s.boot.hold || s.boot.trip || c == 7 || (c == 4 && !s.fpllLocked 0) || (c == 5 && !s.fpllLocked 1)
    || (c == 6 && !(s.pinAlt (28 * g) == 11 && s.pinLive (28 * g)))

/-! ### The design (R297–R310) -/

/-- A configuration bit of sagger `g`: 0 where no frame was written (R333). -/
def State.cfgBit (s : State) (g : Nat) (c : Config.Cell) : Bool :=
  let cs := s.loader.cells.filter (fun x => x.1 / 0x80000 == g + 1)
  if cs.isEmpty then false
  else
    let a := Config.cellOf c
    bitOf (((FMap.get (fun _ => []) cs ((g + 1) * 0x80000 + a / 4096 % 1024)).getD (a % 4096 / 8) 0).toNat) (a % 8) == 1

/-- The initial value of flip-flop 16t + m (R310). -/
def State.ffInit (s : State) (g i : Nat) : Bool := s.cfgBit g (.initial (i / 16) (i % 16))
/-- The initial value of routing register 64t + r. -/
def State.rrInit (s : State) (g i : Nat) : Bool := s.cfgBit g (.pointInitial (i / 64) (i % 64))
/-- The initial value of RAM bit 64 × (16j + m) + a. -/
def State.ramInit (s : State) (g i : Nat) : Bool := s.cfgBit g (.ramInitial (96 + i / 1024) (i / 64 % 16) (i % 64))

/-- Flip-flop 16t + m of sagger `g`. -/
def State.ffOf (s : State) (g i : Nat) : Bool := FMap.get (s.ffInit g) (s.sag g).ff i
/-- Routing register 64t + r. -/
def State.rrOf (s : State) (g i : Nat) : Bool := FMap.get (s.rrInit g) (s.sag g).rr i
/-- RAM bit 64 × (16j + m) + a. -/
def State.ramOf (s : State) (g i : Nat) : Bool := FMap.get (s.ramInit g) (s.sag g).ram i

/-- The half sub-tick periods between edges of a coherent net (R29, R307): 800, 400, 200, 100 MHz. -/
def netPeriod (code : Nat) : Nat := 5 * 2 ^ code

/-- Whether a coherent net has a rising edge in the 500 ps that begin `r` periods after a boundary, with which one of its edges
coincides. -/
def coherentEdge (code r : Nat) : Bool :=
  let p := netPeriod code
  decide ((2 * r + p - 1) / p * p < 2 * r + 2)

/-- Whether a fabric PLL's clock rises in the 500 ps that begin now. -/
def State.fpllEdge (s : State) (p : Nat) : Bool :=
  let n := s.fld (fpllStatus p) fpllStatus_FREQ
  let ph := Config.fpllPhase p
  decide ((s.time.now * n + ph) / 20000 < ((s.time.now + 1) * n + ph) / 20000)

/-- Whether clock net `j` of sagger `g` has an edge now. No command brings the level of a pin before its debounce filter, so the edges of EXT
behind a filter are open; without one they come with the pin (R307, R494; DESIGN CHOICE, log entry 118). -/
def State.netEdge (s : State) (g j : Nat) : Bool :=
  let c := s.netSource g j
  s.ticking && !s.netDead g j && (if c < 4 then coherentEdge c s.time.sub else if c < 6 then s.fpllEdge (c - 4)
    else c == 6 && decide (s.debounce (28 * g) ≠ 0) && Config.extRise g s.time.now)

/-- Whether clock net `j` of sagger `g` clocks its design now: an edge, and no hold of a restart (R311). -/
def State.netRises (s : State) (g j : Nat) : Bool := s.netEdge g j && !(s.sag g).held.contains j

/-- Whether the design of sagger `g` has left its initial values (R310, R357). -/
def State.designLive (s : State) (g : Nat) : Bool :=
  (s.sag g).released.contains 2 && (s.saggerState g == 2 || s.fired g) && !s.boot.hold && !s.boot.trip

/-- Whether a net has a clock that is phase-locked to CLKREF (R29, R307). -/
def State.coherent (s : State) (g j : Nat) : Bool := decide (s.netSource g j < 4)

/-- The edges counted of a net that is not coherent. -/
def State.edgeCount (s : State) (g j : Nat) : Nat := FMap.get (fun _ => 0) (s.sag g).edges j

/-- The count of edges at which the latest TICK pulse of such a net rises. -/
def State.pulseEdge (s : State) (g j : Nat) : Nat := FMap.get (fun _ => 0) (s.sag g).late j

/-- Whether a boundary has passed whose TICK pulse a net has not had yet (R30, R309). -/
def State.pulseWaits (s : State) (g j : Nat) : Bool := decide (s.edgeCount g j < s.pulseEdge g j)

/-- The tick that a net is in: of one that is not coherent, the tick before until its TICK pulse rises (R309). -/
def State.netTick (s : State) (g j : Nat) : Nat := if s.pulseWaits g j then FMap.get (fun _ => 0) (s.sag g).shown j else s.time.tick

/-- Whether a stream is bound to input port `p` of sagger `g` (R312, R320). -/
def State.inputBound (s : State) (g p : Nat) : Bool :=
  s.wheel.graphs.any (fun x => x.phase != .admitted && x.phase != .stopped && x.edges.any (fun e => !e.ed.analog && !e.stopped
    && e.ed.toPort == p && x.elems.any (fun y => y.el.id == e.ed.to_ && y.unit == 0x6000 + g)))

/-- The words of an input FIFO (R312). -/
def State.inFifo (s : State) (g p : Nat) : List Word := FMap.get (fun _ => []) (s.sag g).fifo p

/-- The key of the open packet of a stream of output port `p`: the stream by its destination and its number there. -/
def packetKey (p : Nat) (e : PlacedEdge) : Nat := (256 * p + e.dst) * 0x10000 + e.num % 0x10000

/-- The words that output port `p` holds (R313): what has not left, for the stream that is furthest behind. -/
def State.outLoad (s : State) (g p : Nat) : Nat :=
  ((s.streamsFrom (0x6000 + g) (16 + p)).map (fun e => (FMap.get (fun _ => []) (s.sag g).pkt (packetKey p e)).length
    + ((s.noc.waiting.filter (fun w => w.1 == e.entry && w.2.src == e.src)).map (fun w => w.2.data.length / 4)).foldl (· + ·) 0)).foldl max 0

/-- FULL of output port `p` (R313). -/
def State.outFull (s : State) (g p : Nat) : Bool := decide (512 ≤ s.outLoad g p)

/-- Trigger input TI `i` as the design sees it at its next edge (R316, R317). -/
def State.tiSees (s : State) (g i : Nat) : Bool :=
  FMap.get (fun _ => 0) (s.sag g).tiMask i == 0 && FMap.get (fun _ => false) (s.sag g).ti i

/-- Pin port `k` as the design sees it (R319, R489): 0 where its pin does not feed it, or belongs to another function than the sagger; else the
level of the pin, which no command brings from before a debounce filter (log entry 118). -/
def State.pinPort (s : State) (g k : Nat) : Bool :=
  let p := 28 * g + k
  if s.inputOf p = some (6, g, k) && s.pinLive p && s.saggerState g == 4 && s.ownSagger g == s.ownPin p then
    (if s.debounce p = 0 then s.pinLevel p else Config.fabricOpen s.freeCtr (.port (708 + k)))
  else false

/-- The signals at a sagger's ports as its next edge sees them (R294): DATA of input port p at 32p, its VALID at 512 + p and FULL of output port
p at 528 + p (R312, R313); trigger input i at 544 + i (R316); TICK of net j at 576 + j and TICKNUM at 580 + 32j (R309), which follow from the
time on a coherent net, on another from its edges; pin port k at 708 + k (R319). DATA while VALID is 0 is open (log entry 77). -/
def State.portSig (s : State) (g n : Nat) : Bool :=
  if n < 512 then
    match s.inFifo g (n / 32) with
    | w :: _ => bitOf w.toNat (n % 32) == 1
    | [] => Config.fabricOpen s.freeCtr (.port n)
  else if n < 528 then s.inputBound g (n - 512) && !(s.inFifo g (n - 512)).isEmpty
  else if n < 544 then s.outFull g (n - 528)
  else if n < 576 then s.tiSees g (n - 544)
  else if n < 580 then
    let j := n - 576
    if s.coherent g j then decide (0 < s.time.sub ∧ 2 * s.time.sub ≤ netPeriod (s.netSource g j))
    else decide (0 < s.pulseEdge g j) && s.edgeCount g j == s.pulseEdge g j
  else if n < 708 then
    let j := (n - 580) / 32
    bitOf (if s.coherent g j && s.time.sub == 0 then s.time.ended else s.netTick g j) ((n - 580) % 32) == 1
  else if n < 736 then s.pinPort g (n - 708)
  else Config.fabricOpen s.freeCtr (.port n)

/-- The clock net that the image chooses for a port (R309): input port p at p, output port p at 16 + p, trigger input i at 32 + i, event
line i at 64 + i. -/
def State.portNet (s : State) (g k : Nat) : Nat :=
  (if s.cfgBit g (.portClock k 0) then 1 else 0) + (if s.cfgBit g (.portClock k 1) then 2 else 0)

/-- What the design of sagger `g` is evaluated over now. -/
def State.fab (s : State) (g : Nat) : Fab where
  cfg := s.cfgBit g
  port := s.portSig g
  ff := fun t m => s.ffOf g (16 * t + m)
  rr := fun t r => s.rrOf g (64 * t + r)
  ram := fun t m a => s.ramOf g (64 * (16 * (t - 96) + m) + a)
  free := Config.fabricOpen s.freeCtr

/-- Rising edges of some nets of sagger `g` at one instant (R300, R301, R303, R304, R306): the design pops the input ports whose POP it asserts
(R312; what drives POP is open, log entry 77). -/
def State.clockDesign (s : State) (g : Nat) (nets : List Nat) : State :=
  if nets.isEmpty || !s.designLive g then s
  else
    let f := s.fab g
    let x := s.sag g
    let ram := if !x.released.contains 3 then x.ram
      else FMap.ofFn (s.ramInit g) 32768 (fun i => f.nextRam nets (96 + i / 1024) (i / 64 % 16) (i % 64))
    let fifo := (List.range 16).foldl (fun m p =>
      if nets.contains (s.portNet g p) && f.at_ (Config.popSig p) then FMap.set (fun _ => []) m p ((FMap.get (fun _ => []) m p).drop 1) else m) x.fifo
    let popped := (List.range 16).foldl (fun m p =>
      let d := (FMap.get (fun _ => []) x.fifo p).length - (FMap.get (fun _ => []) fifo p).length
      FMap.set (fun _ => 0) m p (FMap.get (fun _ => 0) m p + d)) x.popped
    { s with freeCtr := s.freeCtr + 1 }.setSag g { x with
      fifo := fifo, popped := popped
      wasAt := s.time.now, wasFf := x.ff, wasRr := x.rr, wasRam := x.ram
      ff := FMap.ofFn (s.ffInit g) 2048 (fun i => f.nextFf nets (i / 16) (i % 16))
      rr := FMap.ofFn (s.rrInit g) 8192 (fun i => f.nextRr nets (i / 64) (i % 64))
      ram := ram }

/-- The open packet of a stream of output port `p` sent, under the tick that the port's net is in (R314, R315). -/
def State.closePush (s : State) (g p : Nat) (e : PlacedEdge) : State :=
  let x := s.sag g
  let ws := FMap.get (fun _ => []) x.pkt (packetKey p e)
  if ws.isEmpty then s
  else (s.sendOn e (s.streamPacket e (s.netTick g (s.portNet g (16 + p))) 0 (wordBytes ws))).setSag g
    { x with pkt := FMap.set (fun _ => []) x.pkt (packetKey p e) [] }

/-- A TICK pulse on the ports of some nets: their packets, all of the tick before, are closed, and their counts begin anew (R309, R314,
R315, R318). -/
def State.portPulse (s : State) (g : Nat) (nets : List Nat) : State :=
  let on (k : Nat) : Bool := nets.contains (s.portNet g k)
  let t := foldBelow (fun p t => if on (16 + p) then
    (t.streamsFrom (0x6000 + g) (16 + p)).foldl (fun t e => t.closePush g p e) t else t) 16 s
  let x := t.sag g
  t.setSag g { x with pushed := x.pushed.filter (fun e => !on (16 + e.1)),
                      said := x.said.filter (fun k => !on (if k < 32 then k else k - 16)),
                      lines := x.lines.filter (fun i => !on (64 + i)) }

/-- An edge of a net that is not coherent: the third after a boundary is that at which its TICK pulse rises, 2 to 3 periods after it (R30,
R309), and the event edge of a capture of that tick (R322). -/
def State.countEdge (s : State) (g j : Nat) : State :=
  let n := s.edgeCount g j + 1
  let rises := n == s.pulseEdge g j
  let t := if rises then s.portPulse g [j] else s
  let x := t.sag g
  t.setSag g { x with
    edges := FMap.set (fun _ => 0) x.edges j n
    due := if rises && x.armed && capCtrl_CLK.get x.setting == j && capCtrl_MODE.get x.setting == 1 && x.want == s.time.tick then
      some (n + capCtrl_DELAY.get x.setting) else x.due }

/-- The sources of the trigger inputs as they are, one bit each (R316). -/
def State.tiLevels (s : State) (g : Nat) : Nat :=
  (List.range 32).foldl (fun n i =>
    let c := s.cur (trigSel g i) trigSel_SRC
    n + if c < 0xD9 && s.sourceLevel c then 2 ^ i else 0) 0

/-- The sources of the trigger inputs as they were 4 ns ago, before what changed then (R317). -/
def State.tiLate (s : State) (g : Nat) : Nat := ((s.sag g).tiPast[8]?).getD (s.tiLevels g)

/-- A coherent net's rising edge in the 500 ps that begin now, as an instant in units of 250 ps; of another net the spec fixes none. -/
def State.edgeInstant (s : State) (g j : Nat) : Option Nat :=
  if s.coherent g j then
    let p := netPeriod (s.netSource g j)
    some (2 * s.tickStart + (2 * s.time.sub + p - 1) / p * p)
  else none

/-- The clock net of an armed capture. -/
def State.capNet (s : State) (g : Nat) : Nat := capCtrl_CLK.get (s.sag g).setting

/-- The edges of some nets take the trigger inputs that they clock (R317): the design has just seen what the edge before took, two edges after a
change of TRIG_SEL at the earliest. A trigger input that an armed capture waits for, seen at 1 after 0, is its event edge (R322). -/
def State.takeTriggers (s : State) (g : Nat) (nets : List Nat) : State :=
  let late := s.tiLate g
  foldBelow (fun i t =>
    if !nets.contains (t.portNet g (32 + i)) then t
    else
      let x := t.sag g
      let sees := t.tiSees g i
      let hit := x.armed && capCtrl_MODE.get x.setting == 2 && capCtrl_TRIG.get x.setting == i && x.event.isNone && sees
        && !FMap.get (fun _ => false) x.tiWas i
      t.setSag g { x with
        ti := FMap.set (fun _ => false) x.ti i (bitOf late i == 1)
        tiMask := FMap.set (fun _ => 0) x.tiMask i (FMap.get (fun _ => 0) x.tiMask i - 1)
        tiWas := FMap.set (fun _ => false) x.tiWas i sees
        event := if hit then some ((t.edgeInstant g (t.portNet g (32 + i))).getD (2 * t.time.now)) else x.event
        due := if hit then some (t.edgeCount g (t.capNet g) + capCtrl_DELAY.get x.setting) else x.due }) 32 s

/-- Edges of some nets of sagger `g` at one instant: they clock what no restart holds, are counted where nothing else says their number, and take
the trigger inputs. -/
def State.edgesOf (s : State) (g : Nat) (nets : List Nat) : State :=
  let t := s.clockDesign g (nets.filter (fun j => !(s.sag g).held.contains j))
  if s.designLive g then ((nets.filter (fun j => !s.coherent g j)).foldl (fun t j => t.countEdge g j) t).takeTriggers g nets else t

/-- The edges of every net of sagger `g` that has one now. -/
def State.clockNets (s : State) (g : Nat) : State := s.edgesOf g ((List.range 4).filter (s.netEdge g))

/-- Whether any design may run. -/
def State.fabricLive (s : State) : Bool := s.sags.any (fun x => x.2.released.contains 2)

/-- What the clock nets of the saggers do at the present instant. -/
def State.fabricInstant (s : State) : State :=
  if s.fabricLive then foldBelow (fun g t => t.clockNets g) s.part.saggers s else s

/-- The levels at the trigger inputs of the designs that run, kept for 4 ns (R317). -/
def State.keepTriggers (s : State) : State :=
  foldBelow (fun g t =>
    let x := t.sag g
    if x.released.contains 2 then t.setSag g { x with tiPast := (t.tiLevels g :: x.tiPast).take 9 } else t) s.part.saggers s

/-- Time passed to the next sub-tick period, with the edges that fall there. -/
def State.passTime (s : State) : State :=
  let t := if s.fabricLive then s.keepTriggers else s
  { t with time := { t.time with now := t.time.now + 1, sub := if t.ticking then t.time.sub + 1 else t.time.sub } }.fabricInstant

/-- As many periods as a count. -/
def State.passTimes (s : State) : Nat → State
  | 0 => s
  | n + 1 => s.passTime.passTimes n

/-- The edges of the designs up to the last period before an instant, to which time goes on at once. -/
def State.fabricUntil (s : State) (at_ : Nat) : State := if s.fabricLive then s.passTimes (at_ - 1 - s.time.now) else s

/-! ### CAPTURE (R322–R327) -/

/-- An armed capture aborted (R327). -/
def State.abortCapture (s : State) (g : Nat) : State :=
  let x := s.sag g
  if !x.armed then s
  else
    let t := s.setSag g { x with armed := false }
    let t := (t.setFld (capStatus g) capStatus_STATE x.was).setFld (capStatus g) capStatus_ERR 6
    t.raise (744 + g) 2

/-- The first failing check of an arm (R323): its code, or 0. -/
def State.armError (s : State) (g : Nat) : Nat :=
  if !s.fired g then 1
  else if (s.sag g).armed then 2
  else if s.fld (capCtrl g) capCtrl_MODE = 3 then 3
  else if s.fld (capCtrl g) capCtrl_MODE = 1 ∧ s.pair (capTickLo g) (capTickHi g) ≤ s.time.tick then 4
  else if s.netSource g (s.fld (capCtrl g) capCtrl_CLK) = 7 then 5
  else 0

/-- A capture armed with the settings as they stand, or refused (R322, R323). In MODE NOW the event edge is the net's next. -/
def State.arm (s : State) (g : Nat) : State :=
  match s.armError g with
  | 0 =>
    let c := s.reg (capCtrl g)
    (s.setSag g { s.sag g with
      armed := true, was := s.fld (capStatus g) capStatus_STATE, armedAt := s.time.now, setting := c
      want := s.pair (capTickLo g) (capTickHi g), event := none
      due := if capCtrl_MODE.get c = 0 then some (s.edgeCount g (capCtrl_CLK.get c) + 1 + capCtrl_DELAY.get c) else none }).setFld
      (capStatus g) capStatus_STATE 1
  | e => ((s.setFld (capStatus g) capStatus_ERR e).setFlag (capStatus g) capStatus_REFUSED).raise (744 + g) 3

/-- An armed capture cancelled (R327). -/
def State.cancelCapture (s : State) (g : Nat) : State :=
  let x := s.sag g
  if x.armed then (s.setSag g { x with armed := false }).setFld (capStatus g) capStatus_STATE x.was else s

/-- R329: F0 and the function that owns the sagger. -/
def State.maySag (s : State) (f g : Nat) : Bool := f == 0 || s.ownSagger g == f + 1

/-- A write of CMD (R311, R322, R327): a cancel, then an arm, then a restart for the next boundary. -/
def State.writeSagCmd (s : State) (f g : Nat) (v : Word) : State :=
  s.allowed (s.maySag f g) f (sagCmd g) v
    (let t := if sagCmd_CAP_CANCEL.get v = 1 then s.cancelCapture g else s
     let t := if sagCmd_CAP_ARM.get v = 1 then t.arm g else t
     if sagCmd_RESTART.get v = 1 ∧ t.fired g then t.setSag g { t.sag g with restart := true } else t)

/-- RESTART (R311). -/
def execRestart (f g : Nat) (v : Word) (s : State) : Result := s.hostWrite (s.onlyIf (s.hasSagger g) (s.writeSagCmd f g v))

/-- CAP_ARM (R322, R323). -/
def execCapArm (f g : Nat) (v : Word) (s : State) : Result := s.hostWrite (s.onlyIf (s.hasSagger g) (s.writeSagCmd f g v))

/-- CAP_CANCEL (R327). -/
def execCapCancel (f g : Nat) (v : Word) (s : State) : Result :=
  s.hostWrite (s.onlyIf (s.hasSagger g) (s.writeSagCmd f g v))

/-- Whether the capture edge falls now (R322), by the settings of the arm: the event edge is the net's first after the arm, that of the TICK pulse
of CAP_TICK, or that at which the design sees the trigger input at 1 after 0; and DELAY edges of the net follow. -/
def State.captureDue (s : State) (g : Nat) : Bool :=
  let x := s.sag g
  let c := s.netSource g (s.capNet g)
  let mode := capCtrl_MODE.get x.setting
  let delay := capCtrl_DELAY.get x.setting
  let p := netPeriod c
  let next (h : Nat) : Nat := h + (p - (h + p - 2 * s.tickStart % p) % p)
  if mode = 3 then false
  else if mode = 2 ∧ delay = 0 then x.event.any (fun h => h / 2 == s.time.now)
  else if 4 ≤ c then x.due == some (s.edgeCount g (s.capNet g))
  else
    let at_ : Option Nat :=
      if mode = 0 then some (next (2 * x.armedAt) + delay * p)
      else if mode = 2 then x.event.map (fun h => next h + (delay - 1) * p)
      else if s.time.tick < x.want then none else some (2 * (s.tickStart - (s.time.tick - x.want) * s.tickLength) + delay * p)
    at_.any (fun e => e / 2 == s.time.now)

/-- The value in the plane of a bit that net `j` clocks (R324): the one before the net's edge where that comes after the capture edge, the one
after it where it comes before, and either, as `told`, where the two fall together or one of them has no instant that the spec fixes. -/
def State.capturedBit (s : State) (g j : Nat) (before after told : Bool) : Bool :=
  if j = s.capNet g ∨ ¬ s.netRises g j ∨ (s.sag g).wasAt ≠ s.time.now ∨ before = after then after
  else match s.edgeInstant g j, s.edgeInstant g (s.capNet g) with
    | some a, some b => if b < a then before else if a < b then after else told
    | _, _ => told

/-- A bit of the shadow plane (R324, R325). -/
def State.planeBit (s : State) (g i : Nat) (told : Bool) : Bool :=
  let f := s.fab g
  let x := s.sag g
  if i < 2048 then s.capturedBit g (f.num (.clock (i / 16) (i % 16)) 2) (FMap.get (s.ffInit g) x.wasFf i) (s.ffOf g i) told
  else if i < 10240 then
    let r := i - 2048
    if f.cfg (.pointUsed (r / 64) (r % 64)) then
      s.capturedBit g (f.num (.pointClock (r / 64) (r % 64)) 2) (FMap.get (s.rrInit g) x.wasRr r) (s.rrOf g r) told
    else s.rrOf g r
  else
    let a := i - 10240
    f.isRam (96 + a / 1024) (a / 64 % 16)
      && s.capturedBit g (f.num (.clock (96 + a / 1024) (a / 64 % 16)) 2) (FMap.get (s.ramInit g) x.wasRam a) (s.ramOf g a) told

/-- Word `i` of the shadow plane. -/
def State.planeWord (s : State) (g : Nat) (told : List Word) (i : Nat) : Word :=
  BitVec.ofNat 32 ((List.range 32).foldl (fun n b => n + if s.planeBit g (32 * i + b) (bitOf (told.getD i 0).toNat b == 1) then 2 ^ b else 0) 0)

/-- CAPTURE_EDGE (R322, R324, R325): the plane takes the 1,344 words that the sagger holds just after the edge. The command's words count
for the bits whose own edge falls together with the capture's: either value may be had of them. -/
def execCaptureEdge (g : Nat) (plane : List Word) (s : State) : Result :=
  .next (s.onlyIf (s.hasSagger g && s.designRuns g && (s.sag g).armed && s.captureDue g)
    (let x := s.sag g
     let t := s.setSag g { x with armed := false, plane := FMap.ofFn (fun _ => 0) 1344 (s.planeWord g plane) }
     let t := (t.setFld (capStatus g) capStatus_STATE 2).setFld (capStatus g) capStatus_SEQ
       (t.fld (capStatus g) capStatus_SEQ + 1)
     let t := t.setReg (capStampLo g) (BitVec.ofNat 32 s.time.tick)
     (t.setReg (capStampSub g) (BitVec.ofNat 32 s.time.sub)).raise (744 + g) 1))

/-- A read of CAP_DATA (R326, R329). -/
def State.readCapData (s : State) (f g : Nat) : State :=
  if s.maySag f g then
    let a := s.fld (capAddr g) capAddr_ADDR
    let w := if a < 1344 then FMap.get (fun _ => 0) (s.sag g).plane a else 0
    (s.setFld (capAddr g) capAddr_ADDR (a + 1)).emit (.readData f w)
  else s.violation f (capData g) false 0

/-- CAP_DATA_READ (R326). -/
def execCapDataRead (f g : Nat) (s : State) : Result :=
  s.hostRead f (if s.hasSagger g then s.readCapData f g else s.emit (.readData f 0))

/-! ### Stream ports (R312–R315) -/

/-- Something that a sagger says once per tick and port, under a key: input port p at p, and at 16 + p and 32 + p what R314 and R313 say of
output port p. -/
def State.sayOnce (s : State) (g k reason : Nat) (args : List Nat) : State :=
  let x := s.sag g
  if x.said.contains k then s else (s.setSag g { x with said := k :: x.said }).raise (744 + g) reason args

/-- A sample word reaches input port `p` of sagger `g` (R312). Of a design that runs, the model knows what it pops; where the command says that
it has popped more since the word before, `pops` in all, the rest goes too. -/
def State.fabricTake (s : State) (g p : Nat) (w : Word) (pops : Nat) : State :=
  let x := s.sag g
  let q := (s.inFifo g p).drop (pops - FMap.get (fun _ => 0) x.popped p)
  let x := { x with popped := FMap.set (fun _ => 0) x.popped p 0 }
  if 512 ≤ q.length then
    let t := s.setSag g { x with fifo := FMap.set (fun _ => []) x.fifo p q }
    (t.setFlag (sagPort g) ⟨p, p⟩).sayOnce g p 4 [p]
  else s.setSag g { x with fifo := FMap.set (fun _ => []) x.fifo p (q ++ [w]) }

/-- A word of a STREAM packet for a sagger's input port: taken while the sagger is fired and the port is bound (R312, R320). -/
def State.fabricWord (s : State) (g p : Nat) (w : Word) : State :=
  s.onlyIf (s.hasSagger g && decide (p < 16) && s.fired g && s.inputBound g p) (s.fabricTake g p w 0)

/-- FABRIC_INPUT_WORD (R312): a word of the stream bound to the port. -/
def execFabricInputWord (g p : Nat) (w : Word) (pops : Nat) (s : State) : Result :=
  .next (s.onlyIf (s.hasSagger g && decide (p < 16) && s.fired g && s.inputBound g p) (s.fabricTake g p w pops))

/-- A word dropped at an output port. -/
def State.dropPush (s : State) (g p k reason : Nat) : State :=
  (s.setFlag (sagPort g) ⟨16 + p, 16 + p⟩).sayOnce g (k + p) reason [p]

/-- A word given to one stream of its port: within WORDS it joins the open packet (R314, R315). -/
def State.pushTo (s : State) (g p n : Nat) (w : Word) (e : PlacedEdge) : State :=
  if e.words ≤ n then s.dropPush g p 16 5
  else
    let x := s.sag g
    let ws := FMap.get (fun _ => []) x.pkt (packetKey p e) ++ [w]
    let t := s.setSag g { x with pkt := FMap.set (fun _ => []) x.pkt (packetKey p e) ws }
    if 512 ≤ ws.length then t.closePush g p e else t

/-- Whether what the design pushes at a port is discarded: after the TICK pulse with which the sagger left its graph (R320, R321). -/
def State.muted (s : State) (g p : Nat) : Bool := (s.sag g).mute && !s.pulseWaits g (s.portNet g (16 + p))

/-- PUSH (R313, R314): dropped where the port shows FULL, which follows from what it holds (`_full` is what the design has read there, and decides
nothing); on an unbound port the word is accepted and discarded. -/
def execPush (g p : Nat) (w : Word) (_full : Bool) (s : State) : Result :=
  .next (s.onlyIf (s.hasSagger g && decide (p < 16) && s.designRuns g && !s.muted g p)
    (if s.outFull g p then s.dropPush g p 32 6
     else
       let x := s.sag g
       let n := FMap.get (fun _ => 0) x.pushed p
       let t := s.setSag g { x with pushed := FMap.set (fun _ => 0) x.pushed p (n + 1) }
       (t.streamsFrom (0x6000 + g) (16 + p)).foldl (fun t e => t.pushTo g p n w e) t))

/-- Whether what the design does reaches event lines and trigger outputs: from RELEASE_OUT on, while its clocks run (R357, R359). -/
def State.outLive (s : State) (g : Nat) : Bool := (s.fired g || (s.sag g).released.contains 1) && !s.boot.hold && !s.boot.trip

/-- EVENT_LINE_RISE (R318): one event per line and tick; further rises are counted into the next record. -/
def execEventLineRise (g i d : Nat) (s : State) : Result :=
  .next (s.onlyIf (s.hasSagger g && decide (i < 4) && s.outLive g && bitOf (s.fld (sagEvt g) sagEvt_EN) i == 1)
    (let x := s.sag g
     let n := FMap.get (fun _ => 0) x.rises i
     if x.lines.contains i then s.setSag g { x with rises := FMap.set (fun _ => 0) x.rises i (min 255 (n + 1)) }
     else (s.setSag g { x with lines := i :: x.lines, rises := FMap.set (fun _ => 0) x.rises i 0 }).raise (744 + g) 7
       [i, d % 0x10000, n]))

/-! ### Restart (R310, R311, R320, R321) -/

/-- A sagger restarted at this boundary: initial values, hold on every net that runs, FIFOs emptied. -/
def State.restartSagger (s : State) (g : Nat) : State :=
  let x := s.sag g
  let lost := x.fifo.foldl (fun n q => n + q.2.length) 0
  let held := (List.range 4).filter (fun j => !s.netDead g j)
  let t := s.setReg (inLost g) (s.reg (inLost g) + BitVec.ofNat 32 lost)
  let t := t.setSag g { x with restart := false, held := held, heldAt := s.time.now, heldEdges := x.edges, fifo := [], popped := [], pkt := [], ff := [], rr := [], ram := [] }
  if held.isEmpty then t.raise (744 + g) 8 else t

/-- Whether 16 edges of a net have come since the restart (R311); of one that has gone low since, the command says it. -/
def State.holdOver (s : State) (g net : Nat) : Bool :=
  s.netDead g net || (if s.coherent g net then decide ((s.sag g).heldAt + 8 * netPeriod (s.netSource g net) ≤ s.time.now)
    else decide (FMap.get (fun _ => 0) (s.sag g).heldEdges net + 16 ≤ s.edgeCount g net))

/-- RESTART_HOLD_RELEASE (R311): the 16th edge of a net. -/
def execRestartHoldRelease (g net : Nat) (s : State) : Result :=
  .next (s.onlyIf (s.hasSagger g && s.designRuns g && (s.sag g).held.contains net && s.holdOver g net)
    (let x := s.sag g
     let h := x.held.filter (· != net)
     let t := s.setSag g { x with held := h }
     if h.isEmpty then t.raise (744 + g) 8 else t))

/-- A sagger at a boundary, while the time still reads the tick before: the TICK pulse of its coherent nets; that of another net will
follow on its third edge, unless one still waits (R309). -/
def State.saggerPulse (s : State) (g : Nat) : State :=
  let t := s.portPulse g ((List.range 4).filter (s.coherent g))
  foldBelow (fun j t =>
    if t.coherent g j || t.pulseWaits g j then t
    else
      let x := t.sag g
      t.setSag g { x with late := FMap.set (fun _ => 0) x.late j (t.edgeCount g j + 3), shown := FMap.set (fun _ => 0) x.shown j t.time.tick }) 4 t

/-- The trigger inputs whose source changes at this boundary (R317): sagger and input. -/
def State.trigChanges (s : State) : List (Nat × Nat) :=
  (List.range s.part.saggers).flatMap (fun g => ((List.range 32).filter (fun i =>
    s.cur (trigSel g i) trigSel_SRC != s.fld (trigSel g i) trigSel_SRC)).map (fun i => (g, i)))

/-- Trigger inputs read 0 for the first two edges of their clock (R317). -/
def State.maskTriggers (s : State) (l : List (Nat × Nat)) : State :=
  l.foldl (fun t x => t.setSag x.1 { t.sag x.1 with tiMask := FMap.set (fun _ => 0) (t.sag x.1).tiMask x.2 2 }) s

/-- A sagger that was switched out or stopped, at its last boundary: restarted, FIRED, unowned (R320, R321). -/
def State.retireSagger (s : State) (g : Nat) : State :=
  let t := s.restartSagger g
  let t := t.setSag g { t.sag g with leave := none, mute := false }
  (t.setSaggerState g 3).setOwner saggerOwner g 15

/-- Step 3 for the saggers' own requests: restarts that were written, and departures that fall due. -/
def State.saggerStep (s : State) : State :=
  foldBelow (fun g t =>
    let x := t.sag g
    if x.leave.any (fun b => decide (b ≤ t.time.bounds)) then t.retireSagger g
    else if x.restart ∧ t.fired g then t.restartSagger g else t) s.part.saggers s

/-- A FABRIC element comes into force on sagger `g` at this boundary (R320). -/
def State.placeSagger (s : State) (g fn : Nat) : State :=
  let t := (s.setSaggerState g 4).setOwner saggerOwner g (fn + 1)
  (t.setSag g { t.sag g with mute := false, leave := none }).restartSagger g

/-- A FABRIC element leaves sagger `g` at this boundary, which keeps its clocks for `n` more (R320, R321). -/
def State.leaveSagger (s : State) (g n : Nat) : State := s.setSag g { s.sag g with mute := true, leave := some (s.time.bounds + n) }

/-- A sagger switched out at this boundary: its armed capture is aborted, and it restarts one boundary later (R320, R327). -/
def State.switchOut (s : State) (g : Nat) : State := (s.abortCapture g).leaveSagger g 1

/-! ### Fabric PLLs and power (R296, R308) -/

/-- Whether a sagger's design is starting up and has found its fabric PLLs locked (R357, R361). -/
def State.pastLock (s : State) (g : Nat) : Bool :=
  s.saggerState g == 2 && s.loader.load.any (fun l => l.hdr.any (fun h => h.kind == 3 && h.region == g + 1) && !l.steps.contains 0)

/-- The saggers whose design takes a clock from fabric PLL `p`. -/
def State.usersOfPll (s : State) (p : Nat) : List Nat :=
  (List.range s.part.saggers).filter (fun g => (s.fired g || s.pastLock g) && (List.range 4).any (fun j => s.netSource g j == 4 + p))

/-- FABRIC_PLL_UNLOCK (R308, R327): the nets it feeds are held low. -/
def execFabricPllUnlock (p : Nat) (s : State) : Result :=
  .next (s.onlyIf (decide (p < 2) && s.fpllLocked p)
    ((s.usersOfPll p).foldl (fun t g =>
      let t := t.raise (744 + g) 9
      if t.netSource g (t.capNet g) = 4 + p then t.abortCapture g else t)
      (s.setFld (fpllStatus p) fpllStatus_LOCK 0)))

/-- FABRIC_PLL_RELOCK (R308). -/
def execFabricPllRelock (p : Nat) (s : State) : Result :=
  .next (s.onlyIf (decide (p < 2) && decide (s.fld (fpllStatus p) fpllStatus_FREQ ≠ 0))
    (s.setFld (fpllStatus p) fpllStatus_LOCK 1))

/-- A sagger whose domain powers down is OFF, and its cells are lost (R296). -/
def State.darkSagger (s : State) (g : Nat) : State :=
  let t := { s with loader := { s.loader with cells := s.loader.cells.filter (fun c => c.1 / 0x80000 != g + 1) } }
  let t := t.setSag g { t.sag g with ff := [], rr := [], ram := [] }
  ((t.setSaggerState g 0).powerSagger g false).abortCapture g

/-- SAGGER[s].STATE as read: an absent sagger reads ABSENT (R4). -/
def State.sagStateWord (s : State) (g : Nat) : Word := if s.hasSagger g then s.reg (sagState g) else 7

/-- A write to SAGGER[g], `x` bytes into its block (R316, R329). -/
def State.writeSagger (s : State) (f g x : Nat) (v : Word) : State :=
  let off := 0x510000 + 0x1000 * g + x
  let mine (t : State) : State := s.allowed (s.maySag f g) f off v t
  if x = 0 then mine (s.writeReg off sagStateDesc v)
  else if x = 0xC then s.writeSagCmd f g v
  else if x = 0x10 then mine (s.writeReg off capCtrlDesc v)
  else if x = 0x14 then mine (s.writeReg off capTickLoDesc v)
  else if x = 0x18 then mine (s.writeReg off capTickHiDesc v)
  else if x = 0x1C then mine (s.writeReg off capStatusDesc v)
  else if x = 0x20 then mine (s.writeReg off capAddrDesc v)
  else if x = 0x30 then mine (s.writeReg off sagPortDesc v)
  else if x = 0x34 then mine (s.writeReg off sagEvtDesc v)
  else if 0x80 ≤ x ∧ x < 0x100 then
    mine (if s.trigSourceOk (f + 1) (trigSel_SRC.get v) then s.writeReg off trigSelDesc v
      else (s.setFlag (sagState g) sagState_TRIG_REFUSED).raise (744 + g) 0xA)
  else s

end Sys2Proof.Machine
end

