-- ==== Sys2Proof/Machine/Pins.lean ====
section
/-! DEFINITION. Pins, multiplexing, GPIO, the hard peripherals and the trigger logic (16_pins_and_gpio.md, R480–R509). -/

namespace Sys2Proof.Machine

open Regs

/-! ### Conflicts (R490) -/

/-- The other pins in conflict with a pin (R490). -/
def State.rivals (s : State) (p : Nat) : List Nat :=
  match s.inputOf p with
  | none => []
  | some fn => (s.selectors fn).filter (· != p)

/-- CONFLICT of every pin set as the functions in force make it. -/
def State.markConflicts (s : State) : State :=
  foldBelow (fun p t =>
    let c := flag (!(s.rivals p).isEmpty)
    let off := pinCfg (p / 32) (p % 32)
    if t.fld off pinCfg_CONFLICT = c then t else t.setFld off pinCfg_CONFLICT c) 448 s

/-- Pin trigger inputs that no pin feeds return to 0 (R489). -/
def State.dropPti (s : State) : State :=
  foldBelow (fun k t =>
    let F : Fld := ⟨16 + k, 16 + k⟩
    if (s.feeder (5, k, 0)).isNone && t.fld trigLevel F == 1 then t.setFld trigLevel F 0 else t) 16 s

/-! ### Serial units: pace (R498) -/

/-- An empty transmit queue. -/
def noTx : TxQueue := ⟨[], 0, 0⟩

/-- Words that may be sent enter the shift register one after another, each taking `dur` periods. -/
def paceFrom (now dur : Nat) : Nat → List (Nat × Option Nat) → List (Nat × Option Nat)
  | _, [] => []
  | at_, (w, _) :: rest => (w, some (max now at_)) :: paceFrom now dur (max now at_ + dur) rest

/-- A transmit queue at `now`: what has entered the shift register leaves it, and the rest waits its turn, or for leave to send. -/
def TxQueue.pace (x : TxQueue) (now dur : Nat) (go : Bool) : TxQueue :=
  let gone := x.queue.filter (fun e => e.2.any (fun a => decide (a ≤ now)))
  let last := gone.foldl (fun l e => max l (e.2.getD 0 + dur)) x.last
  let rest := x.queue.filter (fun e => !e.2.any (fun a => decide (a ≤ now)))
  let sent := x.sent + gone.length
  if go then
    let q := paceFrom now dur last rest
    let now1 := q.filter (fun e => e.2 == some now)
    ⟨q.filter (fun e => e.2 != some now), if now1.isEmpty then last else now + dur, sent + now1.length⟩
  else ⟨rest.map (fun e => (e.1, none)), last, sent⟩

/-- SPI `u`'s transmit queue. -/
def State.spiTxOf (s : State) (u : Nat) : TxQueue := FMap.get (fun _ => noTx) s.pins.spiTx u

/-- SPI `u`'s receive FIFO. -/
def State.spiRxOf (s : State) (u : Nat) : List Nat := FMap.get (fun _ => []) s.pins.spiRx u

/-- SPI `u`'s transmit queue replaced. -/
def State.setSpiTx (s : State) (u : Nat) (x : TxQueue) : State :=
  { s with pins := { s.pins with spiTx := FMap.set (fun _ => noTx) s.pins.spiTx u x } }

/-- SPI `u`'s receive FIFO replaced. -/
def State.setSpiRx (s : State) (u : Nat) (x : List Nat) : State :=
  { s with pins := { s.pins with spiRx := FMap.set (fun _ => []) s.pins.spiRx u x } }

/-- Word length of SPI `u`, and the periods that a word takes. -/
def State.spiBits (s : State) (u : Nat) : Nat := s.fld (spiCtrl u) spiCtrl_BITS + 1
/-- The periods of 500 ps that a word of SPI `u` takes. -/
def State.spiDur (s : State) (u : Nat) : Nat := s.spiBits u * 20 * (s.fld (spiCtrl u) spiCtrl_DIV + 1)

/-- SPI `u`'s transmit queue as of now. -/
def State.spiNow (s : State) (u : Nat) : TxQueue := (s.spiTxOf u).pace s.time.now (s.spiDur u) (s.bit (spiCtrl u) spiCtrl_EN)

/-- STATUS of SPI `u` as read. -/
def State.spiStatusWord (s : State) (u : Nat) : Word :=
  spiStatus_TXL.put (spiStatus_RXL.put (s.reg (spiStatus u)) (s.spiRxOf u).length) (s.spiNow u).queue.length

/-- UART `u`'s transmit queue. -/
def State.uartTxOf (s : State) (u : Nat) : TxQueue := FMap.get (fun _ => noTx) s.pins.uartTx u

/-- UART `u`'s receive FIFO. -/
def State.uartRxOf (s : State) (u : Nat) : List Byte := FMap.get (fun _ => []) s.pins.uartRx u

/-- UART `u`'s transmit queue replaced. -/
def State.setUartTx (s : State) (u : Nat) (x : TxQueue) : State :=
  { s with pins := { s.pins with uartTx := FMap.set (fun _ => noTx) s.pins.uartTx u x } }

/-- UART `u`'s receive FIFO replaced. -/
def State.setUartRx (s : State) (u : Nat) (x : List Byte) : State :=
  { s with pins := { s.pins with uartRx := FMap.set (fun _ => []) s.pins.uartRx u x } }

/-- The periods of 500 ps that a character of UART `u` takes: start, data, parity and stop bits at DIV pin clocks each. -/
def State.uartDur (s : State) (u : Nat) : Nat :=
  let w := s.reg (uartCtrl u)
  (1 + (8 - uartCtrl_BITS7.get w) + (if uartCtrl_PARITY.get w = 0 then 0 else 1) + 1 + uartCtrl_STOP2.get w)
    * uartCtrl_DIV.get w * 10

/-- Whether UART `u` may send: enabled, and clear to send where it minds CTS_N. -/
def State.uartGo (s : State) (u : Nat) : Bool :=
  s.bit (uartCtrl u) uartCtrl_EN && !(s.bit (uartCtrl u) uartCtrl_RTSCTS && s.inputLevel (3, u, 3) false)

/-- UART `u`'s transmit queue as of now. -/
def State.uartNow (s : State) (u : Nat) : TxQueue := (s.uartTxOf u).pace s.time.now (s.uartDur u) (s.uartGo u)

/-- STATUS of UART `u` as read. -/
def State.uartStatusWord (s : State) (u : Nat) : Word :=
  uartStatus_TXL.put (uartStatus_RXL.put (s.reg (uartStatus u)) (s.uartRxOf u).length) (s.uartNow u).queue.length

/-- The serial units brought up to now: done before anything that changes their pace. -/
def State.paceAll (s : State) : State :=
  foldBelow (fun u t => t.setUartTx u (t.uartNow u)) 2 (foldBelow (fun u t => t.setSpiTx u (t.spiNow u)) 4 s)

/-! ### Events of the peripherals (R497) -/

/-- Whether a pin's function in force is a signal of the unit: kinds 1 SPI, 2 I²C, 3 UART, 4 timer. -/
def State.carries (s : State) (kind u p : Nat) : Bool :=
  s.pinAlt p == kind && (match kind with
    | 1 => p / 32 % 4 == u && p % 8 != 7
    | 2 => p / 32 % 4 == u
    | 3 => p / 32 % 2 == u
    | _ => p % 32 % 16 == u)

/-- An event of a peripheral: on the lowest-numbered pin that carries one of its signals, or none (R497). -/
def State.unitEvent (s : State) (kind u reason : Nat) (args : List Nat) : State :=
  match lowest 448 (s.carries kind u) with
  | some p => s.raise p reason args
  | none => s

/-! ### Pin interrupts (R494, R495) -/

/-- IRQ_STAT of a pin set, and PIN_IRQ raised once per tick (R495). -/
def State.setIrq (s : State) (p : Nat) : State :=
  let t := s.setFlag (irqStat (p / 32)) ⟨p % 32, p % 32⟩
  let more := FMap.get (fun _ => 0) t.pins.more p
  if t.padCfg p pinCfg_IE = 0 then t
  else if t.pins.said.contains p then
    { t with pins := { t.pins with more := FMap.set (fun _ => 0) t.pins.more p (min 255 (more + 1)) } }
  else
    { t.raise p 1 [more] with pins := { t.pins with said := p :: t.pins.said, more := FMap.set (fun _ => 0) t.pins.more p 0 } }

/-- A level condition that holds sets a bit that is clear (R495). -/
def State.holdIrq (s : State) (p : Nat) : State :=
  let c := s.padCfg p pinCfg_IRQ
  let clear := s.fld (irqStat (p / 32)) ⟨p % 32, p % 32⟩ == 0
  if s.pinLive p && clear && ((c == 4 && s.pinLevel p) || (c == 5 && !s.pinLevel p)) then s.setIrq p else s

/-- The level conditions of pins are looked at again at the next pin-clock edge (R492, R495). -/
def State.rearmPins (s : State) (ps : List Nat) : State :=
  { s with pins := { s.pins with rearm := (s.pins.rearm ++ ps).eraseDups, rearmAt := s.nextPinEdge } }

/-- What the pins do at the present instant (R495): at its edge, a level that still holds sets a bit that was cleared. -/
def State.pinInstant (s : State) : State :=
  if s.pins.rearm.isEmpty || decide (s.time.now < s.pins.rearmAt) then s
  else s.pins.rearm.foldl (fun t p => t.holdIrq p) { s with pins := { s.pins with rearm := [] } }

/-- Time passed to the next sub-tick period, with the edges of the saggers and of the pin clock that fall there. -/
def State.passPeriod (s : State) : State := s.passTime.pinInstant

/-- Time passed to just before an instant, to which it goes on at once: an edge of the pin clock on the way that anything waits for, and the
edges of the saggers. -/
def State.passUntil (s : State) (at_ : Nat) : State :=
  let a := s.pins.rearmAt
  if s.pins.rearm.isEmpty || decide (at_ ≤ a) then s.fabricUntil at_
  else
    let t := s.fabricUntil a
    let d := a - t.time.now
    ({ t with time := { t.time with now := t.time.now + d, sub := if t.ticking then t.time.sub + d else t.time.sub } }.fabricInstant.pinInstant).fabricUntil
      at_

/-- The timestamp `n` periods before now: tick and sub-tick. -/
def State.stampBefore (s : State) (n : Nat) : Nat × Nat :=
  if n ≤ s.time.sub then (s.time.tick, s.time.sub - n)
  else
    let back := (n - s.time.sub + s.tickLength - 1) / max 1 s.tickLength
    ((s.time.tick + 0x10000000000000000 - back) % 0x10000000000000000, back * s.tickLength + s.time.sub - n)

/-- An accepted edge reaches timer channel `n` in CAPTURE mode (R499): the timestamp of the first sample of the new level. -/
def State.tmrCapture (s : State) (n : Nat) (l : Bool) (back : Nat) : State :=
  let e := s.fld (tmrCtrl n) tmrCtrl_EDGE
  if !s.bit (tmrCtrl n) tmrCtrl_EN || s.tmrMode n != 1 || !(if l then e == 0 || e == 2 else e == 1 || e == 2) then s
  else if s.bit (tmrStatus n) tmrStatus_CAP then s.setFlag (tmrStatus n) tmrStatus_MISSED
  else
    let (k, u) := s.stampBefore back
    let t := (s.setPair (tmrCapTickLo n) (tmrCapTickHi n) k).setReg (tmrCapSub n) (BitVec.ofNat 32 u)
    (t.setFlag (tmrStatus n) tmrStatus_CAP).unitEvent 4 n 0x15 [n, k % 0x100000000, u]

/-- A rise of pin 28s in fabric clock mode (ALT11) without a debounce filter is an edge of EXT in sagger s (R307). -/
def State.extEdge (s : State) (p : Nat) : State :=
  let g := p / 28
  if p % 28 ≠ 0 ∨ FMap.get (fun _ => 0) s.pins.alt p % 16 ≠ 11 ∨ !s.hasSagger g ∨ s.debounce p ≠ 0 then s
  else s.edgesOf g ((List.range 4).filter (fun j => s.netSource g j == 6 && !s.netDead g j))

/-- A new level accepted on a pin whose input works (R307, R494, R495, R499). -/
def State.acceptLevel (s : State) (p : Nat) (l : Bool) : State :=
  let was := s.pinLevel p
  let s := s.paceAll
  let t := { s with pins := { s.pins with level := FMap.set (fun _ => false) s.pins.level p l } }
  let t := t.paceAll
  if was = l then t
  else
    let t := if l then t.extEdge p else t
    let c := t.padCfg p pinCfg_IRQ
    let t := if (c = 1 ∧ l) ∨ (c = 2 ∧ !l) ∨ c = 3 then t.setIrq p else t.holdIrq p
    match t.inputOf p with
    | some (4, n, _) => if t.feeder (4, n, 0) = some p then t.tmrCapture n l (t.debounce p) else t
    | _ => t

/-- DEBOUNCE_ACCEPT (R494). -/
def execDebounceAccept (p : Nat) (l : Bool) (s : State) : Result :=
  .next (s.onlyIf (decide (p < 448) && s.pinLive p) (s.acceptLevel p l))

/-! ### Function switches (R491–R493) -/

/-- Edge 1 of a switch: the output drops and the pending interrupt is cleared. -/
def State.switchEdge1 (s : State) (p : Nat) (x : Switch) : State :=
  if x.dropped then s
  else ((s.setFld (irqStat (p / 32)) ⟨p % 32, p % 32⟩ 0).setSwitch p (some { x with dropped := true })).dropPti

/-- Edge 2 of a switch: the new function takes the pin (R491); a park state ends where the pin leaves the fabric (R493); an
injected conversion that waits for the pin is aborted where it leaves analogue mode (R122); conflicts begin and end (R490). -/
def State.switchEdge2 (s : State) (p : Nat) : State :=
  let w := s.reg (pinCfg (p / 32) (p % 32))
  let alt := pinCfg_ALT.get w
  let was := s.pinAnalog p
  let s := s.paceAll
  let t := (s.setSwitch p none).setPinAlt p alt (pinCfg_ANALOG.get w == 1)
  let t := (t.markConflicts).dropPti
  let q := (p - 24) / 28
  let j := (p - 24) % 28
  let t := if was ∧ pinCfg_ANALOG.get w = 0 ∧ 24 ≤ p ∧ j < 4 then t.injAbort q (fun r => r.mon == 8 + j) else t
  let t := t.paceAll
  match t.rivals p with
  | [] => t
  | o :: _ => t.raise p 2 [o * 0x10000 + p, alt]

/-- PIN_FUNCTION_SWITCH (R491, R492): edge 1, and then edge 2, of the switch that is in progress on a pin. -/
def execPinFunctionSwitch (p : Nat) (s : State) : Result :=
  .next (match s.switchOf p with
    | none => s
    | some x =>
      if s.time.now < x.edge1 then s
      else
        let t := s.switchEdge1 p x
        if s.time.now < x.edge2 then t else t.switchEdge2 p)

/-- A function switch begins (R491); one that is not complete begins anew, its output still disabled (R492). -/
def State.beginSwitch (s : State) (p : Nat) : State :=
  let e := s.nextPinEdge
  let old := s.switchOf p
  let e1 := (old.map (fun x => min x.edge1 e)).getD e
  s.setSwitch p (some ⟨e1, e + 10, (old.map (·.dropped)).getD false⟩)

/-! ### Writes of a bank (R482–R484) -/

/-- The pins of a bank that a function may write, as a mask (R467, R483). -/
def State.bankMask (s : State) (f b : Nat) : Word :=
  (List.range 32).foldl (fun m i => if ownerMay f (s.ownPin (32 * b + i)) then m ||| BitVec.ofNat 32 (2 ^ i) else m) 0

/-- Whether R482 refuses a value for a pin. -/
def badPinCfg (p : Nat) (v : Word) : Bool :=
  let alt := pinCfg_ALT.get v
  decide (12 ≤ alt ∨ (alt = 11 ∧ p % 28 ≠ 0) ∨ (alt = 1 ∧ p % 8 = 7) ∨ 6 ≤ pinCfg_IRQ.get v)

/-- A write of PIN_CFG (R482, R491, R492). -/
def State.writePinCfg (s : State) (f p : Nat) (v : Word) : State :=
  let off := pinCfg (p / 32) (p % 32)
  s.allowed (ownerMay f (s.ownPin p)) f off v
    (if badPinCfg p v then (s.setFlag off pinCfg_REFUSED).raise p 3 [v.toNat]
     else
       let t := (s.holdPads off).writeReg off pinCfgDesc v
       if s.fld off pinCfg_ALT ≠ t.fld off pinCfg_ALT ∨ s.fld off pinCfg_ANALOG ≠ t.fld off pinCfg_ANALOG then t.beginSwitch p
       else t.rearmPins [p])

/-- A write to GPIO[b], `x` bytes into it, merged per pin (R483). -/
def State.writeBank (s : State) (f b x : Nat) (v : Word) : State :=
  let off := 0x600000 + 0x1000 * b + x
  let m := s.bankMask f b
  let old := s.reg (dataOut b)
  let mine (t : State) : State := s.allowed (m != 0) f off v t
  if x = 0 then mine ((s.holdPads (dataOut b)).setReg (dataOut b) ((old &&& ~~~ m) ||| (v &&& m)))
  else if x = 4 then mine ((s.holdPads (dataOut b)).setReg (dataOut b) (old ||| (v &&& m)))
  else if x = 8 then mine ((s.holdPads (dataOut b)).setReg (dataOut b) (old &&& ~~~ (v &&& m)))
  else if x = 0xC then mine ((s.holdPads (dir b)).setReg (dir b) ((s.reg (dir b) &&& ~~~ m) ||| (v &&& m)))
  else if x = 0x14 then
    mine ((s.setReg (irqStat b) (s.reg (irqStat b) &&& ~~~ (v &&& m &&& ~~~ s.justSet (irqStat b)))).rearmPins
      (((List.range 32).filter (fun i => bitOf (v &&& m).toNat i == 1)).map (32 * b + ·)))
  else if x = 0x18 then mine (s.writeReg (bankCtrl b) bankCtrlDesc v)
  else if 0x80 ≤ x ∧ x < 0x100 then s.writePinCfg f (32 * b + (x - 0x80) / 4) v
  else s

/-- DATA_SET (R483). -/
def execDataSet (f b : Nat) (v : Word) (s : State) : Result := s.hostWrite (s.onlyIf (decide (b < 14)) (s.writeBank f b 4 v))

/-- DATA_CLR (R483). -/
def execDataClr (f b : Nat) (v : Word) (s : State) : Result := s.hostWrite (s.onlyIf (decide (b < 14)) (s.writeBank f b 8 v))

/-- GPIO_BANK_WRITE (R483): a write of DATA_OUT, DIR or IRQ_STAT at BAR0 offset `a`. -/
def execGpioBankWrite (f a : Nat) (v : Word) (s : State) : Result :=
  let x := (a - 0x600000) % 0x1000
  s.hostWrite (s.onlyIf (decide (0x600000 ≤ a ∧ a < 0x60E000) && [0, 0xC, 0x14].contains x)
    (s.writeBank f ((a - 0x600000) / 0x1000) x v))

/-- DATA_IN as read, of the pad levels that the bank shows (R486–R488). -/
def State.dataInWord (s : State) (b : Nat) (pads : Word) : Word :=
  if !s.bankOk b then 0
  else (List.range 32).foldl (fun m i =>
    if bitOf pads.toNat i = 1 ∧ !s.pinAnalog (32 * b + i) then m ||| BitVec.ofNat 32 (2 ^ i) else m) 0

/-! ### Bank supplies (R488) -/

/-- VCCIO_LOW (R488). -/
def execVccioLow (b : Nat) (s : State) : Result :=
  .next (s.onlyIf (decide (b < 14)) (let s := s.paceAll
                                     ((s.setFld (bankStatus b) bankStatus_VCCIO_OK 0).dropPti).paceAll))

/-- VCCIO_OK (R488). -/
def execVccioOk (b : Nat) (s : State) : Result :=
  .next (s.onlyIf (decide (b < 14)) (let s := s.paceAll
                                     (s.setFld (bankStatus b) bankStatus_VCCIO_OK 1).paceAll))

/-! ### Hard peripherals (R496–R500, R509) -/

/-- SPI_TXDATA (R498). -/
def State.writeSpiTx (s : State) (f u : Nat) (v : Word) : State :=
  s.allowed (f == 0) f (spiTx u) v
    (let x := s.spiNow u
     let t := s.setSpiTx u x
     if 16 ≤ x.queue.length then t.setFlag (spiStatus u) spiStatus_OVF
     else
       let y : TxQueue := { x with queue := x.queue ++ [(v.toNat % 2 ^ s.spiBits u, none)] }
       let t := t.setSpiTx u (y.pace s.time.now (s.spiDur u) (s.bit (spiCtrl u) spiCtrl_EN))
       if s.bit (spiCtrl u) spiCtrl_EN then t.setFld (spiStatus u) spiStatus_BUSY 1 else t)

/-- SPI_TXDATA (R498). -/
def execSpiTxdata (f u : Nat) (v : Word) (s : State) : Result := s.hostWrite (s.onlyIf (decide (u < 4)) (s.writeSpiTx f u v))

/-- A read of RXDATA (R509, R543): the oldest word leaves the FIFO; an empty one reads 0. -/
def State.readSpiRx (s : State) (f u : Nat) : State :=
  (s.setSpiRx u (s.spiRxOf u).tail).emit (.readData f (BitVec.ofNat 32 ((s.spiRxOf u).headD 0)))

/-- SPI_RXDATA_READ (R543). -/
def execSpiRxdataRead (f u : Nat) (s : State) : Result :=
  s.hostRead f (if u < 4 then s.readSpiRx f u else s.emit (.readData f 0))

/-- A word received: a full FIFO drops it. -/
def State.spiReceive (s : State) (u w : Nat) : State :=
  if 16 ≤ (s.spiRxOf u).length then s.setFlag (spiStatus u) spiStatus_OVF else s.setSpiRx u (s.spiRxOf u ++ [w])

/-- SPI_DONE (R498, R506): every queued word has been sent; `rx` are the words that MISO showed meanwhile. -/
def execSpiDone (u : Nat) (rx : List Word) (s : State) : Result :=
  .next (s.onlyIf (decide (u < 4) && s.bit (spiStatus u) spiStatus_BUSY)
    (let x := s.spiNow u
     if !x.queue.isEmpty || decide (s.time.now < x.last) then s
     else
       let t := s.setSpiTx u { x with sent := 0 }
       let t := (List.range x.sent).foldl (fun t i => t.spiReceive u ((rx.getD i 0).toNat % 2 ^ s.spiBits u)) t
       ((t.setFld (spiStatus u) spiStatus_BUSY 0).setFlag (spiStatus u) spiStatus_DONE).unitEvent 1 u 0x10 [u]))

/-- I2C `u`. -/
def State.i2cOf (s : State) (u : Nat) : I2cSt := FMap.get (fun _ => ⟨[], [], none⟩) s.pins.i2c u

/-- I2C `u` replaced. -/
def State.setI2c (s : State) (u : Nat) (x : I2cSt) : State :=
  { s with pins := { s.pins with i2c := FMap.set (fun _ => ⟨[], [], none⟩) s.pins.i2c u x } }

/-- STATUS of I2C `u` as read: LEVEL counts what the FIFOs hold. -/
def State.i2cStatusWord (s : State) (u : Nat) : Word :=
  i2cStatus_LEVEL.put (s.reg (i2cStatus u)) ((s.i2cOf u).tx.length + (s.i2cOf u).rx.length)

/-- A write of CMD (R509): a transaction starts, unless the unit is off or busy or COUNT is above 16 (DESIGN CHOICE, log entry 30). -/
def State.writeI2cCmd (s : State) (f u : Nat) (v : Word) : State :=
  s.allowed (f == 0) f (i2cCmd u) v
    (if !s.bit (i2cCtrl u) i2cCtrl_EN || s.bit (i2cStatus u) i2cStatus_BUSY || decide (16 < i2cCmd_COUNT.get v) then s
     else (s.setI2c u { s.i2cOf u with cmd := some v }).setFld (i2cStatus u) i2cStatus_BUSY 1)

/-- I2C_CMD (R509). -/
def execI2cCmd (f u : Nat) (v : Word) (s : State) : Result := s.hostWrite (s.onlyIf (decide (u < 4)) (s.writeI2cCmd f u v))

/-- A write of DATA (R509): a byte for the transmit FIFO; a full one drops it. -/
def State.writeI2cData (s : State) (f u : Nat) (v : Word) : State :=
  s.allowed (f == 0) f (i2cData u) v
    (let x := s.i2cOf u
     if 16 ≤ x.tx.length then s else s.setI2c u { x with tx := x.tx ++ [BitVec.ofNat 8 v.toNat] })

/-- I2C_DATA_WRITE (R509). -/
def execI2cDataWrite (f u : Nat) (v : Word) (s : State) : Result :=
  s.hostWrite (s.onlyIf (decide (u < 4)) (s.writeI2cData f u v))

/-- A read of DATA (R509, R543). -/
def State.readI2c (s : State) (f u : Nat) : State :=
  let x := s.i2cOf u
  (s.setI2c u { x with rx := x.rx.tail }).emit (.readData f (BitVec.ofNat 32 (x.rx.headD 0).toNat))

/-- I2C_DATA_READ (R543). -/
def execI2cDataRead (f u : Nat) (s : State) : Result :=
  s.hostRead f (if u < 4 then s.readI2c f u else s.emit (.readData f 0))

/-- I2C_DONE (R506): a command completes; `rx` are the bytes that a READ received. -/
def execI2cDone (u : Nat) (rx : List Byte) (s : State) : Result :=
  .next (match (s.i2cOf u).cmd with
    | none => s
    | some v =>
      let x := s.i2cOf u
      let n := i2cCmd_COUNT.get v
      let y : I2cSt := if i2cCmd_READ.get v = 1 then { x with rx := (x.rx ++ rx.take n).take 16, cmd := none }
        else { x with tx := x.tx.drop n, cmd := none }
      (((s.setI2c u y).setFld (i2cStatus u) i2cStatus_BUSY 0).setFlag (i2cStatus u) i2cStatus_DONE).unitEvent 2 u 0x11 [u])

/-- I2C_ERROR (R506): a NACK, or a loss of arbitration, ends a transaction. -/
def execI2cError (u : Nat) (arb : Bool) (s : State) : Result :=
  .next (match (s.i2cOf u).cmd with
    | none => s
    | some _ =>
      let t := (s.setI2c u { s.i2cOf u with cmd := none }).setFld (i2cStatus u) i2cStatus_BUSY 0
      let t := t.setFlag (i2cStatus u) (if arb then i2cStatus_ARB_LOST else i2cStatus_NACK)
      t.unitEvent 2 u 0x12 [u, (t.i2cStatusWord u).toNat])

/-- A write of UART TXDATA (R498). -/
def State.writeUartTx (s : State) (f u : Nat) (v : Word) : State :=
  s.allowed (f == 0) f (uartTx u) v
    (let x := s.uartNow u
     let t := s.setUartTx u x
     if 16 ≤ x.queue.length then (t.setFlag (uartStatus u) uartStatus_OVF)
     else
       let y : TxQueue := { x with queue := x.queue ++ [(v.toNat % 256, none)] }
       t.setUartTx u (y.pace s.time.now (s.uartDur u) (s.uartGo u)))

/-- UART_TXDATA (R498). -/
def execUartTxdata (f u : Nat) (v : Word) (s : State) : Result := s.hostWrite (s.onlyIf (decide (u < 2)) (s.writeUartTx f u v))

/-- A read of UART RXDATA (R509, R543): VALID and the oldest byte, or 0. -/
def State.readUartRx (s : State) (f u : Nat) : State :=
  match s.uartRxOf u with
  | [] => s.emit (.readData f 0)
  | b :: rest => (s.setUartRx u rest).emit (.readData f (BitVec.ofNat 32 (0x100 + b.toNat)))

/-- UART_RXDATA_READ (R543). -/
def execUartRxdataRead (f u : Nat) (s : State) : Result :=
  s.hostRead f (if u < 2 then s.readUartRx f u else s.emit (.readData f 0))

/-- UART_BYTE_RECEIVED (R498, R506): framing and parity errors are flagged, a full FIFO drops the byte, and the eighth byte
raises UART_RX. -/
def execUartByteReceived (u : Nat) (b : Byte) (frameOk parityOk : Bool) (s : State) : Result :=
  .next (s.onlyIf (decide (u < 2) && s.bit (uartCtrl u) uartCtrl_EN)
    (let full := decide (16 ≤ (s.uartRxOf u).length)
     let t := if frameOk then s else s.setFlag (uartStatus u) uartStatus_FRAME
     let t := if parityOk then t else t.setFlag (uartStatus u) uartStatus_PARITY
     let t := if full then t.setFlag (uartStatus u) uartStatus_OVF
       else t.setUartRx u (s.uartRxOf u ++ [BitVec.ofNat 8 (b.toNat % 2 ^ (8 - s.fld (uartCtrl u) uartCtrl_BITS7))])
     let t := if frameOk && parityOk && !full then t
       else t.unitEvent 3 u 0x14 [u, (t.uartStatusWord u).toNat]
     if (t.uartRxOf u).length = 8 ∧ !full then t.unitEvent 3 u 0x13 [u] else t))

/-- UART_RX_IDLE (R506): 32 idle bit times with data in the FIFO. -/
def execUartRxIdle (u : Nat) (s : State) : Result :=
  .next (s.onlyIf (decide (u < 2) && !(s.uartRxOf u).isEmpty) (s.unitEvent 3 u 0x13 [u]))

/-- Whether (tick, sub-tick) `a` lies before `b`. -/
def stampBeforeStamp (a b : Nat × Nat) : Bool := decide (a.1 < b.1 ∨ (a.1 = b.1 ∧ a.2 < b.2))

/-- A write of TMR CTRL (R500): with EN it takes the compare registers, or sets LATE. -/
def State.writeTmrCtrl (s : State) (f n : Nat) (v : Word) : State :=
  s.allowed (f == 0) f (tmrCtrl n) v
    (if tmrCtrl_EDGE.get v = 3 then s
     else
       let t := (s.writeReg (tmrCtrl n) tmrCtrlDesc v).markConflicts
       let x := t.tmr n
       let t := if tmrCtrl_EN.get v = 1 ∧ 2 ≤ tmrCtrl_MODE.get v then
           let at_ := (s.pair (cmpTickLo n) (cmpTickHi n), ((s.reg (cmpSub n)).toNat + 9) / 10 * 10)
           if stampBeforeStamp at_ (s.time.tick, s.time.sub) then
             (t.setTmr n { x with armed := none }).setFlag (tmrStatus n) tmrStatus_LATE
           else t.setTmr n { x with armed := some at_ }
         else t.setTmr n ⟨none, false, none⟩
       t.dropPti)

/-- TMR_CTRL_WRITE (R500). -/
def execTmrCtrlWrite (f n : Nat) (v : Word) (s : State) : Result :=
  s.hostWrite (s.onlyIf (decide (n < 16)) (s.writeTmrCtrl f n v))

/-- TMR_COMPARE (R500): the compare instant comes; the output rises for WIDTH pin clocks or toggles. -/
def execTmrCompare (n : Nat) (s : State) : Result :=
  .next (match (s.tmr n).armed with
    | none => s
    | some at_ =>
      if 16 ≤ n ∨ stampBeforeStamp (s.time.tick, s.time.sub) at_ then s
      else
        let x := s.tmr n
        let y : TmrSt := if s.tmrMode n = 2 then
            ⟨none, true, some (s.time.now + 10 * s.fld (tmrCtrl n) tmrCtrl_WIDTH)⟩
          else ⟨none, !x.out, none⟩
        ((s.setTmr n y).setFlag (tmrStatus n) tmrStatus_CMP).unitEvent 4 n 0x16 [n])

/-- TMR_PULSE_END (R500). -/
def execTmrPulseEnd (n : Nat) (s : State) : Result :=
  .next (match (s.tmr n).pulseEnd with
    | none => s
    | some e => if s.time.now < e then s else s.setTmr n { s.tmr n with out := false, pulseEnd := none })

/-- A write to a peripheral, at BAR0 offset `off` (R496, R509): a value outside its range is refused whole. -/
def State.writePeripheral (s : State) (f off : Nat) (v : Word) : State :=
  let x := off - 0x60F000
  let mine (t : State) : State := s.allowed (f == 0) f off v t
  if x < 0x400 then
    let u := x / 0x100
    match x % 0x100 with
    | 0 => mine (if spiCtrl_DIV.get v = 0 ∨ spiCtrl_BITS.get v < 3 then s
        else
          let t := (s.setSpiTx u (s.spiNow u)).writeReg off spiCtrlDesc v
          let y := t.spiNow u
          let t := t.setSpiTx u y
          if t.bit (spiCtrl u) spiCtrl_EN && (!y.queue.isEmpty || y.sent != 0) then t.setFld (spiStatus u) spiStatus_BUSY 1 else t)
    | 4 => s.writeSpiTx f u v
    | 0xC => mine (s.writeReg off spiStatusDesc v)
    | _ => s
  else if x < 0x800 then
    let u := (x - 0x400) / 0x100
    match x % 0x100 with
    | 0 => mine (if i2cCtrl_SPEED.get v = 3 then s else s.writeReg off i2cCtrlDesc v)
    | 4 => s.writeI2cCmd f u v
    | 8 => s.writeI2cData f u v
    | 0xC => mine (s.writeReg off i2cStatusDesc v)
    | _ => s
  else if x < 0xA00 then
    let u := (x - 0x800) / 0x100
    match x % 0x100 with
    | 0 => mine (if uartCtrl_DIV.get v < 16 ∨ uartCtrl_PARITY.get v = 3 then s
        else
          let t := (s.setUartTx u (s.uartNow u)).writeReg off uartCtrlDesc v
          t.setUartTx u (t.uartNow u))
    | 4 => s.writeUartTx f u v
    | 0xC => mine (s.writeReg off uartStatusDesc v)
    | _ => s
  else
    let n := (x - 0xA00) / 0x20
    match x % 0x20 with
    | 0 => s.writeTmrCtrl f n v
    | 4 => mine (s.writeReg off cmpTickLoDesc v)
    | 8 => mine (s.writeReg off cmpTickHiDesc v)
    | 0xC => mine (s.writeReg off cmpSubDesc v)
    | 0x1C => mine (s.writeReg off tmrStatusDesc v)
    | _ => s

/-! ### Trigger logic (R501–R505, R508) -/

/-- Whether a trigger output may select a source (R502). -/
def State.outSourceOk (s : State) (c : Nat) : Bool :=
  if c < 0x80 then decide (c / 8 < s.part.quads)
  else if c < 0xD0 then decide (c - 0x80 < s.part.chains)
  else if c ≤ 0xD8 then true
  else if 0x100 ≤ c ∧ c < 0x180 then decide ((c - 0x100) / 8 < s.part.saggers)
  else decide ((0x180 ≤ c ∧ c < 0x1A0) ∨ c = 0x1FF)

/-- A write to the trigger logic, `x` bytes into it (R496, R502, R508). -/
def State.writeTrig (s : State) (f x : Nat) (v : Word) : State :=
  let off := 0x60E000 + x
  let mine (t : State) : State := s.allowed (f == 0) f off v t
  let refuse := s.setFlag trigStatus trigStatus_REFUSED
  let src := trigOut_SRC.get v
  let mode := trigOut_MODE.get v
  if x < 0x20 then
    mine (if !s.outSourceOk src || decide (0xD0 ≤ src ∧ src < 0xD8) || mode == 3 then refuse else s.writeReg off trigOutDesc v)
  else if x = 0x20 then mine (if !s.outSourceOk src || 2 ≤ mode then refuse else s.writeReg off starOutDesc v)
  else if 0x40 ≤ x ∧ x < 0x80 then mine (if !s.outSourceOk src || mode == 3 then refuse else s.writeReg off ptoDesc v)
  else if x = 0x80 then mine (s.writeReg off trigInDesc v)
  else if x = 0x88 then mine (s.writeReg off trigStatusDesc v)
  else s

/-- A line's level as the trigger logic sees it: the ball's, inverted where INV selects (R501). -/
def State.lineLevel (s : State) (i : Nat) : Bool :=
  FMap.get (fun _ => false) s.pins.lines i != (bitOf (s.cur trigIn trigIn_INV) i == 1)

/-- The ball of a line (STAR_IN is 8) takes a level. -/
def State.setLine (s : State) (i : Nat) (l : Bool) : State :=
  let t := { s with pins := { s.pins with lines := FMap.set (fun _ => false) s.pins.lines i l } }
  t.setFld trigLevel ⟨i, i⟩ (flag (t.lineLevel i))

/-- TRIGGER_LINE_EDGE (R411, R501, R505). -/
def execTriggerLineEdge (i : Nat) (l : Bool) (s : State) : Result :=
  .next (s.onlyIf (decide (i < 8))
    (let was := s.lineLevel i
     let t := s.riseTriggers (s.setLine i l) (0xD0 + i)
     let now := t.lineLevel i
     if !was && now && bitOf (t.fld trigIn trigIn_RISE_EN) i == 1 then t.raise (848 + i) 1
     else if was && !now && bitOf (t.fld trigIn trigIn_FALL_EN) i == 1 then t.raise (848 + i) 2 else t))

/-- STAR_IN_EDGE (R411, R501, R505). -/
def execStarInEdge (l : Bool) (s : State) : Result := .next (s.riseTriggers (s.setLine 8 l) 0xD8)

/-- PTI_EDGE (R502): the one pin that feeds PTI `k` changes its synchronised level. -/
def execPtiEdge (k : Nat) (l : Bool) (s : State) : Result :=
  .next (s.onlyIf (decide (k < 16) && (s.feeder (5, k, 0)).isSome) (s.setFld trigLevel ⟨16 + k, 16 + k⟩ (flag l)))

/-- SAGGER_TRIGGER_OUTPUT_EDGE (R318, R357, R359): a trigger output is held at 0 until RELEASE_OUT. -/
def execSaggerTriggerOutputEdge (g i : Nat) (l : Bool) (s : State) : Result :=
  .next (s.onlyIf (s.hasSagger g && decide (i < 8) && s.clocked && s.outLive g)
    { s with pins := { s.pins with outs := FMap.set (fun _ => false) s.pins.outs (8 * g + i) l } })

/-- Pins and trigger lines at a boundary, which is a pin-clock edge: PIN_IRQ may be said again, and a new INV comes into force (R495, R501). -/
def State.pinStep (s : State) : State :=
  let t := { s with pins := { s.pins with said := [] } }.pinInstant
  foldBelow (fun i t =>
    if t.fld trigLevel ⟨i, i⟩ = flag (t.lineLevel i) then t else t.setFld trigLevel ⟨i, i⟩ (flag (t.lineLevel i))) 9 t

/-- The streams that a new INV of a line, in force at this boundary, triggers (R411, R501); a TRIG_SRC that comes into force with it takes the level
as it stands (R594). -/
def State.lineRises (s0 s : State) : State := foldBelow (fun i t => s0.riseTriggers t (0xD0 + i)) 9 s

/-! ### What the device drives -/

/-- What the device puts on a pad or a line: nothing, a level, a keeper with the level that it keeps or with the pad's last one, a weak pull, or the waveform of a unit. -/
inductive Drive where
  | undriven | level (l : Bool) | kept (l : Bool) | keeper | weakUp | weakDown | waveform
  deriving DecidableEq, Repr

/-- The value that a trigger output drives (R503). -/
def State.trigValue (s : State) (off : Nat) : Bool := s.sourceLevel (s.cur off trigOut_SRC) != (s.cur off trigOut_INV == 1)

/-- What the device drives onto TRIG`i` (8: STAR_OUT) (R503). -/
def State.lineDrive (s : State) (i : Nat) : Drive :=
  let off := if i < 8 then trigOut i else starOut
  match s.cur off trigOut_MODE with
  | 1 => .level (s.trigValue off)
  | 2 => if s.trigValue off then .undriven else .level false
  | _ => .undriven

/-- PULL of a pin. -/
def State.pullDrive (s : State) (p : Nat) : Drive :=
  match s.padCfg p pinCfg_PULL with
  | 1 => .weakUp
  | 2 => .weakDown
  | 3 => .keeper
  | _ => .undriven

/-- What the function in force drives onto a pin (R481, R484, R498, R500, R503, R319). -/
def State.altDrive (s : State) (p : Nat) : Drive :=
  let b := p / 32
  let i := p % 32
  match s.pinAlt p with
  | 0 => if bitOf (s.padReg (dir b)).toNat i = 1 then .level (bitOf (s.padReg (dataOut b)).toNat i == 1) else s.pullDrive p
  | 1 => if i % 8 = 2 then s.pullDrive p
    else if s.bit (spiCtrl (b % 4)) spiCtrl_EN then .waveform
    else if i % 8 = 0 then .level (2 ≤ s.fld (spiCtrl (b % 4)) spiCtrl_MODE)
    else if i % 8 = 1 then .waveform else .level true
  | 2 => if s.bit (i2cCtrl (b % 4)) i2cCtrl_EN then .waveform else s.pullDrive p
  | 3 => if i % 4 = 1 ∨ i % 4 = 3 then s.pullDrive p
    else if s.bit (uartCtrl (b % 2)) uartCtrl_EN then .waveform else if i % 4 = 0 then .level true else .waveform
  | 4 => if 2 ≤ s.tmrMode (i % 16) then .level (s.tmr (i % 16)).out else s.pullDrive p
  | 5 => if i < 16 then s.pullDrive p else .level (s.trigValue (pto (i - 16)))
  | 11 => s.pullDrive p
  | _ => if s.saggerState (p / 28) = 4 ∧ s.ownSagger (p / 28) = s.ownPin p ∧ p / 28 < s.part.saggers then .waveform
         else s.pullDrive p

/-- What the device drives onto a pad (R359, R487, R488, R491, R493). -/
def State.padDrive (s : State) (p : Nat) : Drive :=
  let fabric := decide (6 ≤ s.pinAlt p ∧ s.pinAlt p ≤ 11)
  let x := s.sag (p / 28)
  if !s.bankOk (p / 32) then .undriven
  else if fabric && x.parked && !s.pinAnalog p then
    match (x.park / 4 ^ (p % 28)) % 4 with
    | 1 => .weakUp
    | 2 => .weakDown
    | 3 => .kept ((x.wall[p % 28]?).getD false)
    | _ => .undriven
  else if s.pinDropped p then .keeper
  else if s.pinAnalog p then .undriven
  else s.altDrive p

/-- The levels of a sagger's pins as its wall closes (R359): what the device drives, else the level of the pin, which no command brings from before
a debounce filter, nor the waveform of a unit (DESIGN CHOICE, log entry 119). -/
def State.wallLevels (s : State) (g : Nat) : List Bool :=
  (List.range 28).map (fun k =>
    let p := 28 * g + k
    match s.padDrive p with
    | .level l => l
    | .kept l => l
    | .waveform => bitOf (Config.freeValue s.freeCtr) k == 1
    | _ => if s.debounce p = 0 && s.pinLive p then s.pinLevel p else bitOf (Config.freeValue s.freeCtr) k == 1)

/-- The pins of a sagger take their park states (R359); HOLD keeps the levels as they are now. -/
def State.parkPins (s : State) (g : Nat) : State :=
  if (s.sag g).parked then s
  else { s with freeCtr := s.freeCtr + 1 }.setSag g { s.sag g with parked := true, wall := s.wallLevels g }

end Sys2Proof.Machine
end

