-- ==== Sys2Proof/Machine/Loading.lean ====
section
/-! DEFINITION. Images and their loading (11_configuration_loading.md, R331–R364), and the installation of firmware and image
sets (17_bring_up.md, R518–R529). The loader takes the bytes of an image from the flash, or from what CFG_DATA has delivered. -/

namespace Sys2Proof.Machine

open Regs

/-! ### The boot flash (R342, R343, R518) -/

/-- The flash address of image slot 1 (A) or 2 (B). -/
def slotBase (k : Nat) : Nat := 0x1000000 * k

/-- The flash address of firmware slot 1 (A) or 2 (B). -/
def fwBase (k : Nat) : Nat := 0x3000000 + 0x400000 * (k - 1)

/-- Whether a directory is valid (R343): its own bytes, the size of what holds it, and the KIND of the image at an offset. -/
def dirValid (dir : List Byte) (size : Nat) (kindAt : Nat → Nat) : Bool :=
  let n := leAt dir 8 4
  leAt dir 0 4 == 0x4B534C54 && leAt dir 4 4 == 4 && leAt dir 0x98 4 == crc32c (dir.take 0x98)
    && decide (1 ≤ n ∧ n ≤ 17)
    && (List.range n).all (fun i => decide (leAt dir (0x10 + 8 * i) 4 + leAt dir (0x14 + 8 * i) 4 ≤ size))
    && kindAt (leAt dir 0x10 4) == 2

/-- The directory of a flash slot. -/
def State.slotDir (s : State) (k : Nat) : List Byte := s.flashBytes (slotBase k) 0x9C

/-- Whether the directory of a flash slot is valid. -/
def State.slotValid (s : State) (k : Nat) : Bool :=
  dirValid (s.slotDir k) 0x1000000 (fun o => (s.flashByte (slotBase k + o + 0xC)).toNat)

/-! ### Headers (R334, R335, R347–R349) -/

/-- The header of an image (R334). -/
def parseHeader (b : List Byte) : ImageHdr where
  kind := leAt b 0xC 1
  region := leAt b 0xD 1
  enc := leAt b 0xE 1 == 1
  startup := leAt b 0xF 1
  frames := leAt b 0x10 4
  length := leAt b 0x14 4
  epochFrames := leAt b 0x18 2
  func := leAt b 0x1C 4
  nonce := ((b.drop 0x20).take 16).map (·.toNat)
  clksel := leAt b 0x30 2
  park := leAt b 0x34 8
  fpll0 := leAt b 0x3C 4
  fpll1 := leAt b 0x40 4

/-- The number of key epochs of an image. -/
def ImageHdr.epochs (h : ImageHdr) : Nat :=
  if h.enc ∧ h.epochFrames ≠ 0 then (h.frames + h.epochFrames - 1) / h.epochFrames else 0

/-- The most frames that an image of a kind may have (R332). -/
def maxFrames (kind : Nat) : Nat := match kind with | 1 => 320 | 2 => 1856 | 3 => 1024 | _ => 0xFFFFFFFF

/-- A fabric PLL frequency that R334 allows. -/
def fpllOk (x : Nat) : Bool := x == 0 || decide (250 ≤ x ∧ x ≤ 8000)

/-- BAD_HEADER (R348). -/
def badHeader (b : List Byte) : Bool :=
  let h := parseHeader b
  leAt b 0 4 != 0x4B494D47 || leAt b 4 4 != 4 || leAt b 0xFC 4 != crc32c (b.take 0xFC)
    || h.length != 256 + 532 * h.frames + 32 * h.epochs
    || decide (h.frames = 0 ∨ maxFrames h.kind < h.frames)
    || decide (1 < leAt b 0xE 1)
    || (if h.enc then decide (h.epochFrames = 0 ∨ 2048 < h.epochFrames) else h.epochFrames != 0)
    || leAt b 0x1A 2 != 0 || leAt b 0x32 2 != 0 || leAt b 0x44 184 != 0 || decide (2 ^ 56 ≤ h.park)
    || (h.kind == 3) && (h.func == 0 || h.fpll0 != 0 || h.fpll1 != 0)
    || (h.kind == 1 || h.kind == 2) && (h.func != 0 || h.clksel != 0 || h.park != 0)
    || h.kind == 1 && (h.fpll0 != 0 || h.fpll1 != 0) || h.kind == 2 && !(fpllOk h.fpll0 && fpllOk h.fpll1)
    || !h.enc && h.nonce.any (· != 0)

/-- Source code of net `j` in a CLKSEL. -/
def clkCode (w j : Nat) : Nat := w / 16 ^ j % 16

/-- BAD_SEQ (R335): each code exactly once. -/
def badStartup (x : Nat) : Bool := (List.range 4).any (fun c => !((List.range 4).any (fun i => x / 4 ^ i % 4 == c)))

/-- Whether a PRODUCTION image is released. -/
def State.prodUp (s : State) : Bool := s.bit imageStatus imageStatus_PROD_RELEASED

/-- BAD_CLOCK (R348). -/
def State.badClock (s : State) (h : ImageHdr) : Bool :=
  h.kind == 3 && (List.range 4).any (fun j =>
    let c := clkCode h.clksel j
    decide (8 ≤ c) || s.prodUp && (c == 4 || c == 5) && FMap.get (fun _ => 0) s.loader.fpll (c - 4) == 0)

/-- TARGET_BUSY (R349). -/
def State.targetBusy (s : State) (h : ImageHdr) : Bool :=
  match h.kind with
  | 3 =>
    let g := h.region - 1
    !([0, 1, 3].contains (s.saggerState g)) || s.claimed (0x6000 + g)
  | 2 => s.prodUp
  | _ => s.bit imageStatus imageStatus_BISQUE_OK

/-- NO_STATIC (R354, R525). -/
def State.noStatic (s : State) (h : ImageHdr) : Bool :=
  match h.kind with
  | 3 => !s.prodUp
  | 2 => !s.bit imageStatus imageStatus_BISQUE_OK || s.romAlone
  | _ => false

/-- The first header check that fails, in the order of R354; 0 where none does. -/
def State.headerError (s : State) (b : List Byte) : Nat :=
  let h := parseHeader b
  if badHeader b then 1
  else if leAt b 8 4 ≠ s.part.idcode then 2
  else if !([1, 2, 3].contains h.kind) || (if h.kind = 3 then decide (h.region = 0 ∨ s.part.saggers < h.region) else h.region != 0)
  then 3
  else if badStartup h.startup then 4
  else if s.badClock h then 5
  else if s.targetBusy h then 6
  else if s.noStatic h then 7
  else if !h.enc && s.bit security security_ENC_ONLY then 8
  else if h.enc && !s.bit security security_KEY_SET then 9
  else 0

/-! ### Outcomes (R354, R355, R362) -/

/-- The open load replaced. -/
def State.setLoad (s : State) (x : Option Load) : State := { s with loader := { s.loader with load := x } }

/-- The open load, where Deogen still works (R521). -/
def State.openLoad (s : State) : Option Load := if s.deogen then s.loader.load else none

/-- STATE of LOAD_STATUS: 0 IDLE, 1 HEADER, 2 CLEARING, 3 FRAMES, 4 WAIT_END, 5 WAIT_START, 6 STARTUP. -/
def State.loadState (s : State) : Nat := s.fld loadStatus loadStatus_STATE

/-- STATE of LOAD_STATUS set. -/
def State.setLoadState (s : State) (x : Nat) : State := s.setFld loadStatus loadStatus_STATE x

/-- The source of a load's events, and the owner of what it concerns (R362). -/
def State.loadSource (s : State) (h : Option ImageHdr) : Nat × Nat :=
  match h with
  | some h => if h.kind = 3 ∧ 1 ≤ h.region ∧ h.region ≤ s.part.saggers then (744 + (h.region - 1), s.ownSagger (h.region - 1))
      else (859, 15)
  | none => (859, 15)

/-- A refusal or an abort recorded, logged and raised (R354, R362). -/
def State.loadFault (s : State) (host : Bool) (h : Option ImageHdr) (reason code : Nat) (addr : Option Nat) (epoch index : Nat) :
    State :=
  let a := match addr with | some a => 0x80000000 + a | none => 0
  let i := epoch % 0x10000 * 0x10000 + index % 0x1000
  let t := ((s.setReg errAddr (BitVec.ofNat 32 a)).setReg errInfo (BitVec.ofNat 32 i)).count failCount
  let t := (t.setFld loadStatus loadStatus_ERR code).setFlag loadStatus loadStatus_FAILED
  let (src, own) := t.loadSource h
  t.report ⟨6, flag host, own, src, a, i, code, ((h.map (·.region)).getD 0) % 0x100, t.time.tick⟩ src reason []

/-- Configuration descriptors completed: the bytes of each that the loader has taken count as read. -/
def State.closeDescs (s : State) (l : Load) (status result : Nat) : State :=
  l.descs.foldl (fun t x =>
    let n := min x.1.length (l.taken - (x.2 - x.1.length))
    t.finish 0 x.1 status result 0 (if status = 0 then x.1.length else n) t.time.tick) s

/-- A load from the flash opened (R342). -/
def State.openFlash (s : State) (base slot : Nat) : State :=
  ((s.setLoad (some ⟨false, base, slot, none, 0, [], [], false, s.time.bounds + 2, 0, [], none, [], [], [], 0, [], [], [],
    none, none, 0⟩)).setLoadState 1).setFld loadStatus loadStatus_SRC 1

/-- The FAIL bit of a slot. -/
def slotFailFld (k : Nat) : Fld := if k = 1 then imageStatus_SLOT_A_FAIL else imageStatus_SLOT_B_FAIL

/-- A slot fails (R356): its FAIL bit, and the other slot's set, or FALLBACK. -/
def State.slotFailed (s : State) (x : SetLoad) : State :=
  let t := s.setFld imageStatus (slotFailFld x.slot) 1
  let o := 3 - x.slot
  if t.bit imageStatus (slotFailFld o) then
    let t := { t with loader := { t.loader with set := none } }
    (t.setFld imageStatus imageStatus_FALLBACK 1).raise 859 0x15
  else { t with loader := { t.loader with set := some ⟨o, 0, x.partialOnly⟩ } }

/-- The entry of a set that is loaded next: where only the PARTIAL entries are, the next whose image says that kind (R344). -/
def State.nextEntry (s : State) (x : SetLoad) (d : List Byte) : Nat :=
  if !x.partialOnly then x.next
  else ((List.range (leAt d 8 4)).find? (fun i => decide (x.next ≤ i)
    && (parseHeader (s.flashBytes (slotBase x.slot + leAt d (0x10 + 8 * i) 4) 256)).kind == 3)).getD (leAt d 8 4)

/-- The next image of the set being loaded opened, once the loader and the flash are free (R344, R346, R156). -/
def State.nextImage : Nat → State → State
  | 0, s => s
  | n + 1, s =>
    match s.loader.set with
    | none => s
    | some x =>
      if s.loader.load.isSome || s.flashBusy || s.cal.image.isSome then s
      else if !s.slotValid x.slot then State.nextImage n (s.slotFailed x)
      else
        let d := s.slotDir x.slot
        let i := s.nextEntry x d
        if leAt d 8 4 ≤ i then { s with loader := { s.loader with set := none } }
        else ({ s with loader := { s.loader with set := some { x with next := i + 1 } } }).openFlash
          (slotBase x.slot + leAt d (0x10 + 8 * i) 4) x.slot

/-- What follows a load that has ended (R344, R356). -/
def State.afterLoad (s : State) (l : Load) (ok : Bool) (code : Nat) : State :=
  if l.host then s.nextImage 3
  else if l.slot = 0 then
    if ok then s.nextImage 3
    else
      let n := s.loader.bisqueFails + 1
      let t := { s with loader := { s.loader with bisqueFails := n } }
      if n < 2 then t.openFlash 0 0
      else
        let t := t.setFld imageStatus imageStatus_BISQUE_FAIL 1
        if t.fld bootStatus bootStatus_STAGE = 3 then t else t.setFld bootStatus bootStatus_STAGE 4
  else match s.loader.set with
    | some x =>
      if ok || x.next ≠ 1 then s.nextImage 3
      else if code = 0x19 then { s with loader := { s.loader with set := none } }
      else (s.slotFailed x).nextImage 3
    | none => s

/-- A load refused at its header (R347). -/
def State.refuseLoad (s : State) (l : Load) (h : ImageHdr) (code : Nat) : State :=
  let t := (((s.setLoad none).setLoadState 0).setFld loadStatus loadStatus_REGION h.region).setFld loadStatus loadStatus_KIND
    (if h.kind ≤ 3 then h.kind else 0)
  let t := t.loadFault l.host (some h) 0x12 code none 0 0
  (t.closeDescs l 7 code).afterLoad l false code

/-- A BUSY refusal (R346). -/
def State.refuseBusy (s : State) (host : Bool) : State := s.loadFault host none 0x12 0xA none 0 0

/-- The fabric PLLs of the static region stopped (R358). -/
def State.stopPlls (s : State) : State := (s.setReg (fpllStatus 0) 0).setReg (fpllStatus 1) 0

/-- The epoch that the next frame belongs to. -/
def Load.epoch (l : Load) : Nat :=
  match l.hdr with
  | some h => if h.enc ∧ h.epochFrames ≠ 0 then l.index / h.epochFrames else 0
  | none => 0

/-- TO0–TO7 and EV0–EV3 of a sagger held at 0 (R359): lines 8g to 8g + 7. -/
def State.dropOuts (s : State) (g : Nat) : State :=
  foldBelow (fun i t => { t with pins := { t.pins with outs := FMap.set (fun _ => false) t.pins.outs (8 * g + i) false } }) 8 s

/-- An open load aborted (R355). -/
def State.abortLoad (s : State) (l : Load) (code : Nat) (addr : Option Nat) (epoch : Nat) : State :=
  let t := (s.setLoad none).setLoadState 0
  let t := match l.hdr with
    | some h =>
      if h.kind = 3 then
        let g := h.region - 1
        let t := (t.setSaggerState g 1).powerSagger g true
        let t := t.parkPins g
        let t := (t.setSag g { t.sag g with released := [], ff := [], rr := [], ram := [] }).dropOuts g
        { t with loader := { t.loader with abortAt := FMap.set (fun _ => none) t.loader.abortAt g (some t.time.now) } }
      else if h.kind = 2 then t.stopPlls
      else t
    | none => t
  let t := t.loadFault l.host l.hdr 0x13 code addr epoch l.index
  (t.closeDescs l 7 code).afterLoad l false code

/-! ### Bytes (R345, R353) -/

/-- The next `n` bytes of the source, where it has them. -/
def State.sourceBytes (s : State) (l : Load) (n : Nat) : Option (List Byte) :=
  if !l.host then some (s.flashBytes (l.base + l.taken) n)
  else if n ≤ l.inbox.length then some (l.inbox.take n) else none

/-- Bytes taken from the source. -/
def State.tookBytes (s : State) (l : Load) (n : Nat) : Load :=
  { l with taken := l.taken + n, inbox := if l.host then l.inbox.drop n else [], deadline := s.time.bounds + 2 }

/-- The trailers taken. -/
def Load.trailers (l : Load) : Nat := (l.taken - 256 - 532 * l.index) / 32

/-- Whether the next thing due is a trailer (R336, R338). -/
def Load.trailerDue (l : Load) : Bool :=
  match l.hdr with
  | some h => h.enc && decide (l.trailers * h.epochFrames < l.index)
      && decide (l.index = (l.trailers + 1) * h.epochFrames ∨ l.index = h.frames)
  | none => false

/-- The bytes of the next thing due. -/
def Load.need (l : Load) : Nat := if l.hdr.isNone then 256 else if l.trailerDue then 32 else 532

/-- A load that has all its bytes and all its trailers (R353): it waits for start-up. -/
def State.completeLoad (s : State) (l : Load) : State :=
  (s.closeDescs l 0 0).setLoad (some { l with descs := [] }) |>.setLoadState 5

/-- What the stream comes to once the loader has taken what it can (R353): complete, too long, too short, or more awaited. -/
def State.settleLoad (s : State) (l : Load) : State :=
  let len := (l.hdr.map (·.length)).getD 256
  let s := s.setLoad (some l)
  if l.hdr.isSome ∧ len ≤ l.taken then
    if !l.inbox.isEmpty then s.abortLoad l 0x17 l.lastAddr l.epoch
    else if l.tags.isEmpty ∧ (l.ended ∨ !l.host) then s.completeLoad l
    else s.setLoadState 4
  else if !l.host || l.need ≤ l.inbox.length || !l.tags.isEmpty then s
  else if l.ended then s.abortLoad l 0x15 l.lastAddr l.epoch
  else (s.closeDescs l 0 0).setLoad (some { l with descs := [] })

/-- CFG_DATA (R345, R346, R439). -/
def State.cfgData (s : State) (f : Nat) (d : HostDesc) (b : List Byte) : State :=
  match s.loader.load with
  | none =>
    let t := s.takeDesc f d
    let l : Load := ⟨true, 0, 0, none, 0, b, [(d, b.length)], d.ends, s.time.bounds + 2, 0, [], none, [], [], [], 0, [], [], [],
      none, none, 0⟩
    ((t.setLoadState 1).setFld loadStatus loadStatus_SRC 2).settleLoad l
  | some l =>
    if !l.host || l.ended || 5 ≤ s.loadState then (s.refuseBusy true).completeDesc f d 7 0xA 0 0 s.time.tick
    else
      let t := s.takeDesc f d
      let l := { l with inbox := l.inbox ++ b, descs := l.descs ++ [(d, l.taken + l.inbox.length + b.length)],
                        ended := d.ends, deadline := s.time.bounds + 2 }
      if t.loadState = 2 then t.setLoad (some l) else t.settleLoad l

/-- CFG_DATA (R439): `b` is what the device reads from the buffer. -/
def execCfgData (f : Nat) (b : List Byte) (s : State) : Result := s.command f 8 (fun d => s.cfgData f d b)

/-- Whether a descriptor's deadline has come (R441). -/
def State.expired (s : State) (d : HostDesc) : Bool := d.expiry.any (fun e => decide (e ≤ s.time.bounds))

/-- A chunk of which the loader has taken no byte when its deadline comes: it has no effect, so its bytes leave the stream, and a load that
held nothing else was never opened (R441). -/
def State.expireChunk (s : State) (l : Load) (x : HostDesc × Nat) : State :=
  let len := x.1.length
  let off := x.2 - len - l.taken
  let l' : Load := { l with
    inbox := l.inbox.take off ++ l.inbox.drop (off + len)
    descs := (l.descs.erase x).map (fun y => if x.2 < y.2 then (y.1, y.2 - len) else y)
    ended := l.ended && !x.1.ends }
  let t := s.finish 0 x.1 6 0 0 0 s.time.tick
  if l.taken = 0 ∧ l'.inbox = [] ∧ l'.descs = [] then ((t.setLoad none).setLoadState 0).nextImage 3 else t.setLoad (some l')

/-- DESCRIPTOR_DEADLINE (R441): the oldest descriptor whose deadline has come before its decision point completes with TIMEOUT. -/
def execDescriptorDeadline (f : Nat) (s : State) : Result :=
  .next (match (s.fn f).cmds.find? s.expired with
    | some d => s.completeDesc f d 6 0 0 0 s.time.tick
    | none => match s.loader.load with
      | some l => (match l.descs.find? (fun x => f == 0 && l.host && decide (l.taken ≤ x.2 - x.1.length) && s.expired x.1) with
        | some x => s.expireChunk l x
        | none => s)
      | none => s)

/-! ### Headers and clearing (R347, R350, R359) -/

/-- A cell frame that nothing has written. -/
def zeroCell : List Byte := List.replicate 512 0

/-- The cells that a load of a kind clears (R333). -/
def clears (h : ImageHdr) (a : Nat) : Bool :=
  if h.kind = 3 then a / 0x80000 == h.region
  else if h.kind = 2 then decide (256 ≤ a ∧ a < 2048) else decide (a < 2048)

/-- The frames of the part that a load of a kind clears (R333). -/
def clearFrames (h : ImageHdr) : Nat := match h.kind with | 3 => 1024 | 2 => 1792 | _ => 2048

/-- How long clearing takes: 10 ns a frame (R350), in periods of 500 ps. -/
def clearTime (h : ImageHdr) : Nat := 20 * clearFrames h

/-- The wall of a sagger closes at acceptance (R350, R359). -/
def State.closeWall (s : State) (g : Nat) (h : ImageHdr) : State :=
  let t := (s.abortCapture g).parkPins g
  let x := t.sag g
  let t := t.setSag g { x with restart := false, held := [], fifo := [], pushed := [], pkt := [], leave := none, mute := false,
                               park := h.park, image := h.func, clocks := h.clksel, released := [], due := none,
                               edges := [], late := [], shown := [], heldEdges := [],
                               ff := [], rr := [], ram := [] }
  let t := t.dropOuts g
  let t := if t.saggerState g = 0 then t.setPower (16 + g) .waking else t
  let t := (t.setSaggerState g 2).setReg (funcId g) 0
  { t with loader := { t.loader with abortAt := FMap.set (fun _ => none) t.loader.abortAt g none } }

/-- One frame in 300 ns (R351), in periods of 500 ps. -/
def frameTime : Nat := 600

/-- A header accepted (R339, R347, R350): clearing begins at once, or 50 µs later where the target was OFF. -/
def State.acceptHeader (s : State) (l : Load) (h : ImageHdr) (b : List Byte) : State :=
  let key := if h.enc then Crypto.kdf Crypto.labelCfg s.loader.rootKey 0 h.nonce else []
  let off := h.kind == 3 && s.saggerState (h.region - 1) == 0
  let l := { l with hdr := some h, key := key, aad := if h.enc then b.map (·.toNat) else [],
                    readyAt := s.time.now + (if off then 100000 else 0) + clearTime h,
                    steps := (List.range 4).map (fun i => h.startup / 4 ^ i % 4) }
  let t := (s.setLoad (some l)).setLoadState 2
  let t := (t.setFld loadStatus loadStatus_REGION h.region).setFld loadStatus loadStatus_KIND h.kind
  let t := t.setReg loadProgress 0
  let t := if h.kind = 3 then t.closeWall (h.region - 1) h else t
  t.raise (t.loadSource (some h)).1 0x10

/-- IMAGE_HEADER (R347–R350). -/
def execImageHeader (s : State) : Result :=
  .next (match s.openLoad with
    | none => s
    | some l =>
      if s.loadState ≠ 1 then s
      else match s.sourceBytes l 256 with
        | none => s
        | some b =>
          let l := s.tookBytes l 256
          match s.headerError b with
          | 0 => s.acceptHeader l (parseHeader b) b
          | e => s.refuseLoad l (parseHeader b) e)

/-- SAGGER_POWERED (R350): 50 µs after acceptance. -/
def execSaggerPowered (s : State) : Result :=
  .next (match s.loader.load.bind (fun l => l.hdr.map (fun h => (l, h))) with
    | some (l, h) =>
      if h.kind = 3 ∧ s.loadState = 2 ∧ s.powerOf (16 + (h.region - 1)) ≠ .on ∧ l.readyAt ≤ s.time.now + clearTime h then
        s.powerSagger (h.region - 1) true
      else s
    | none => s)

/-- CLEARING_DONE (R333, R350): once clearing has had its time; the first frame takes 300 ns from here. -/
def execClearingDone (s : State) : Result :=
  .next (match s.openLoad with
    | none => s
    | some l => match l.hdr with
      | none => s
      | some h =>
        if s.loadState ≠ 2 ∨ (h.kind = 3 ∧ s.powerOf (16 + (h.region - 1)) ≠ .on) ∨ s.time.now < l.readyAt then s
        else
          let l := { l with readyAt := s.time.now + frameTime }
          let t := { s with loader := { s.loader with cells := s.loader.cells.filter (fun c => !clears h c.1) } }
          (t.setLoadState 3).settleLoad l)

/-! ### Frames and trailers (R336–R340, R351, R352) -/

/-- OUT_OF_REGION (R351). -/
def outOfRegion (h : ImageHdr) (type a : Nat) : Bool :=
  let n := a % 0x80000
  a / 0x80000 != h.region || (if type = 2 then h.kind == 3 || decide (n < 0x7FFF0)
    else match h.kind with
      | 1 => decide (256 ≤ n)
      | 2 => decide (n < 256 ∨ 2048 ≤ n)
      | _ => decide (1024 ≤ n))

/-- The first check of R351 that a frame fails: its code, or 0. -/
def frameError (l : Load) (h : ImageHdr) (b : List Byte) : Nat :=
  let w := leAt b 0 4
  let (type, a) := (w / 0x1000000, w % 0x1000000)
  if leAt b 0x210 4 ≠ crc32c (b.take 0x210) then 0x10
  else if !([1, 2].contains type) || leAt b 0xA 6 != 0 || leAt b 4 4 != l.index || leAt b 8 2 != l.epoch || l.trailerDue then 0x13
  else if outOfRegion h type a then 0x11
  else if type = 1 ∧ l.written.contains a then 0x12
  else 0

/-- The initialisation vector of an epoch (R340). -/
def epochIv (h : ImageHdr) (e : Nat) : List Nat := h.nonce.take 8 ++ Crypto.ofNum 4 e

/-- A frame that passes: its plaintext written into its cells, or held for start-up (R337, R340, R351). -/
def State.takeFrame (s : State) (l : Load) (h : ImageHdr) (b : List Byte) : State :=
  let w := leAt b 0 4
  let (type, a) := (w / 0x1000000, w % 0x1000000)
  let cipher := (b.drop 0x10).take 512
  let k := if h.enc then l.index - l.epoch * h.epochFrames else 0
  let plain : List Byte := if h.enc then
      (Crypto.gcmStream l.key (epochIv h l.epoch) (2 + 32 * k) (cipher.map (·.toNat))).map (BitVec.ofNat 8) else cipher
  let m := s.tookBytes l 532
  let m := { m with readyAt := s.time.now + frameTime, index := l.index + 1, lastAddr := some a, written := if type = 1 then a :: l.written else l.written,
                    firstAddr := if k = 0 then a else l.firstAddr,
                    aad := if h.enc then l.aad ++ (b.take 16).map (·.toNat) else [],
                    cipher := if h.enc then l.cipher ++ cipher.map (·.toNat) else [],
                    matrix := if type = 2 then l.matrix ++ [(a, (List.range 128).map (fun i => BitVec.ofNat 32 (leAt plain (4 * i) 4)))]
                      else l.matrix }
  let t := if type = 1 then
      { s with loader := { s.loader with cells := FMap.set (fun _ => zeroCell) s.loader.cells a plain } } else s
  (t.setFld loadProgress loadProgress_FRAMES (l.index + 1)).settleLoad m

/-- FRAME (R351): one frame every 300 ns. -/
def execFrame (s : State) : Result :=
  .next (match s.openLoad with
    | none => s
    | some l => match l.hdr with
      | none => s
      | some h =>
        if s.loadState ≠ 3 ∨ s.time.now < l.readyAt then s
        else match s.sourceBytes l 532 with
          | none => s
          | some b => match frameError l h b with
            | 0 => s.takeFrame l h b
            | 0x10 => s.abortLoad (s.tookBytes l 532) 0x10 none l.epoch
            | e => s.abortLoad (s.tookBytes l 532) e (some (leAt b 0 4 % 0x1000000)) l.epoch)

/-- TRAILER (R338, R340, R352): its verdict is found here and takes effect when the tag has been verified. -/
def execTrailer (s : State) : Result :=
  .next (match s.openLoad with
    | none => s
    | some l => match l.hdr with
      | none => s
      | some h =>
        if s.loadState ≠ 3 ∨ !l.trailerDue then s
        else match s.sourceBytes l 32 with
          | none => s
          | some b =>
            let e := l.trailers
            let tag := ((b.drop 0x10).take 16).map (·.toNat)
            let ok := leAt b 0 4 == 0x4B544147 && leAt b 4 4 == e && leAt b 8 4 == l.index - e * h.epochFrames
              && Crypto.gcmTag l.key (epochIv h e) l.aad l.cipher == tag
            let m := s.tookBytes l 32
            s.settleLoad { m with tags := l.tags ++ [(ok, e, l.firstAddr)], aad := [], cipher := [],
                                  key := Crypto.kdf Crypto.labelCfg l.key (e + 1) h.nonce })

/-- TAG_VERIFIED (R352). -/
def execTagVerified (s : State) : Result :=
  .next (match s.openLoad with
    | none => s
    | some l => match l.tags with
      | [] => s
      | (ok, e, a) :: rest =>
        let m := { l with tags := rest }
        if ok then
          let t := s.setFld loadProgress loadProgress_EPOCHS (e + 1)
          if t.loadState = 3 ∨ t.loadState = 4 then t.settleLoad m else t.setLoad (some m)
        else s.abortLoad m 0x14 (some a) e)

/-- IDLE_TIMEOUT (R353). -/
def execIdleTimeout (s : State) : Result :=
  .next (match s.openLoad with
    | none => s
    | some l => if 1 ≤ s.loadState ∧ s.loadState ≤ 4 ∧ l.deadline ≤ s.time.bounds then s.abortLoad l 0x16 l.lastAddr l.epoch else s)

/-- FLASH_READ_ERROR (R354, R538, R539). -/
def execFlashReadError (s : State) : Result :=
  .next (match s.openLoad with
    | none => s
    | some l =>
      if l.host ∨ 4 ≤ s.loadState then s
      else
        let a := l.base + l.taken
        let t := s.report ⟨9, 0, 15, 864, a, 1, 3, 0, s.time.tick⟩ 864 3 [a]
        t.abortLoad l 0x1A l.lastAddr l.epoch)

/-! ### Commands (R344, R346, R360, R363) -/

/-- A write of LOAD_CMD. -/
def State.writeLoadCmd (s : State) (f : Nat) (v : Word) : State :=
  s.allowed (f == 0) f loadCmd v
    (let t := match s.loader.load with
      | some l => if loadCmd_CANCEL.get v = 1 ∧ s.loadState < 6 then s.abortLoad l 0x19 l.lastAddr l.epoch else s
      | none => s
     if loadCmd_FLASH_GO.get v = 0 then t
     else if t.loader.load.isSome || t.loader.set.isSome then t.refuseBusy true
     else ({ t with loader := { t.loader with set := some ⟨1 + loadCmd_SLOT.get v, 0, t.prodUp⟩ } }).nextImage 3)

/-- FLASH_GO (R344, R346). -/
def execFlashGo (f : Nat) (v : Word) (s : State) : Result := s.hostWrite (s.writeLoadCmd f v)

/-- CANCEL (R360). -/
def execCancel (f : Nat) (v : Word) (s : State) : Result := s.hostWrite (s.writeLoadCmd f v)

/-! ### Start-up (R337, R357, R358) -/

/-- The matrix commands of a MATRIX frame's payload; none where it is malformed (R337). -/
def matrixCmds (ws : List Word) : Option (List MxCmd) :=
  let w0 := (ws.getD 0 0).toNat
  let n := w0 % 32
  let mask := mxCmd_OP.mask ||| mxCmd_WIRE.mask ||| mxCmd_TERM.mask
  if n = 0 ∨ 16 < n ∨ w0 ≠ n ∨ (ws.drop (n + 1)).any (· != 0) ∨ ((ws.drop 1).take n).any (fun w => w &&& ~~~ mask != 0) then none
  else some (((ws.drop 1).take n).map (fun w => ⟨mxCmd_OP.get w, mxCmd_WIRE.get w, mxCmd_TERM.get w⟩))

/-- Matrix commands queued one after another; the first that R72 refuses, and its code (R73). -/
def State.queueAll (s : State) (q : Nat) : List MxCmd → State × Option (MxCmd × Nat)
  | [] => (s, none)
  | c :: cs => match s.mxError q c with
    | 0 => State.queueAll (s.setMxQueue q (s.mxQueue q ++ [c])) q cs
    | e => (s, some (c, e))

/-- A MATRIX frame checked and queued as a whole, or refused (R73, R88, R337, R462). MX_STATUS of a quad that is there shows the refusal, with
the connection that is refused first; of a malformed frame it shows code 5 and keeps ERR_WIRE and ERR_TERM (DESIGN CHOICE, log entry
102). -/
def State.matrixFrame (s : State) (x : Nat × List Word) : State :=
  let q := x.1 % 16
  let refuse (t : State) (e : Nat) : State := ((t.setFlag loadStatus loadStatus_MX_REFUSED).count mxRefusedCount).raise 859 0x14 [x.1, e]
  match matrixCmds x.2 with
  | none =>
    let t := (s.setFld (mxStatus q) mxStatus_ERR 5).setFlag (mxStatus q) mxStatus_REFUSED
    refuse (s.onlyIf (s.hasQuad q) (t.raise (728 + q) 2 [(t.mxStatusWord q).toNat] 0)) 5
  | some cs =>
    if !s.hasQuad q then refuse s 5
    else match s.queueAll q cs with
      | (t, none) => t
      | (_, some (c, e)) => refuse (s.mxRefuse q c e 0) e

/-- Step 3 of a boundary for the loader: a complete load starts up; a set of images goes on (R344, R357). -/
def State.loaderStep (s : State) : State :=
  match s.openLoad with
  | none => s.nextImage 3
  | some l =>
    if s.loadState ≠ 5 then s
    else
      let t := (s.setLoad (some { l with stepAt := some s.time.now, matrix := [] })).setLoadState 6
      l.matrix.foldl State.matrixFrame t

/-- Whether every fabric PLL that a load waits for is locked (R357). -/
def State.pllsReady (s : State) (h : ImageHdr) : Bool :=
  match h.kind with
  | 3 => (List.range 4).all (fun j =>
      let c := clkCode h.clksel j
      (c != 4 && c != 5) || s.fpllLocked (c - 4))
  | 2 => (h.fpll0 == 0 || s.fpllLocked 0) && (h.fpll1 == 0 || s.fpllLocked 1)
  | _ => true

/-- A sagger or the static region released (R358, R536). -/
def State.releaseLoad (s : State) (l : Load) (h : ImageHdr) : State :=
  let t := ((s.setLoad none).setLoadState 0).setFlag loadStatus loadStatus_DONE
  let t := t.count Regs.loadCount
  let t := match h.kind with
    | 3 =>
      let g := h.region - 1
      let t := (t.setSaggerState g 3).setReg (funcId g) (BitVec.ofNat 32 h.func)
      t.setReg (clksel g) (BitVec.ofNat 32 h.clksel)
    | 2 =>
      let src := if l.host then 3 else l.slot
      let t := { t with loader := { t.loader with
        fpll := FMap.set (fun _ => 0) (FMap.set (fun _ => 0) t.loader.fpll 0 h.fpll0) 1 h.fpll1 } }
      let t := (t.setFld imageStatus imageStatus_PROD_RELEASED 1).setFld imageStatus imageStatus_PROD_SRC src
      (t.setFld bootStatus bootStatus_STAGE 3).raise 862 3 [src]
    | _ => t.setFld imageStatus imageStatus_BISQUE_OK 1
  (t.raise (t.loadSource (some h)).1 0x11).afterLoad l true 0

/-- A start-up step completes: the next is due 40 ns later, or the region is released. -/
def State.stepDone (s : State) (l : Load) (h : ImageHdr) : State :=
  let m := { l with steps := l.steps.drop 1, stepAt := some (s.time.now + 80), waitFrom := none }
  if m.steps.isEmpty then s.releaseLoad m h else s.setLoad (some m)

/-- The step of a code takes effect on the target (R357): 1 RELEASE_OUT, 2 RELEASE_GSR, 3 ENABLE_WRITE. -/
def State.releaseStep (s : State) (h : ImageHdr) (c : Nat) : State :=
  if h.kind ≠ 3 then s
  else
    let g := h.region - 1
    let x := s.sag g
    s.setSag g { x with released := c :: x.released, parked := if c = 1 then false else x.parked
                        ti := if c = 2 then FMap.ofFn (fun _ => false) 32 (fun i => bitOf (s.tiLevels g) i == 1) else x.ti
                        tiPast := if c = 2 then [] else x.tiPast }

/-- WAIT_LOCK begins; the fabric PLLs of a production image are started first (R357, R358; DEDUCED, log entry 28). -/
def State.beginWait (s : State) (l : Load) (h : ImageHdr) : State :=
  let t := if h.kind = 2 then
      (s.setFld (fpllStatus 0) fpllStatus_FREQ h.fpll0).setFld (fpllStatus 1) fpllStatus_FREQ h.fpll1 else s
  if t.pllsReady h then t.stepDone l h
  else t.setLoad (some { l with stepAt := none, waitFrom := some t.time.now })

/-- STARTUP_STEP (R357). -/
def execStartupStep (s : State) : Result :=
  .next (match s.openLoad with
    | none => s
    | some l => match l.hdr with
      | none => s
      | some h =>
        if s.loadState ≠ 6 ∨ !l.stepAt.any (fun a => decide (a ≤ s.time.now)) then s
        else match l.steps with
          | [] => s
          | 0 :: _ => s.beginWait l h
          | c :: _ => (s.releaseStep h c).stepDone l h)

/-- WAIT_LOCK (R357). -/
def execWaitLock (s : State) : Result :=
  .next (match s.openLoad with
    | none => s
    | some l => match l.hdr with
      | none => s
      | some h => if l.waitFrom.isSome && s.pllsReady h then s.stepDone l h else s)

/-- LOCK_TIMEOUT (R357): 10 ms. -/
def execLockTimeout (s : State) : Result :=
  .next (match s.openLoad with
    | none => s
    | some l => if l.waitFrom.any (fun a => decide (a + 20000000 ≤ s.time.now)) then s.abortLoad l 0x18 none l.epoch else s)

/-! ### Installing firmware and image sets (R522–R529) -/

/-- What R523 finds wrong with a firmware image, INSTALL_SEQ apart: 0x22 BAD_IMAGE, 0x23 TAG_FAIL, 0 nothing. -/
def State.fwError (s : State) (b : List Byte) : Nat :=
  let len := leAt b 0xC 4
  let code := (b.drop 64).take len
  if leAt b 0 4 ≠ 0x4B465744 ∨ leAt b 4 4 ≠ 1 ∨ len = 0 ∨ 4194236 < len ∨ leAt b 0x2C 4 ≠ crc32c (b.take 0x2C)
      ∨ b.length < 64 + len ∨ leAt b 8 4 % 0x10000 < 0x200 ∨ leAt b 0x14 4 ≠ crc32c code then 0x22
  else if s.loader.rootKey.isEmpty then 0
  else
    let key := Crypto.kdf Crypto.labelFw s.loader.rootKey 0 (List.replicate 16 0)
    if leAt b 0x10 4 % 2 = 1 ∧ Crypto.cmac key ((b.take 0x30 ++ code).map (·.toNat)) = ((b.drop 0x30).take 16).map (·.toNat)
    then 0 else 0x23

/-- INSTALL_SEQ of firmware slot `k`. -/
def State.installSeq (s : State) (k : Nat) : Nat := leAt (s.flashBytes (fwBase k + 0x3FFFFC) 4) 0 4

/-- Whether firmware slot `k` is valid (R523), and not marked by the ROM (R524). -/
def State.fwValid (s : State) (k : Nat) : Bool :=
  let hdr := s.flashBytes (fwBase k) 64
  leAt hdr 0 4 == 0x4B465744 && s.installSeq k != 0 && s.installSeq k != 0xFFFFFFFF && !s.loader.marked.contains k
    && s.fwError (hdr ++ s.flashBytes (fwBase k + 64) (leAt hdr 0xC 4)) == 0

/-- *_VALID of firmware slot `k`. -/
def fwValidFld (k : Nat) : Fld := if k = 1 then fwStatus_A_VALID else fwStatus_B_VALID

/-- Whether a flash operation of a descriptor may begin (R156). -/
def State.flashFree (s : State) : Bool := !s.flashBusy && s.cal.image.isNone

/-- A flash write begins: its slot is erased and its descriptor is in hand. -/
def State.beginFlash (s : State) (x : FlashOp) (size : Nat) : State :=
  let t := ((x.d.map (s.takeDesc 0)).getD s).eraseFlash x.base size
  { t with loader := { t.loader with op := some x } }

/-- A descriptor refused with a RESULT of R528. -/
def State.refuseFlash (s : State) (f : Nat) (d : HostDesc) (code : Nat) : State :=
  s.completeDesc f d 7 code 0 d.length s.time.tick

/-- FW_INSTALL (R438, R526). -/
def State.fwInstall (s : State) (f : Nat) (d : HostDesc) (b : List Byte) : State :=
  if !s.flashFree then s
  else match s.fwError b with
    | 0 =>
      let a := s.bit fwStatus fwStatus_A_VALID
      let k := match s.fld fwStatus fwStatus_RUNNING with
        | 1 => 2
        | 2 => 1
        | _ => if a then 2 else 1
      let seq (j : Nat) : Nat := if s.bit fwStatus (fwValidFld j) then s.installSeq j else 0
      (s.beginFlash ⟨true, some d, fwBase k, k - 1, b.take (64 + leAt b 0xC 4), max (seq 1) (seq 2) + 1⟩ 0x400000).setFld fwStatus
        (fwValidFld k) 0
    | e => s.refuseFlash f d e

/-- FW_INSTALL (R526): `b` is what the device reads from the buffer. -/
def execFwInstall (f : Nat) (b : List Byte) (s : State) : Result := s.command f 0x10 (fun d => s.fwInstall f d b)

/-- SLOT_WRITE (R438, R527). -/
def State.slotWrite (s : State) (f : Nat) (d : HostDesc) (b : List Byte) : State :=
  let hdr := (b.drop (leAt b 0x10 4)).take 256
  if 0x1000000 < d.length then s.completeDesc f d 3 0 0 0 s.time.tick
  else if !s.flashFree then s
  else if !dirValid b b.length (fun o => leAt b (o + 0xC) 1) then s.refuseFlash f d 0x20
  else if badHeader hdr then s.refuseFlash f d 1
  else if leAt hdr 8 4 ≠ s.part.idcode then s.refuseFlash f d 2
  else
    let k := d.param 0 % 2
    s.beginFlash ⟨false, some d, slotBase (k + 1), k, b, 0⟩ 0x1000000

/-- SLOT_WRITE (R527): `b` is what the device reads from the buffer. -/
def execSlotWrite (f : Nat) (b : List Byte) (s : State) : Result := s.command f 0x11 (fun d => s.slotWrite f d b)

/-- FLASH_WRITE_DONE (R526–R529): the read-back passes, or the slot is left not valid. -/
def execFlashWriteDone (ok : Bool) (s : State) : Result :=
  .next (match s.loader.op with
    | none => s
    | some x =>
      let t := { s with loader := { s.loader with op := none } }
      let done (t : State) (status result : Nat) : State :=
        (x.d.map (fun d => t.finish 0 d status result x.slot d.length t.time.tick)).getD t
      let t := if !ok then done (t.report ⟨9, 0, 15, 864, x.base, 3, 3, 0, t.time.tick⟩ 864 3 [x.base]) 7 0x21
        else
          let t := t.programFlash x.base x.bytes
          if x.fw then
            let t := (t.programFlash (x.base + 0x3FFFFC) (leBytes 4 x.seq)).setFld fwStatus (fwValidFld (x.slot + 1)) 1
            done ((t.setFld fwStatus fwStatus_PENDING 1).raise 864 1 [x.slot, x.seq]) 0 0
          else done (t.raise 864 2 [x.slot]) 0 0
      t.nextImage 3)

/-! ### Failed reads of host memory (R443) -/

/-- HOST_READ_FAILURE (R443): of a doorbell line, which is read again at the next boundary and at once where a WAKE asked for it, of a descriptor, or of the buffer of the next descriptor of a code. -/
def execHostReadFailure (f : Nat) (what : HostRead) (s : State) : Result :=
  .next (if 8 ≤ f ∨ (s.fn f).silent then s
    else match what with
      | .doorbell =>
        if (s.fn f).reading.isNone then s
        else
          let t := s.dbError f
          (t.setFn f { t.fn f with retry := true }).doorbellOver f
      | .descriptor g =>
        if 17 ≤ g ∨ !s.ringRuns f g then s
        else ((s.setFld (ringCtrl f g) cmdCtrl_HALTED 1).setFlag (hostStatus f) (if g = 0 then hostStatus_CMD_HALT
            else hostStatus_DATA_HALT)).raise (if g = 0 then 832 + 2 * f else 833 + 2 * f)
          (if g = 0 then 4 else 3) [if g = 0 then 0 else 0x0F + g] (f + 1)
      | .buffer code =>
        match s.nextDesc f code with
        | none => s
        | some d => match d.judge f with
          | 0 =>
            if noBuffer code || [4, 0xA].contains code then s
            else
              let t := s.completeDesc f d 5 0 0 0 s.time.tick
              match t.loader.load with
              | some l => if code = 8 ∧ l.host ∧ !l.ended ∧ t.loadState < 5 then t.abortLoad l 0x1B l.lastAddr l.epoch else t
              | none => t
          | e => s.completeDesc f d e 0 0 0 s.time.tick)

/-- A write to the loading part of CONFIG, `x` bytes into it (R363, R364). -/
def State.writeConfig (s : State) (f x : Nat) (v : Word) : State :=
  if x = 0 then s.writeLoadCmd f v
  else if x = 4 then s.allowed (f == 0) f loadStatus v (s.writeReg loadStatus loadStatusDesc v)
  else s

end Sys2Proof.Machine
end

