-- ==== Sys2Proof/Machine/Graphs.lean ====
section
/-! DEFINITION. Clousk graph files and what their elements ask for (09_placement_and_graphs.md, R260–R264, R271, R272). -/

namespace Sys2Proof.Machine

open Regs

/-- The item that stands for none in a completion (R267). -/
def noItem : Nat := 0xFFFF

/-- A parameter word of an element. -/
def Elem.p (e : Elem) (i : Nat) : Nat := e.params.getD i 0

/-- A parameter word as a register word. -/
def Elem.w (e : Elem) (i : Nat) : Word := BitVec.ofNat 32 (e.p i)

/-- Whether an element is pinned. -/
def Elem.pinned (e : Elem) : Bool := e.pin != 0xFFFF

/-- The class of a port of a kind (R260): whether it is an output, and whether it is analogue. -/
def portClass (kind port : Nat) : Option (Bool × Bool) :=
  match kind with
  | 1 => if port = 0 then some (true, true) else if port ≤ 2 then some (false, true)
      else if port ≤ 4 then some (true, false) else none
  | 2 => if port ≤ 2 then some (false, true) else if port ≤ 4 then some (true, true) else none
  | 3 => if port = 0 then some (false, false) else if port ≤ 2 then some (true, false) else none
  | 4 => if port < 16 then some (decide (8 ≤ port), false) else none
  | 5 => if port < 32 then some (decide (16 ≤ port), false) else none
  | 6 => if port = 0 then some (false, false) else if port = 1 then some (true, true) else none
  | 8 | 9 | 10 => if port = 0 then some (false, false) else none
  | 11 => if port = 0 then some (true, false) else none
  | _ => none

/-- The unit kinds that a kind of element may be pinned to (R260, R262). -/
def pinKinds (kind : Nat) : List Nat :=
  match kind with
  | 1 => [2] | 2 => [7, 1] | 3 => [3] | 4 => [4, 5] | 5 => [6] | 6 => [1] | 7 => [1] | 8 => [8] | 9 => [9] | _ => []

/-! ### Tasks (R196, R260) -/

/-- The ports of a task that edges use, rising. -/
def usedPorts (edges : List Edge) (id : Nat) : List Nat :=
  (List.range 16).filter (fun p => edges.any (fun e =>
    if p < 8 then e.to_ == id && e.toPort == p else e.frm == id && e.fromPort == p))

/-- The stream word of a used port of a task. -/
def Elem.streamWord (e : Elem) (used : List Nat) (p : Nat) : Nat := e.p (3 + used.idxOf p)

/-- What the image part of a task's parameters holds (DEDUCED, log entry 22): the program, then an image for X and one for Y, each
with its address. -/
structure TaskImage where
  prog : List Nat
  xAddr : Nat
  xWords : List Nat
  yAddr : Nat
  yWords : List Nat
  deriving DecidableEq, Repr

/-- Pairs of words joined, the lower 32 bits first. -/
def joinPairs : List Nat → List Nat
  | a :: b :: rest => (a + b * 0x100000000) :: joinPairs rest
  | _ => []

/-- The image part of a task's parameters: a program length and two words per instruction, bits 31:0 first; then for X and
for Y an address, a length and the words. None when the lengths do not fit. -/
def Elem.image (e : Elem) (used : List Nat) : Option TaskImage :=
  let ws := e.params.drop (3 + used.length)
  let n := ws.getD 0 0
  let prog := (ws.drop 1).take (2 * n)
  let xs := ws.drop (1 + 2 * n)
  let xl := xs.getD 1 0
  let ys := xs.drop (2 + xl)
  let yl := ys.getD 1 0
  if e.params.length = 3 + used.length + 1 + 2 * n + 2 + xl + 2 + yl then
    some ⟨joinPairs prog, xs.getD 0 0, (xs.drop 2).take xl, ys.getD 0 0, (ys.drop 2).take yl⟩
  else none

/-- Whether a task's parameters are well formed: words within their widths and images within memory. -/
def Elem.taskOk (e : Elem) (used : List Nat) : Bool :=
  match e.image used with
  | none => false
  | some m => m.prog.all (fun w => decide (w < 2 ^ 48)) && (m.xWords ++ m.yWords).all (fun w => decide (w < 2 ^ 24))
      && decide (m.xAddr + m.xWords.length ≤ 32768 ∧ m.yAddr + m.yWords.length ≤ 32768)
      && used.all (fun p => decide (bitsOf (e.streamWord used p) (if p < 8 then 29 else 28) 24 = 0))

/-! ### The file (R263, R264) -/

/-- Whether the parameters of an element have the length and the ranges of its kind (R260, R86). -/
def Elem.paramsOk (e : Elem) (edges : List Edge) : Bool :=
  let n := e.params.length
  match e.kind with
  | 1 => n == 4 && [1, 2, 4, 8, 16].contains (e.p 2) && decide (e.p 3 < 4)
      && decide (chCtrl_INSEL.get (e.w 0) ≠ 3 ∧ chCtrl_PGA.get (e.w 0) ≠ 31)
  | 2 => n == 4 && cabRefusal (e.w 0) (e.w 1) (e.w 2) (some (e.w 3)) == 0
  | 3 => decide (7 ≤ n) && n == 7 + firCtrl_TAPS.get (e.w 4)
      && decide (sx 16 (coarseThr_LO.get (e.w 5)) ≤ sx 16 (coarseThr_HI.get (e.w 5)))
  | 4 => e.taskOk (usedPorts edges e.id)
  | 5 => n == 2 && decide (e.p 1 < 2)
  | 6 => n == 4 && decide (dacCtrl_SRC.get (e.w 0) ≤ 3 ∧ dacCtrl_STREAM_RATE.get (e.w 0) ≠ 3
      ∧ dacToneAmp_AMP.get (e.w 3) ≤ 32767)
  | 7 => n == 2
  | 8 => n == 2 && decide (1 ≤ e.p 0 ∧ e.p 1 < 2)
  | 9 => n == 1 && decide (e.p 0 < 16)
  | 10 => n == 2 && decide (e.p 0 < 4 ∧ e.p 1 < 1024)
  | 11 => n == 3 && decide (e.p 0 < 4 ∧ e.p 1 < 1024)
  | _ => false

/-- Whether the pin of an element is of a kind that it may have (R260, R262). A HOST element whose pin names another ring than its RING
word is malformed (DESIGN CHOICE, log entry 111). -/
def Elem.pinOk (e : Elem) : Bool :=
  if e.pinned then (pinKinds e.kind).contains (e.pin / 0x1000) && (e.kind != 9 || e.pin % 0x1000 == e.p 0) else e.kind != 1 && e.kind != 7

/-- An element record. -/
def readElem (b : List Byte) (o : Nat) : Elem :=
  let n := leAt b (o + 8) 4
  let a := leAt b (o + 12) 4
  ⟨leAt b o 2, leAt b (o + 2) 1, leAt b (o + 4) 2,
    if a + 4 * n + 4 ≤ b.length then (List.range n).map (fun i => leAt b (a + 4 * i) 4) else []⟩

/-- Whether an element record is well formed but for its parameters: its reserved bytes, ID, kind and parameter place. -/
def elemRecordOk (b : List Byte) (o : Nat) : Bool :=
  let n := leAt b (o + 8) 4
  let a := leAt b (o + 12) 4
  leAt b (o + 3) 1 == 0 && leAt b (o + 6) 2 == 0 && decide (1 ≤ leAt b o 2 ∧ leAt b o 2 ≤ 1023)
    && decide (1 ≤ leAt b (o + 2) 1 ∧ leAt b (o + 2) 1 ≤ 11) && decide (32 ≤ a ∧ a + 4 * n + 4 ≤ b.length)

/-- An edge record. -/
def readEdge (b : List Byte) (o : Nat) : Edge :=
  ⟨leAt b o 2, leAt b (o + 2) 1, leAt b (o + 3) 1 % 2 == 1, leAt b (o + 4) 2, leAt b (o + 6) 1, leAt b (o + 8) 4⟩

/-- Whether an edge keeps R261 after the edges `before` it: ports of one class, an output and an input, the input taking no
earlier edge. -/
def edgeOk (elems : List Elem) (before : List Edge) (e : Edge) : Bool :=
  match elems.find? (fun x => x.id == e.frm), elems.find? (fun x => x.id == e.to_) with
  | some x, some y =>
    match portClass x.kind e.fromPort, portClass y.kind e.toPort with
    | some (o, a), some (o', a') =>
      o && !o' && a == a' && a == e.analog
        && (a || !before.any (fun z => z.to_ == e.to_ && z.toPort == e.toPort))
    | _, _ => false
  | _, _ => false

/-- The first element whose ID came before. -/
def repeatedId : List Elem → List Nat → Option Nat
  | [], _ => none
  | e :: es, seen => if seen.contains e.id then some e.id else repeatedId es (e.id :: seen)

/-- A Clousk graph read (R263, R264), or the item for which it fails FORMAT. -/
def parseGraph (b0 : List Byte) : Sum Nat GraphFile :=
  let len := leAt b0 0x0C 4
  let b := b0.take len
  let (ne, nd) := (leAt b 0x10 2, leAt b 0x12 2)
  let (eo, d0) := (leAt b 0x18 4, leAt b 0x1C 4)
  if b.length < 36 ∨ b.length ≠ len ∨ leAt b 0 4 ≠ 0x4B474650 ∨ leAt b 4 4 ≠ 4
      ∨ leAt b (len - 4) 4 ≠ crc32c (b.take (len - 4)) ∨ ne < 1 ∨ 1023 < ne ∨ 4096 < nd
      ∨ eo < 32 ∨ len < eo + 16 * ne + 4 ∨ d0 < 32 ∨ len < d0 + 16 * nd + 4 then .inl noItem
  else
    let elems := (List.range ne).map (fun i => readElem b (eo + 16 * i))
    let edges := (List.range nd).map (fun i => readEdge b (d0 + 16 * i))
    match (List.range ne).find? (fun i => !elemRecordOk b (eo + 16 * i)), repeatedId elems [] with
    | some i, _ => .inl (leAt b (eo + 16 * i) 2)
    | none, some id => .inl id
    | none, none =>
      match elems.find? (fun e => !(e.paramsOk edges && e.pinOk)) with
      | some e => .inl e.id
      | none =>
        let bad (i : Nat) : Bool := leAt b (d0 + 16 * i + 3) 1 / 2 != 0 || leAt b (d0 + 16 * i + 7) 1 != 0
          || leAt b (d0 + 16 * i + 12) 4 != 0 || (edges[i]?).any (fun e => !edgeOk elems (edges.take i) e)
        match (List.range nd).find? bad with
        | some i => .inl i
        | none => .inr ⟨leAt b 8 4, leAt b 0x14 4, elems, edges⟩

/-! ### Rates (R41, R264, R271) -/

/-- Samples per tick of a channel with `n` slices, counted as R41 counts: 1.25 × n × T. -/
def samplesPerTick (n div : Nat) : Nat := (5 * n * div + 3) / 4

/-- The source whose pool samples feed a chain (R159); none where its input takes another edge, or none. -/
def GraphFile.sourceOf (g : GraphFile) (id : Nat) : Option Elem :=
  (g.edges.find? (fun e => e.to_ == id && e.toPort == 0 && e.fromPort == 3)).bind (fun e =>
    g.elems.find? (fun x => x.id == e.frm && x.kind == 1))

/-- The input samples per tick of a chain. -/
def GraphFile.chainInputs (g : GraphFile) (div id : Nat) : Nat :=
  ((g.sourceOf id).map (fun x => samplesPerTick (x.p 2) div)).getD 0

/-- The words per tick of an edge (R264). The coarse output has a new value at every chain-clock cycle that brings an input, so at most
one each 4 ns (R177). -/
def GraphFile.wordsOf (g : GraphFile) (div : Nat) (e : Edge) : Nat :=
  match g.elems.find? (fun x => x.id == e.frm) with
  | none => e.words
  | some x =>
    match x.kind with
    | 1 => samplesPerTick (x.p 2) div
    | 3 => if e.fromPort = 2 then ((g.sourceOf x.id).map (fun c => samplesPerTick (min 2 (c.p 2)) div)).getD 0
      else wordsPerTick (x.w 0) (firCtrl_TAPS.get (x.w 4)) (g.chainInputs div x.id)
    | 4 => x.streamWord (usedPorts g.edges x.id) e.fromPort % 0x1000000
    | 11 => x.p 2
    | _ => e.words

/-- Whether an edge is a raw tap. -/
def GraphFile.rawEdge (g : GraphFile) (e : Edge) : Bool :=
  e.fromPort == 4 && g.elems.any (fun x => x.id == e.frm && x.kind == 1)

/-- Units per tick of a stream of `w` words, `k` to a unit (R271). -/
def unitsFor (w k : Nat) : Nat :=
  let u := (w + k - 1) / k
  u + (u + 63) / 64 + 1

/-- Whether an edge is a route over the network: neither analogue nor from a source to a chain, through the crossbar of R159. -/
def GraphFile.routed (g : GraphFile) (e : Edge) : Bool :=
  !e.analog && !(e.fromPort == 3 && g.elems.any (fun x => x.id == e.frm && x.kind == 1)
    && g.elems.any (fun x => x.id == e.to_ && x.kind == 3))

/-- The words of each of X and Y that a task needs (R272). -/
def GraphFile.memNeed (g : GraphFile) (div : Nat) (e : Elem) (y : Bool) : Nat :=
  let used := usedPorts g.edges e.id
  let img := (e.image used).map (fun m => if y then m.yWords.length else m.xWords.length)
  let streams := (used.filter (fun p => decide (p < 8) && bitOf (e.streamWord used p) 31 == flag y)).map (fun p =>
    let len := ((g.edges.find? (fun d => d.to_ == e.id && d.toPort == p)).map (g.wordsOf div)).getD 0
    2 * len + (if bitOf (e.streamWord used p) 30 = 1 then 2 * ((len + 2) / 3) else 0))
  img.getD 0 + e.p (if y then 2 else 1) + streams.foldl (· + ·) 0

/-- The input bindings of a task (R210, DESIGN CHOICE, log entry 23): in rising port, each takes two buffers and its flag areas downward from
the top of its memory. -/
def bindInputs (word : Nat → Nat) (len : Nat → Nat) : List Nat → Nat → Nat → List InPort
  | [], _, _ => []
  | p :: ps, topX, topY =>
    let y := bitOf (word p) 31 == 1
    let fl := bitOf (word p) 30 == 1
    let n := len p
    let fa := if fl then (n + 2) / 3 else 0
    let top := if y then topY else topX
    let base := top - (2 * n + 2 * fa)
    ⟨p, n, y, base, base + n, fl, base + 2 * n, base + 2 * n + fa⟩
      :: bindInputs word len ps (if y then topX else base) (if y then base else topY)

/-- The task that an element describes. -/
def GraphFile.task (g : GraphFile) (div fn handle : Nat) (e : Elem) : Task :=
  let used := usedPorts g.edges e.id
  let m := (e.image used).getD ⟨[], 0, [], 0, []⟩
  let len (p : Nat) := ((g.edges.find? (fun d => d.to_ == e.id && d.toPort == p)).map (g.wordsOf div)).getD 0
  { fn := fn, handle := handle, elem := e.id
    prog := m.prog.map (BitVec.ofNat 48 ·)
    xAddr := m.xAddr
    xWords := m.xWords.map (BitVec.ofNat 24 ·)
    yAddr := m.yAddr
    yWords := m.yWords.map (BitVec.ofNat 24 ·)
    persX := e.p 1
    persY := e.p 2
    wcet := e.p 0
    ins := bindInputs (e.streamWord used) len (used.filter (fun p => decide (p < 8))) 32768 32768
    outs := (used.filter (fun p => decide (8 ≤ p))).map (fun p =>
      ⟨p - 8, e.streamWord used p % 0x1000000, bitOf (e.streamWord used p) 29 == 1⟩) }

end Sys2Proof.Machine
end

