-- ==== Sys2Proof/Machine/Admission.lean ====
section
/-! DEFINITION. Admission and placement (09_placement_and_graphs.md, R265–R277; R6, R22, R28, R93, R143, R194, R381, R389,
R400, R406). A version of a graph is placed kind by kind, each failing check is noted under its code, and the lowest code with the
first item that failed it is what is reported. -/

namespace Sys2Proof.Machine

open Regs

/-- A version of a graph while it is judged: what was placed before it, the quad of each element that lies in one, what is placed so far,
and the checks that failed as code and item, in their order. -/
structure Bid where
  fn : Nat
  handle : Nat
  file : GraphFile
  old : List PlacedElem
  oldEdges : List PlacedEdge
  quads : List (Nat × Nat)
  elems : List PlacedElem
  edges : List PlacedEdge
  errs : List (Nat × Nat)
  deriving DecidableEq, Repr

/-- A failing check noted. -/
def Bid.fail (b : Bid) (code item : Nat) : Bid := { b with errs := b.errs ++ [(code, item)] }

/-- A check noted where it fails. -/
def Bid.check (b : Bid) (ok : Bool) (code item : Nat) : Bid := if ok then b else b.fail code item

/-- The elements of a kind in the order of R274: pinned ones first, then by ID. -/
def Bid.kind (b : Bid) (k : Nat) : List Elem :=
  let es := (List.range 1024).flatMap (fun i => b.file.elems.filter (fun e => e.id == i && e.kind == k))
  es.filter Elem.pinned ++ es.filter (fun e => !e.pinned)

/-- The placed element of an ID. -/
def Bid.at_ (b : Bid) (id : Nat) : Option PlacedElem := b.elems.find? (fun e => e.el.id == id)

/-- The old version of a graph as a file. -/
def Bid.oldFile (b : Bid) : GraphFile := ⟨b.file.idcode, b.file.tickDiv, b.old.map (·.el), b.oldEdges.map (·.ed)⟩

/-- Whether a unit satisfies a pin (R262). -/
def pinFits (pin unit : Nat) : Bool :=
  pin == 0xFFFF || pin == unit || (pin / 0x1000 == 5 && unit / 0x1000 == 4 && unit % 0x1000 / 8 == pin % 0x1000)
    || (pin / 0x1000 == 1 && unit / 0x1000 == 7 && unit % 0x1000 / 8 == pin % 0x1000)

/-- Whether two chain elements differ only in words that are changed in place (R280). -/
def sameChain (a b : Elem) : Bool :=
  a.params.length == b.params.length
    && (List.range a.params.length).all (fun i => [1, 2, 3, 5].contains i || a.p i == b.p i)

/-- The element of the old version whose unit a new element keeps (R280): one of another quad than its edges now lie in is not kept
(R274). -/
def Bid.kept (b : Bid) (div : Nat) (e : Elem) : Option PlacedElem :=
  (b.old.find? (fun o => o.el.id == e.id && o.el.kind == e.kind)).bind (fun o =>
    let same := match e.kind with
      | 3 => sameChain o.el e
      | 4 => decide ({ b.oldFile.task div b.fn b.handle o.el with wcet := 0 } = { b.file.task div b.fn b.handle e with wcet := 0 })
      | 5 => o.el.p 0 == e.p 0
      | 1 | 2 | 6 | 7 => true
      | _ => decide (o.el.params = e.params)
    let here := (b.quads.find? (fun x => x.1 == e.id)).all (fun x => o.quad == some x.2)
    if same && pinFits e.pin o.unit && here then some o else none)

/-- An element placed on a unit. -/
def Bid.place (b : Bid) (div : Nat) (e : Elem) (unit : Nat) : Bid :=
  let p : PlacedElem := match b.kept div e with
    | some o => { o with el := e, flags := o.flags / 2 * 2 + flag e.pinned }
    | none => ⟨e, unit, 0, flag e.pinned, 0, none⟩
  { b with elems := b.elems ++ [p] }

/-- Whether a unit is held or reserved by a graph, or given in this bid. -/
def State.taken (s : State) (b : Bid) (u : Nat) : Bool := s.claimed u || b.elems.any (fun e => e.unit == u)

/-- An element that is not kept placed on the first unit of a list, with a failing check where there is none. -/
def Bid.choose (b : Bid) (div : Nat) (e : Elem) (code : Nat) (units : List Nat) : Bid :=
  match b.kept div e, units with
  | some o, _ => b.place div e o.unit
  | none, u :: _ => b.place div e u
  | none, [] => (b.place div e 0xFFFF).fail code e.id

/-! ### Checks of the file against the device (R6, R269) -/

/-- Whether the part has the unit that a pin names (R6). -/
def Part.hasUnit (p : Part) (u : Nat) : Bool :=
  let i := u % 0x1000
  match u / 0x1000 with
  | 1 => decide (i < p.quads)
  | 2 => decide (i < 4 * p.quads)
  | 3 => decide (i < p.chains)
  | 4 => decide (i < p.cores)
  | 5 => decide (8 * i < p.cores)
  | 6 => decide (i < p.saggers)
  | 7 => decide (i < 8 * p.quads)
  | 8 => decide (i < 2)
  | 9 => decide (i < 16)
  | _ => false

/-- The owner of the unit that a pin names; 15 for a unit without an owner of its own. -/
def State.unitOwner (s : State) (u : Nat) : Nat :=
  let i := u % 0x1000
  match u / 0x1000 with
  | 2 => s.ownChan i
  | 3 => s.ownChain i
  | 4 => s.ownCore i
  | 6 => s.ownSagger i
  | 7 => s.ownCab i
  | _ => 15

/-- The checks ABSENT and OWNER. -/
def State.checkPins (s : State) (b : Bid) : Bid :=
  b.file.elems.foldl (fun b e =>
    if !e.pinned then b
    else if !s.part.hasUnit e.pin then b.fail 4 e.id
    else
      let o := s.unitOwner e.pin
      b.check (o == b.fn + 1 || !(1 ≤ o && o ≤ 8)) 5 e.id) b

/-! ### Quads, CABs, DACs and wires (R261, R274) -/

/-- The quad that an element's pin gives it. -/
def Elem.pinQuad (e : Elem) : Option Nat :=
  match e.pin / 0x1000 with
  | 1 => some (e.pin % 0x1000)
  | 2 => some (e.pin % 0x1000 / 4)
  | 7 => some (e.pin % 0x1000 / 8)
  | _ => none

/-- The quads of elements, as ID and quad, carried one step along analogue edges. -/
def spreadQuads (edges : List Edge) (l : List (Nat × Nat)) : List (Nat × Nat) :=
  let of (l : List (Nat × Nat)) (id : Nat) : Option Nat := (l.find? (fun x => x.1 == id)).map (·.2)
  edges.foldl (fun l e =>
    if !e.analog then l
    else match of l e.frm, of l e.to_ with
      | some q, none => l ++ [(e.to_, q)]
      | none, some q => l ++ [(e.frm, q)]
      | _, _ => l) l

/-- As many steps as there are edges. -/
def spreadAll (edges : List Edge) : Nat → List (Nat × Nat) → List (Nat × Nat)
  | 0, l => l
  | n + 1, l => spreadAll edges n (spreadQuads edges l)

/-- The quad of every element that lies in one: from pins along the edges, then from the units kept by what no pin reaches; then a DAC that
nothing places takes the lowest quad whose DAC is free. -/
def State.quadsOf (s : State) (b : Bid) : List (Nat × Nat) :=
  let n := (b.file.edges.filter (·.analog)).length
  let l := spreadAll b.file.edges n (b.file.elems.filterMap (fun e => e.pinQuad.map (fun q => (e.id, q))))
  let l := b.file.elems.foldl (fun l e =>
    if l.any (fun x => x.1 == e.id) then l
    else match (b.kept s.tickDiv e).bind PlacedElem.quad with
      | some q => spreadAll b.file.edges n (l ++ [(e.id, q)])
      | none => l) l
  let l := (b.file.elems.filter (fun e => e.kind == 6)).foldl (fun l e =>
    if l.any (fun x => x.1 == e.id) then l
    else match lowest s.part.quads (fun q => !s.dacClaimed b.fn b.handle q && !l.any (fun x => x.2 == q && b.file.elems.any (fun d => d.id == x.1 && d.kind == 6))) with
      | some q => l ++ [(e.id, q)]
      | none => l) l
  spreadAll b.file.edges n l

/-- The elements of quads placed: SOURCE, CAB, DAC, GUARD. A DAC that is kept counts as a claim beside those placed before it. -/
def State.placeAnalog (s : State) (b : Bid) : Bid :=
  let div := s.tickDiv
  let qs := s.quadsOf b
  let b := { b with quads := qs }
  let quad (id : Nat) : Option Nat := (qs.find? (fun x => x.1 == id)).map (·.2)
  let b := (b.file.edges.zipIdx).foldl (fun b x => b.check (!(x.1.analog && quad x.1.frm != quad x.1.to_)) 1 x.2) b
  let b := (b.kind 1).foldl (fun b e => b.place div e e.pin) b
  let b := (b.kind 2).foldl (fun b e => match quad e.id with
    | none => (b.place div e 0xFFFF).fail 1 e.id
    | some q =>
      let us := if e.pin / 0x1000 = 7 then [e.pin] else (List.range 8).map (0x7000 + 8 * q + ·)
      b.choose div e 8 (us.filter (fun u => !s.taken b u))) b
  let b := (b.kind 6).foldl (fun b e => match quad e.id with
    | none => (b.place div e 0xFFFF).fail 0xA e.id
    | some q =>
      let twice := b.elems.any (fun x => x.el.kind == 6 && x.unit == 0x1000 + q)
      (b.choose div e 0xA ([0x1000 + q].filter (fun _ => !s.dacClaimed b.fn b.handle q))).check (!twice) 0xA e.id) b
  (b.kind 7).foldl (fun b e => b.place div e e.pin) b

/-- The terminal of an analogue port of a placed element (R68). -/
def termOf (e : PlacedElem) (port : Nat) : Nat :=
  match e.el.kind with
  | 1 => (match port with | 0 => 0 | 1 => 8 | _ => 4) + e.unit % 4
  | 2 => 24 + 5 * (e.unit % 8) + port
  | _ => 12

/-- The analogue edges of a version in quad `q`, as wire, driver terminal, load terminal and edge index. -/
def wiring (elems : List PlacedElem) (edges : List PlacedEdge) (q : Nat) : List (Nat × Nat × Nat × Nat) :=
  (edges.zipIdx).filterMap (fun x =>
    if !x.1.ed.analog then none
    else match elems.find? (fun e => e.el.id == x.1.ed.frm), elems.find? (fun e => e.el.id == x.1.ed.to_) with
      | some a, some b => if a.quad = some q then some (x.1.wire, termOf a x.1.ed.fromPort, termOf b x.1.ed.toPort, x.2) else none
      | _, _ => none)

/-- The wire that a load terminal is on. -/
def wireWith (ws : List Wire) (t : Nat) : Option Nat := lowest 32 (fun w => bitOf (wireLoads (ws.getD w (0, 0))) (loadBit t) == 1)

/-- The matrix commands that bring a version into force on given wires of quad `q`, each with the item it serves: connections of
edges that are gone are opened, the load of a path that moves is freed, then the new connections and direct paths are made; what the
version before had already is left untouched (R70, R274, R280). -/
def connectPlan (ws : List Wire) (q : Nat) (oldE : List PlacedElem) (oldD : List PlacedEdge) (newE : List PlacedElem)
    (newD : List PlacedEdge) : List (MxCmd × Nat) :=
  let a := wiring oldE oldD q
  let b := wiring newE newD q
  let gone := a.filter (fun x => !b.any (fun y => y.1 == x.1 && y.2.1 == x.2.1 && y.2.2.1 == x.2.2.1))
  let open_ := gone.flatMap (fun x => (⟨1, x.1, x.2.2.1⟩, noItem)
    :: (if b.any (fun y => y.1 == x.1 && y.2.1 == x.2.1) then [] else [((⟨1, x.1, x.2.1⟩ : MxCmd), noItem)]))
  let ws1 := wiresDo ws (open_.map (·.1))
  let target (l : List (Nat × Nat × Nat × Nat)) (e : PlacedElem) : Nat :=
    ((l.find? (fun x => x.2.2.1 == 4 + e.unit % 4)).map (·.1)).getD (e.unit % 4)
  let chans := newE.filter (fun e => e.el.kind == 1 && e.quad == some q
    && !oldE.any (fun o => o.el.kind == 1 && o.unit == e.unit && target a o == target b e))
  let direct := chans.filter (fun e => !newD.any (fun d => d.ed.analog && d.ed.to_ == e.el.id && d.ed.toPort == 2))
  let frees := chans.filterMap (fun e => match wireWith ws1 (4 + e.unit % 4) with
    | some w => if w = target b e then none else some ((⟨1, w, 4 + e.unit % 4⟩ : MxCmd), e.el.id)
    | none => none)
  let joins := (b.filter (fun x => !a.any (fun y => y.1 == x.1 && y.2.1 == x.2.1 && y.2.2.1 == x.2.2.1))).flatMap (fun x => [((⟨0, x.1, x.2.1⟩ : MxCmd), x.2.2.2), (⟨0, x.1, x.2.2.1⟩, x.2.2.2)])
  let paths := direct.flatMap (fun e => [((⟨0, e.unit % 4, e.unit % 4⟩ : MxCmd), e.el.id), (⟨0, e.unit % 4, 4 + e.unit % 4⟩, e.el.id)])
  open_ ++ frees ++ joins ++ paths

/-- Commands judged one after another on wires (R69): the wires, and the items refused. -/
def judgeCmds (ws : List Wire) : List (MxCmd × Nat) → List Wire × List Nat
  | [] => (ws, [])
  | (c, i) :: rest =>
    if connectError ws c = 0 then judgeCmds (wiresDo ws [c]) rest
    else let (w, is) := judgeCmds ws rest; (w, i :: is)

/-- The wires of a quad as commands queued and graphs not yet in force will leave them. -/
def State.plannedWires (s : State) (q : Nat) : List Wire :=
  let ws := wiresDo (s.wires q) (s.mxQueue q)
  s.graphs.foldl (fun ws (g : Graph) =>
    let ws := if g.phase = .admitted then (judgeCmds ws (connectPlan ws q [] [] g.elems g.edges)).1 else ws
    match g.change with
      | some c => (judgeCmds ws (connectPlan ws q g.elems g.edges c.elems c.edges)).1
      | none => ws) ws

/-- The wires that graphs hold in quad `q`. -/
def State.graphWires (s : State) (q : Nat) : List Nat :=
  s.graphs.flatMap (fun g => (wiring g.elems g.edges q).map (·.1)
    ++ ((g.change.map (fun c => (wiring c.elems c.edges q).map (·.1))).getD []))

/-- An edge as it is first placed. -/
def blankEdge (ed : Edge) (words units : Nat) : PlacedEdge := ⟨ed, words, units, 0, 0xFFFF, 0xFFFF, [], 0, 0, 0, 0, false⟩

/-- The edge of the old version that an analogue edge continues. -/
def Bid.keptWire (b : Bid) (ed : Edge) : Option PlacedEdge :=
  b.oldEdges.find? (fun o => o.ed.analog && o.ed.frm == ed.frm && o.ed.fromPort == ed.fromPort && o.ed.to_ == ed.to_
    && o.ed.toPort == ed.toPort && [ed.frm, ed.to_].all (fun i =>
      (b.old.find? (fun e => e.el.id == i)).map (·.unit) == (b.at_ i).map (·.unit)))

/-- Wires given to the analogue edges (R274): an edge joins a wire of its driver with room for a load, or the lowest free one. -/
def State.placeWires (s : State) (b : Bid) : Bid :=
  let b := (b.file.edges.zipIdx).foldl (fun b (x : Edge × Nat) =>
    let ed := x.1
    if !ed.analog then { b with edges := b.edges ++ [blankEdge ed 0 0] }
    else match b.keptWire ed, (b.at_ ed.frm).bind PlacedElem.quad with
      | some o, _ => { b with edges := b.edges ++ [{ blankEdge ed 0 0 with wire := o.wire, since := o.since }] }
      | none, none => { b with edges := b.edges ++ [blankEdge ed 0 0] }
      | none, some q =>
        let mine := b.edges.filter (fun d => d.ed.analog && ((b.at_ d.ed.frm).bind PlacedElem.quad) == some q)
        let ws := s.plannedWires q
        let load (w : Nat) := (mine.filter (fun d => d.wire == w)).length
        let own := (mine.filter (fun d => d.ed.frm == ed.frm && d.ed.fromPort == ed.fromPort && decide (load d.wire < 4))).map (·.wire)
        let free := (List.range 27).filterMap (fun i =>
          let w := 4 + i
          if ws.getD w (0, 0) == (0, 0) && !(s.graphWires q).contains w && load w == 0 then some w else none)
        match own ++ free with
        | w :: _ => { b with edges := b.edges ++ [{ blankEdge ed 0 0 with wire := w }] }
        | [] => ({ b with edges := b.edges ++ [blankEdge ed 0 0] }).fail 8 x.2) b
  let qs := (b.elems.filterMap PlacedElem.quad ++ b.old.filterMap PlacedElem.quad).eraseDups
  qs.foldl (fun b q =>
    let ws := s.plannedWires q
    let bad := (judgeCmds ws (connectPlan ws q b.old b.oldEdges b.elems b.edges)).2
    bad.foldl (fun b i => b.fail 8 i) b) b

/-! ### Slices, DAC, guard (R93, R143) -/

/-- The other admitted graphs. -/
def State.others (s : State) (b : Bid) : List Graph := s.graphs.filter (fun g => !(g.fn == b.fn && g.handle == b.handle))

/-- The SOURCE elements of a list in quad `q`. -/
def sourcesIn (l : List PlacedElem) (q : Nat) : List PlacedElem := l.filter (fun e => e.el.kind == 1 && e.quad == some q)

/-- The slices that a list of elements takes in quad `q`. -/
def slicesTaken (l : List PlacedElem) (q : Nat) : Nat := ((sourcesIn l q).map (fun x => x.el.p 2)).foldl (· + ·) 0

/-- The slices that a graph takes in quad `q`: as it stands or as a waiting change has it, whichever is more. -/
def Graph.slicesTaken (g : Graph) (q : Nat) : Nat :=
  max (Machine.slicesTaken g.elems q) ((g.change.map (fun c => Machine.slicesTaken c.elems q)).getD 0)

/-- Whether quad `q` can give `n` slices beside those that some graphs take (R93). -/
def State.slicesFit (s : State) (gs : List Graph) (q n : Nat) : Bool :=
  let sum := n + (gs.map (fun g => g.slicesTaken q)).foldl (· + ·) 0
  decide (sum ≤ 32 ∧ sum + 1 ≤ countBelow (fun i => s.sliceState q i != 4) 36)

/-- SLICES. -/
def State.checkSlices (s : State) (b : Bid) : Bid :=
  let theirs := (s.others b).flatMap Graph.allElems
  let b := (sourcesIn b.elems 0 ++ (List.range 15).flatMap (fun q => sourcesIn b.elems (q + 1))).foldl (fun b e =>
    b.check (!theirs.any (fun x => x.el.kind == 1 && x.unit == e.unit)
      && !b.elems.any (fun x => x.el.kind == 1 && x.unit == e.unit && decide (x.el.id < e.el.id))) 9 e.el.id) b
  foldBelow (fun q b =>
    match sourcesIn b.elems q with
    | [] => b
    | e :: es =>
      let id := es.foldl (fun m x => min m x.el.id) e.el.id
      b.check (s.slicesFit (s.others b) q (slicesTaken b.elems q)) 9 id) s.part.quads b

/-- Whether a guard band suits an opted channel (R143, R54). -/
def guardFits (hi : Nat) (e : Elem) : Bool :=
  decide (hi ≤ 50000 * e.p 2) && chCtrl_INSEL.get (e.w 0) != 1
    && (chCtrl_AAF_EN.get (e.w 0) == 0 || decide ((10 * hi) ^ 63 ≤ 80000 ^ 63 * 80 ^ chCtrl_FC.get (e.w 0)))

/-- GUARD. -/
def State.checkGuards (s : State) (b : Bid) : Bid :=
  let theirs := (s.others b).flatMap Graph.allElems
  b.elems.foldl (fun b g =>
    if g.el.kind ≠ 7 then b
    else
      let q := g.unit % 0x1000
      let opted := (sourcesIn (b.elems ++ theirs) q).filter (fun e => bitOf (e.el.p 3) 0 == 1)
      let other := (b.elems ++ theirs).filter (fun e => e.el.kind == 7 && e.unit == g.unit)
      b.check (decide (100 ≤ g.el.p 0 ∧ g.el.p 0 + 100 ≤ g.el.p 1) && opted.all (fun e => guardFits (g.el.p 1) e.el)
        && other.length == 1) 0xB g.el.id) b

/-! ### Chains, tasks, saggers (R181, R194, R270, R272) -/

/-- Whether a chain may be given to a graph. The chains of the bisque service count as free: the service stops where the first
graph starts (R535), and no budget counts it (R269). -/
def State.chainFree (s : State) (b : Bid) (n : Nat) : Bool :=
  s.hasChain n && !s.taken b (0x3000 + n) && ((s.chainState n == 0 && s.ownChain n == 15)
    || (s.boot.bisque && (List.range s.part.quads).any (fun q => s.part.bisqueChain q == n && s.fld (bisqueCh q) bisqueCh_STATE != 3)))

/-- The units of a kind that count against its budget: those of every graph and of the bid. -/
def State.unitsUsed (s : State) (b : Bid) (k : Nat) : Nat :=
  ((((s.graphs.flatMap Graph.allElems ++ b.elems).filter (fun e => e.el.kind == k)).map (·.unit)).eraseDups).length

/-- CHAINS and CHAIN_SET: the element that exceeds the budget of R270 is the one that fails. -/
def State.placeChains (s : State) (b : Bid) : Bid :=
  let div := s.tickDiv
  let b := (b.kind 3).foldl (fun b e =>
    let b := b.choose div e 0xC ((if e.pinned then [e.pin % 0x1000] else List.range s.part.chains).filterMap (fun n =>
      if s.chainFree b n then some (0x3000 + n) else none))
    b.check (decide (s.unitsUsed b 3 ≤ if s.part = .ka3216C then 38 else 76)) 0xC e.id) b
  (b.kind 3).foldl (fun b e =>
    let src := (b.file.sourceOf e.id).map (fun x => x.pin % 0x1000)
    b.check (decide (chainGain_GAIN_SH.get (e.w 3) ≤ 8) && (src.map (fun c =>
      startError s.part (e.w 0) (firCtrl_TAPS.get (e.w 4)) c (b.file.chainInputs div e.id) div == 0)).getD false) 0xD e.id) b

/-- Whether a core holds nothing and may be given to a graph: OFF or SPARE. -/
def State.coreFree (s : State) (b : Bid) (n : Nat) : Bool :=
  s.hasCore n && decide (s.coreState n ≤ 1) && !s.taken b (0x4000 + n)

/-- The clusters of the part. -/
def Part.clusters (p : Part) : Nat := (p.cores + 7) / 8

/-- The spares that the Wheel keeps, and the most cores it places on (R3, R194). -/
def Part.spares (p : Part) : Nat := if p = .ka3216C then 4 else 8

/-- Whether a cluster counts as powered for a bid: it is on, or a unit of a graph or of the bid lies in it. -/
def State.clusterOn (s : State) (b : Bid) (g : Nat) : Bool :=
  s.powerOf (32 + g) == .on || (s.graphs.flatMap Graph.allElems ++ b.elems).any (fun e => e.el.kind == 4 && e.unit % 0x1000 / 8 == g && e.unit != 0xFFFF)

/-- The free cores of powered clusters. -/
def State.freeCores (s : State) (b : Bid) : List Nat :=
  (List.range s.part.cores).filter (fun n => s.clusterOn b (n / 8) && s.coreFree b n)

/-- The free cores of a cluster. -/
def State.coresIn (s : State) (b : Bid) (g : Nat) : List Nat :=
  ((List.range 8).map (8 * g + ·)).filter (s.coreFree b)

/-- The core for a task (R274). -/
def State.coreFor (s : State) (b : Bid) (e : Elem) : List Nat :=
  if e.pin / 0x1000 = 4 then [e.pin % 0x1000].filter (s.coreFree b)
  else if e.pin / 0x1000 = 5 then s.coresIn b (e.pin % 0x1000)
  else
    let f := s.freeCores b
    if s.part.spares < f.length then f.take 1
    else match lowest s.part.clusters (fun g => !s.clusterOn b g && !(s.coresIn b g).isEmpty) with
      | some g => s.coresIn b g
      | none => []

/-- CORES, CYCLES and CORE_MEM. Clusters that are OFF count towards the spares of R194: the Wheel powers them as it must. -/
def State.placeTasks (s : State) (b : Bid) : Bid :=
  let div := s.tickDiv
  let b := (b.kind 4).foldl (fun b e =>
    let b := b.choose div e 0xE ((s.coreFor b e).map (0x4000 + ·))
    b.check (decide (s.unitsUsed b 4 + s.part.spares ≤ s.part.cores)
      && decide (s.part.spares ≤ ((List.range s.part.cores).filter (s.coreFree b)).length)) 0xE e.id) b
  (b.kind 4).foldl (fun b e =>
    let n : Nat := ((e.image (usedPorts b.file.edges e.id)).map (fun m => m.prog.length)).getD 0
    let b := b.check (decide (e.p 0 ≤ s.budget)) 0xF e.id
    b.check (decide (n ≤ 16384 ∧ b.file.memNeed div e false ≤ 32768
      ∧ b.file.memNeed div e true ≤ 32768 ∧ e.p 1 + e.p 2 ≤ 8192)) 0x10 e.id) b

/-- The pins that carry the fabric alternates of a sagger's 28 pin ports (R294, R319). -/
def State.fabricPins (s : State) (g : Nat) : List Nat :=
  ((List.range 28).map (28 * g + ·)).filter (fun p =>
    let a := s.fld (pinCfg (p / 32) (p % 32)) pinCfg_ALT
    decide (6 ≤ a ∧ a ≤ 11))

/-- SAGGER and PINS. -/
def State.placeFabric (s : State) (b : Bid) : Bid :=
  let b := (b.kind 5).foldl (fun b e =>
    let cand := if e.pinned then [e.pin % 0x1000] else List.range s.part.saggers
    b.choose s.tickDiv e 0x11 ((cand.filter (fun g => s.saggerState g == 3 && s.ownSagger g == 15 && !s.taken b (0x6000 + g)
      && (s.reg (funcId g)).toNat == e.p 0)).map (0x6000 + ·))) b
  b.elems.foldl (fun b e => if e.el.kind = 5 ∧ e.unit ≠ 0xFFFF then
      b.check ((s.fabricPins (e.unit % 0x1000)).all (fun p => s.ownPin p == b.fn + 1 || !(1 ≤ s.ownPin p && s.ownPin p ≤ 8))) 0x12 e.el.id
    else b) b

/-! ### Routes (R269, R271, R274, R275, R381) -/

/-- The streams that count against budgets: those of every other graph, of waiting changes, and of a bid. -/
def State.budgetEdges (s : State) (b : Bid) : List PlacedEdge :=
  (s.others b).flatMap Graph.netEdges ++ b.edges.filter PlacedEdge.onNet

/-- The streams whose table entries and numbers are in use beside those: of the version before, and of what is still to be released. -/
def State.heldEdges (s : State) (b : Bid) : List PlacedEdge := b.oldEdges.filter PlacedEdge.onNet ++ s.leavingEdges

/-- A stream given a route (R275): along x first or, where that fails, along y first; with a table entry and a number. The code
of the first check that fails, or the edge. `held` are streams that use entries and numbers beside those that count. -/
def State.routeEdge (s : State) (edges held : List PlacedEdge) (e : PlacedEdge) (src dst : Nat) : Sum Nat PlacedEdge :=
  let paths := [hopsOf src dst false, hopsOf src dst true]
  let opened := paths.filter (fun h => s.routeOpen (linksOf src h))
  let fit := opened.filter (fun h => s.linksFit edges (linksOf src h) e.units)
  match lowestFree 240 (((edges ++ held).filter (fun d => d.src == src)).map (·.entry)) with
  | none => .inl 0x13
  | some n =>
    if opened.isEmpty then .inl 0x13
    else if niGrants dst < 130 * (boundAt edges dst + 1) then (if fit.isEmpty then .inl 0x14 else .inl 0x15)
    else match fit with
      | [] => .inl 0x14
      | h :: _ =>
        let k := (lowestFree 0x8000 (((edges ++ held).filter (fun d => d.dst == dst)).map (·.num))).getD 0
        .inr { e with src := src, dst := dst, hops := h, entry := n, num := k }

/-- The NI from which a port sends. -/
def srcNi (e : PlacedElem) (port : Nat) : Nat :=
  let i := e.unit % 0x1000
  match e.el.kind with
  | 1 => niQuad (i / 4)
  | 3 => niChain i
  | 4 => niCore i
  | _ => niSagger i (if port < 24 then 0 else 1)

/-- The NI to which a port listens, where its unit alone says so. -/
def dstNi (fn : Nat) (e : PlacedElem) (port : Nat) : Nat :=
  let i := e.unit % 0x1000
  match e.el.kind with
  | 4 => niCore i
  | 5 => niSagger i (if port < 8 then 0 else 1)
  | 6 => niQuad i
  | _ => niEngine (2 * fn + i / 8)

/-- Whether a chip link carries streams (R28, R391). -/
def State.linkActive (s : State) (l : Nat) : Bool := s.fld (xlStatus l) xlStatus_STATE == 3

/-- The bytes that edges put on a chip link, outward or inward (R390). -/
def linkBytes (edges : List PlacedEdge) (l : Nat) (out : Bool) : Nat :=
  40 * ((edges.filter (fun e => if out then e.dst == niLink l else e.src == niLink l)).map (·.units)).foldl (· + ·) 0

/-- The first of some NIs that gives an edge a route: the edge, or the code of the first check that failed for the first of them. -/
def firstRoute (code : Nat) : List (Sum Nat PlacedEdge) → Sum Nat PlacedEdge
  | [] => .inl code
  | .inr e :: _ => .inr e
  | .inl c :: rest => match firstRoute c rest with | .inr e => .inr e | .inl _ => .inl c

/-- Whether a placed edge goes over a chip link that carries no traffic (R28). -/
def State.linkShut (s : State) (e : PlacedEdge) : Bool :=
  (List.range 4).any (fun l => (e.src == niLink l || e.dst == niLink l) && !s.linkActive l)

/-- The old edge whose route an edge keeps: the same ports on the same units, with as many units per tick, not stopped, and over no chip
link that carries no traffic. -/
def State.keptRoute (s : State) (b : Bid) (e : PlacedEdge) : Option PlacedEdge :=
  b.oldEdges.find? (fun o => o.onNet && !s.linkShut o && o.sameEdge e && o.units == e.units
    && [e.ed.frm, e.ed.to_].all (fun i => (b.old.find? (fun x => x.el.id == i)).map (·.unit) == (b.at_ i).map (·.unit)))

/-- A digital edge of a version placed; for one over a chip link that no link of the pair carries, the code is XLINK (R389). -/
def State.placeRoute (s : State) (b : Bid) (e : PlacedEdge) (x y : PlacedElem) : Sum Nat PlacedEdge :=
  let edges := s.budgetEdges b
  let to_ (src dst : Nat) := s.routeEdge edges (s.heldEdges b) e src dst
  if x.el.kind = 11 then
    firstRoute 0x16 (((s.linkPair (x.el.p 0)).filter (fun l => s.linkActive l
      && decide (linkBytes edges l false + 40 * e.units ≤ 272 * s.tickDiv))).map (fun l =>
        match to_ (niLink l) (dstNi b.fn y e.ed.toPort) with
        | .inr d => .inr { d with tag := x.el.p 1 }
        | .inl _ => .inl 0x16))
  else if y.el.kind = 10 then
    firstRoute 0x16 (((s.linkPair (y.el.p 0)).filter (fun l => s.linkActive l
      && decide (linkBytes edges l true + 40 * e.units ≤ 272 * s.tickDiv))).map (fun l =>
        match to_ (srcNi x e.ed.fromPort) (niLink l) with
        | .inr d => .inr { d with tag := y.el.p 1 }
        | .inl _ => .inl 0x16))
  else if y.el.kind = 8 then
    firstRoute 0x13 ((List.range 16).map (fun i => to_ (srcNi x e.ed.fromPort) (niPort (16 * (y.unit % 0x1000) + i))))
  else to_ (srcNi x e.ed.fromPort) (dstNi b.fn y e.ed.toPort)

/-- A digital edge of a version with its words and units per tick, before it has a route. -/
def State.sizeEdge (s : State) (b : Bid) (e : PlacedEdge) : PlacedEdge :=
  if e.ed.analog then e
  else
    let w := b.file.wordsOf s.tickDiv e.ed
    { e with words := w, units := if b.file.routed e.ed then unitsFor w (if b.file.rawEdge e.ed then 16 else 8) else 0 }

/-- ROUTE, LINK, BUFFERS and XLINK: the edges that keep their routes count first, and the others are placed in table order. -/
def State.placeRoutes (s : State) (b : Bid) : Bid :=
  let sized := b.edges.map (s.sizeEdge b)
  let kept := sized.map (fun e => if b.file.routed e.ed then (s.keptRoute b e).map (fun o => { o with ed := e.ed, words := e.words }) else none)
  let stay := kept.filterMap id
  let (b, placed) := ((sized.zip kept).zipIdx).foldl (fun (a : Bid × List PlacedEdge) x =>
    let (b, placed) := a
    let ((e, k), i) := x
    match k with
    | some o => (b, placed ++ [o])
    | none =>
      if !b.file.routed e.ed then (b, placed ++ [e])
      else match b.at_ e.ed.frm, b.at_ e.ed.to_ with
        | some p, some q =>
          let new := placed.filter (fun d => !stay.contains d)
          (match s.placeRoute { b with edges := stay ++ new } e p q with
           | .inr d => (b, placed ++ [d])
           | .inl c => (b.fail c i, placed ++ [e]))
        | _, _ => (b, placed ++ [e])) (b, [])
  { b with edges := placed }

/-! ### Capture memory, rings, remote devices (R269, R400, R406) -/

/-- Bytes per tick that an edge writes to capture memory, marks included (R400, R408). -/
def captureBytes (raw : Bool) (words : Nat) : Nat := if raw then 2 * words + (2 * words + 63) / 64 else 4 * words

/-- The capture bytes of a graph's edges on a stack. -/
def capLoad (elems : List PlacedElem) (edges : List PlacedEdge) (st : Nat) : Nat :=
  ((edges.filter (fun e => elems.any (fun x => x.el.id == e.ed.to_ && x.el.kind == 8 && x.unit == 0x8000 + st))).map (fun e =>
    captureBytes (e.ed.fromPort == 4 && elems.any (fun x => x.el.id == e.ed.frm && x.el.kind == 1)) e.words)).foldl (· + ·) 0

/-- The bytes per tick that other graphs record on a stack. -/
def State.theirLoad (s : State) (b : Bid) (st : Nat) : Nat :=
  ((s.others b).map (fun g => max (capLoad g.elems g.edges st) ((g.change.map (fun c => capLoad c.elems c.edges st)).getD 0))).foldl (· + ·) 0

/-- MEM_BW. -/
def State.checkMem (s : State) (b : Bid) : Bid :=
  foldBelow (fun st b =>
    match b.elems.find? (fun x => x.el.kind == 8 && x.unit == 0x8000 + st) with
    | none => b
    | some x =>
      b.check (decide (s.theirLoad b st + capLoad b.elems b.edges st ≤ 6144 * s.tickDiv)) 0x17 x.el.id) 2 b

/-- Whether a CAPTURE element records a raw tap. -/
def Bid.rawCapture (b : Bid) (id : Nat) : Bool := b.file.edges.any (fun e => e.to_ == id && b.file.rawEdge e)

/-- The bytes per tick that a CAPTURE element of a bid records. -/
def State.captureLoad (s : State) (b : Bid) (id : Nat) : Nat :=
  ((b.file.edges.filter (fun e => e.to_ == id)).map (fun e => captureBytes (b.file.rawEdge e) (b.file.wordsOf s.tickDiv e))).foldl (· + ·) 0

/-- Whether a stack can take a capture stream of `n` segments: the runs of R406 and a stream number are free. -/
def State.stackFits (s : State) (st n : Nat) (raw : Bool) (u : State) (k : Nat) : Bool :=
  (lowest 256 s.capFree).isSome && (s.findRun st n).isSome && (!raw || decide ((u.reg (markSeg k)).toNat ≠ 0x7FFFF)) && decide (0 < n)

/-- SEGMENTS: the CAPTURE elements placed and the new streams reserved one by one (R406); the state with them reserved, and the bid with
their numbers. One that is not pinned goes to the lowest-numbered stack that can take it (R274; DEDUCED, log entry 76). -/
def State.placeCaptures (s : State) (b : Bid) : State × Bid :=
  (b.kind 8).foldl (fun (a : State × Bid) e =>
    let (t, b) := a
    match b.kept s.tickDiv e with
    | some o => (t, b.place s.tickDiv e o.unit)
    | none =>
      let raw := b.rawCapture e.id
      let edge := ((b.file.edges.zipIdx).find? (fun x => x.1.to_ == e.id)).map (·.2)
      let k := (lowest 256 t.capFree).getD 0
      let take (st : Nat) : State := t.reserveCap k b.fn b.handle (edge.getD noItem) st (e.p 0) (e.p 1 == 1) raw
      let fits (st : Nat) : Bool := t.stackFits st (e.p 0) raw (take st) k
      let mine (st : Nat) : Nat := ((b.elems.filter (fun x => x.el.kind == 8 && x.unit == 0x8000 + st)).map (fun x => s.captureLoad b x.el.id)).foldl (· + ·) 0
      let room (st : Nat) : Bool := decide (s.theirLoad b st + mine st + s.captureLoad b e.id ≤ 6144 * s.tickDiv)
      let sts := if e.pinned then [e.pin % 0x1000] else [0, 1]
      match ((sts.filter (fun st => fits st && room st)) ++ sts.filter fits).head? with
      | some st =>
        let b := b.place s.tickDiv e (0x8000 + st)
        (take st, { b with elems := b.elems.map (fun x => if x.el.id = e.id then { x with stream := k } else x) })
      | none => (t, (b.place s.tickDiv e (0x8000 + sts.headD 0)).fail 0x18 e.id)) (s, b)

/-- HOST and remote elements placed: their units need no search. -/
def State.placeSinks (s : State) (b : Bid) : Bid :=
  let div := s.tickDiv
  let b := (b.kind 9).foldl (fun b e => b.choose div e 0x19 [0x9000 + e.p 0]) b
  (b.kind 10 ++ b.kind 11).foldl (fun b e => b.place div e 0xFFFF) b

/-- RING. -/
def State.checkRings (s : State) (b : Bid) : Bid :=
  b.elems.foldl (fun b e => if e.el.kind = 9 then
      b.check (s.bit (dataCtrl b.fn (e.unit % 0x1000)) dataCtrl_EN) 0x19 e.el.id else b) b

/-! ### The earliest tick (R277, R281) -/

/-- The boundaries that a number of periods takes, rounded up. -/
def State.ticksFor (s : State) (n : Nat) : Nat := (n + s.tickLength - 1) / max 1 s.tickLength

/-- The boundaries from d + 1 on until the reference buffer of a quad is READY. -/
def State.refWait (s : State) (q : Nat) : Nat :=
  if s.refReady q && s.powerOf q == .on then 0
  else if s.bit (refbufCtrl q) refbufCtrl_EN && s.powerOf q == .on then
    s.ticksFor (FMap.get (fun _ => 0) s.ana.refOn q + 400000 - (s.tickStart + s.tickLength))
  else s.ticksFor 400000

/-- The ticks for which a new chain runs before it takes over (R186). -/
def Bid.lead (b : Bid) (div : Nat) (e : Elem) : Nat :=
  let i := b.file.chainInputs div e.id
  max 1 ((chainSpanOf (e.w 0) (firCtrl_TAPS.get (e.w 4)) - 1 + i - 1) / max 1 i)

/-- The new chains of a change, which are started early (R281): unit number and lead. -/
def Bid.early (b : Bid) (div : Nat) : List (Nat × Nat) :=
  b.elems.filterMap (fun e => if e.el.kind = 3 ∧ (b.kept div e.el).isNone ∧ !b.old.isEmpty
    then some (e.unit % 0x1000, b.lead div e.el) else none)

/-- E for a version decided now. -/
def State.earliest (s : State) (b : Bid) : Nat :=
  let d := s.time.tick
  let quads := (b.elems.filterMap PlacedElem.quad).eraseDups
  let refs := quads.foldl (fun m q => max m (d + 2 + s.refWait q)) (d + 2)
  let loads := if b.elems.any (fun e => e.el.kind == 4 && (b.kept s.tickDiv e.el).isNone) then d + 2 + 16000 / max 1 s.tickLength else 0
  (b.early s.tickDiv).foldl (fun m x => max m (d + 2 + x.2)) (max refs loads)

/-- The result of R269 for a bid: the lowest code that failed, with the first item that failed it (R267), in the order of R274. -/
def Bid.verdict (b : Bid) : Option (Nat × Nat) :=
  ((b.errs.map (·.1)).min?).bind (fun c => b.errs.find? (fun e => e.1 == c))

/-- A version judged and placed (R269): the state with its capture streams reserved, and the bid. `submit` says whether it is a
new graph; `busy` whether a change is still waiting. -/
def State.judgeGraph (s : State) (b : Bid) (submit busy : Bool) : State × Bid :=
  let b := b.check (b.file.idcode == s.part.idcode) 2 noItem
  let b := b.check (b.file.tickDiv == s.tickDiv && (FMap.get (fun _ => none) s.rwtOld tickCtrl).isNone) 3 noItem
  let b := s.checkPins b
  let b := b.check (s.wheel.ready || !submit) 6 noItem
  let b := b.check (!busy) 7 noItem
  let b := s.placeAnalog b
  let b := s.placeWires b
  let b := s.checkGuards (s.checkSlices b)
  let b := s.placeFabric (s.placeTasks (s.placeChains b))
  let (t, b) := s.placeCaptures b
  let b := s.placeRoutes (s.placeSinks b)
  (t, s.checkRings (s.checkMem b))

end Sys2Proof.Machine
end

