-- ==== Sys2Proof/Machine/Wheel.lean ====
section
/-! DEFINITION. The Wheel's commands and what it does at boundaries: start, change, stop, heat, reroutes and the placement map
(09_placement_and_graphs.md, R265–R293). -/

namespace Sys2Proof.Machine

open Regs

/-! ### Graphs held -/

/-- The graph that a function holds under a handle (R265). -/
def State.graphAt (s : State) (f h : Nat) : Option Graph := s.graphs.find? (fun g => g.fn == f && g.handle == h)

/-- A graph put in the place of the one with its function and handle, or added. -/
def State.putGraph (s : State) (g : Graph) : State :=
  { s with wheel := { s.wheel with
      graphs := s.wheel.graphs.filter (fun x => !(x.fn == g.fn && x.handle == g.handle)) ++ [g] } }

/-- A graph file as a version holds it. -/
def versionFile (elems : List PlacedElem) (edges : List PlacedEdge) : GraphFile := ⟨0, 0, elems.map (·.el), edges.map (·.ed)⟩

/-- An event of the Wheel (R293): ARG0 the handle, ARG1 the element or edge, ARG2 a code or a tick. -/
def State.wheelEvent (s : State) (f h reason item x : Nat) : State := s.raise 858 reason [h, item, x % 0x100000000] (f + 1)

/-- Whether it is the turn of the function's graph command (R266): none read at an earlier boundary, nor at the same one by a
lower function, is waiting. -/
def State.wheelTurn (s : State) (f : Nat) (d : HostDesc) : Bool :=
  (List.range 8).all (fun g => g == f || (s.fn g).silent
    || (((s.fn g).cmds.find? (fun x => x.ring == 0 && codeKind x.code == 1)).all (fun x =>
      decide (d.readAt < x.readAt ∨ (d.readAt = x.readAt ∧ f < g)))))

/-- A command of the Wheel, carried out when its turn has come; a ROM that is alone answers `alone`. -/
def State.wheelCommand (s : State) (f code : Nat) (alone run : HostDesc → State) : Result :=
  .next (match s.nextDesc f code with
    | none => s
    | some d =>
      if !s.wheelTurn f d then s
      else if s.romAlone && !romAccepts code then alone d
      else run d)

/-! ### Submit and change (R265–R269, R277) -/

/-- A refusal (R267): the completion with its code and item, and REFUSED. -/
def State.refuseGraph (s : State) (f : Nat) (d : HostDesc) (code item len : Nat) : State :=
  (s.completeDesc f d 7 code item len 0).wheelEvent f (d.param 0 % 0x100) 2 item code

/-- A graph command that fails a check of its descriptor (R267, R436, R438): its completion names no item, and REFUSED no check (DESIGN
CHOICE, log entry 79). -/
def State.rejectGraph (s : State) (f : Nat) (d : HostDesc) (status : Nat) : State :=
  (s.completeDesc f d status 0 noItem 0 s.time.tick).wheelEvent f (d.param 0 % 0x100) 2 noItem 0

/-- A graph command judged by the common rules when its turn has come; a ROM that is alone refuses it with code BISQUE and REFUSED (R267,
R525). -/
def State.graphCommand (s : State) (f code : Nat) (run : HostDesc → State) : Result :=
  s.wheelCommand f code (fun d => (s.completeDesc f d 7 6 noItem 0 s.time.tick).wheelEvent f (d.param 0 % 0x100) 2 noItem 6) (fun d => if d.judge f = 0 then run d else s.rejectGraph f d (d.judge f))

/-- The HBM domain powered for a graph that captures (R402). -/
def State.wakeHbm (s : State) (elems : List PlacedElem) : State :=
  if elems.any (fun e => e.el.kind == 8) && s.powerOf 41 != .on then s.setPower 41 .on else s

/-- A placed version admitted: a new graph with its start tick, or a change that waits for its tick, whose new chains start as long before
its earliest tick `e` as they need (R281). -/
def State.admitGraph (s : State) (f : Nat) (d : HostDesc) (b : Bid) (old : Option Graph) (e at_ len : Nat) : State :=
  let now := s.time.bounds
  let t := s.wakeHbm b.elems
  let t := match old with
    | none =>
      let t := { t with wheel := { t.wheel with first := t.wheel.first.or (some (f, b.handle)) } }
      t.putGraph ⟨f, b.handle, .admitted, b.elems, b.edges, 1, 0, at_, now, at_, none, none, 0⟩
    | some g =>
      let early : List (Nat × Nat) := b.early s.tickDiv
      let c : Change := ⟨b.elems, b.edges, now, at_, early.map (fun (x : Nat × Nat) => (x.1, e - x.2))⟩
      let ph : Phase := if g.phase = Phase.running then Phase.changing else g.phase
      t.putGraph { g with phase := ph, change := some c }
  (t.writeRemotes.completeDesc f d 0 0 noItem len at_).wheelEvent f b.handle 1 noItem at_

/-- A version decided (R266–R269). A change of a graph whose stop has begun is refused with BUSY, for which the table has no code (DESIGN
CHOICE, log entry 114). -/
def State.decideGraph (s : State) (f : Nat) (d : HostDesc) (bytes : List Byte) (old : Option Graph) : State :=
  let len := leAt bytes 0x0C 4
  if s.boot.hold then s.refuseGraph f d 0x1B noItem len
  else match parseGraph bytes with
    | .inl item => s.refuseGraph f d 1 item len
    | .inr file =>
      let b : Bid := ⟨f, d.param 0 % 0x100, file, (old.map (·.elems)).getD [], (old.map (·.edges)).getD [], [], [], [], []⟩
      let busy := old.any (fun g => g.change.isSome || g.phase == .stopping)
      let (t, b) := s.judgeGraph b old.isNone busy
      match b.verdict with
      | some (code, item) => s.refuseGraph f d code item len
      | none =>
        let e := s.earliest b
        let want := d.tick
        if want ≠ 0 ∧ want < e then s.refuseGraph f d 0x1A noItem len
        else t.admitGraph f d b old e (max e want) len

/-- R438 for a graph: the header is in the buffer, and so is the file that it announces. -/
def graphFits (d : HostDesc) (bytes : List Byte) : Bool := decide (32 ≤ d.length ∧ leAt bytes 0x0C 4 ≤ d.length)

/-- GRAPH_SUBMIT (R265–R269, R436). -/
def execGraphSubmit (f : Nat) (b : List Byte) (s : State) : Result :=
  s.graphCommand f 1 (fun d =>
    let h := d.param 0 % 0x100
    if !graphFits d b then s.rejectGraph f d 3
    else if h = 0 ∨ (s.graphAt f h).isSome then s.rejectGraph f d 2
    else if 4 ≤ (s.graphs.filter (fun g => g.fn == f)).length then s.rejectGraph f d 9
    else s.decideGraph f d b none)

/-- GRAPH_CHANGE (R265, R280, R281). -/
def execGraphChange (f : Nat) (b : List Byte) (s : State) : Result :=
  s.graphCommand f 2 (fun d =>
    if !graphFits d b then s.rejectGraph f d 3
    else match s.graphAt f (d.param 0 % 0x100) with
      | none => s.rejectGraph f d 2
      | some g => s.decideGraph f d b (some g))

/-! ### Cores of the Wheel -/

/-- A core given back (R283, R284): SPARE, with nothing pending (R233). Its owner stays until the release. -/
def State.freeCore (s : State) (n : Nat) : State :=
  let keep := (s.core n).failTick
  if s.coreState n = 4 then s
  else
    let t := (((s.setPend n []).setCore n { idleCore with failTick := keep }).setCoreState n 1).setRunCode n 0
    (t.setFld (dspStatus n) dspStatus_CATCHUP 0).setReg (Regs.wcet n) 0

/-- The cores that a version has and another has not. -/
def coresOnly (a b : List PlacedElem) : List Nat :=
  (a.filter (fun e => e.el.kind == 4 && !b.any (fun x => x.el.kind == 4 && x.unit == e.unit))).map (fun e => e.unit % 0x1000)

/-- A waiting change dropped (R282, R580): its cores, its early chains and its capture streams are given back. -/
def State.dropChange (s : State) (g : Graph) : State :=
  match g.change with
  | none => s
  | some c =>
    let t := (coresOnly c.elems g.elems).foldl (fun t n => if t.coreState n = 2 then t.freeCore n else t) s
    let t := c.early.foldl (fun t x => if t.chainState x.1 = 2 then (t.stopChain x.1).setOwner chainOwner x.1 15 else t) t
    let t := c.elems.foldl (fun t e =>
      if e.el.kind = 8 ∧ !g.elems.any (fun x => x.el.kind == 8 && x.el.id == e.el.id && x.stream == e.stream)
      then t.dropCap e.stream else t) t
    t.putGraph { g with change := none, phase := if g.phase = .changing then .running else g.phase }

/-- Moves of a graph's elements dropped (R580): the cores that were prepared are given back. -/
def State.dropMoves (s : State) (p : Move → Bool) : State :=
  let gone := s.wheel.moves.filter p
  let t := { s with wheel := { s.wheel with moves := s.wheel.moves.filter (fun m => !p m) } }
  gone.foldl (fun t m => if m.new / 0x1000 = 4 && !m.begun && t.coreState (m.new % 0x1000) == 2 then t.freeCore (m.new % 0x1000) else t) t

/-! ### Stop (R282–R284) -/

/-- A graph withdrawn before its start (R284). Where it was the first admitted, the next that waits for its start is that (DESIGN CHOICE,
log entry 112). -/
def State.withdraw (s : State) (g : Graph) : State :=
  let t := s.dropChange g
  let next := (t.graphs.filter (fun x => x.phase == .admitted && !(x.fn == g.fn && x.handle == g.handle))).foldl
    (fun (m : Option Graph) x => if m.any (fun y => decide (y.decided ≤ x.decided)) then m else some x) none
  let t := if t.wheel.first = some (g.fn, g.handle) && !t.boot.started then { t with wheel := { t.wheel with first := next.map (fun x => (x.fn, x.handle)) } } else t
  let t := (coresOnly g.elems []).foldl (fun t n => if t.coreState n = 2 then t.freeCore n else t) t
  let t := g.elems.foldl (fun t e => if e.el.kind = 8 then t.dropCap e.stream else t) t
  { t with wheel := { t.wheel with graphs := t.wheel.graphs.map (fun (x : Graph) =>
      if x.fn = g.fn ∧ x.handle = g.handle then { x with phase := .stopped, change := none } else x) } }

/-- GRAPH_STOP (R267, R282–R284): ADMITTED where it is accepted. A graph that is stopping already keeps its tick. -/
def execGraphStop (f : Nat) (s : State) : Result :=
  s.graphCommand f 3 (fun d =>
    let now := s.time.tick
    let accept (t : State) (h n : Nat) : State := (t.completeDesc f d 0 0 noItem 0 n).wheelEvent f h 1 noItem n
    match s.graphAt f (d.param 0 % 0x100) with
    | none => s.rejectGraph f d 2
    | some g =>
      if g.phase = .admitted then accept (s.withdraw g) g.handle now
      else match g.stopAt with
        | some n => accept s g.handle n
        | none =>
          let n := if d.tick = 0 then now + 2 else d.tick
          if n < now + 2 then s.refuseGraph f d 0x1A noItem 0
          else
            let t := s.dropChange g
            let t := match t.graphAt f g.handle with
              | some g => t.putGraph { g with stopAt := some n }
              | none => t
            accept t g.handle n)

/-- WHEEL_CONFIG (R285, R436): decided when read; the policy comes into force at the next boundary. -/
def execWheelConfig (f : Nat) (s : State) : Result :=
  s.command f 5 (fun d =>
    let p := d.param 0
    let (hot, hyst) := (bitsOf p 15 8, bitsOf p 23 16)
    if hot < 60 ∨ 110 < hot ∨ hyst < 2 ∨ 20 < hyst then s.completeDesc f d 2 0 0 0 s.time.tick
    else ({ s with wheel := { s.wheel with setNext := some (p % 2, hot, hyst) } }).completeDesc f d 0 0 0 0 (s.time.tick + 1))

/-- CORE_LOAD_DONE (R277): the load of a core begun for a graph, a change or a move has ended. -/
def execCoreLoadDone (n : Nat) (s : State) : Result :=
  .next (s.onlyIf (s.hasCore n && s.coreState n == 2 && (s.core n).home.isNone) (s.setCore n { s.core n with loaded := true }))

/-! ### Before a start (R274, R277, R97) -/

/-- A core loaded with a task (R196): it is LOADING until the graph takes it. Its persistent region starts as the images
leave it (R226; DEDUCED, log entry 22). -/
def State.loadCore (s : State) (n : Nat) (k : Task) : State :=
  if 2 ≤ s.coreState n then s
  else ((s.setCore n (idleCore.load k [] []).retain).setCoreState n 2).showTask n k

/-- A cluster powered: its cores become SPARE. -/
def State.powerCluster (s : State) (g : Nat) : State :=
  if s.powerOf (32 + g) = .on then s
  else ((List.range 8).map (8 * g + ·)).foldl (fun t n =>
    if t.hasCore n && t.coreState n == 0 then t.setCoreState n 1 else t) (s.setPower (32 + g) .on)

/-- Clusters powered until enough cores are SPARE (R194). -/
def State.keepSpares (s : State) : Nat → State
  | 0 => s
  | n + 1 =>
    let spare := ((List.range s.part.clusters).flatMap s.sparesOf).length
    if s.part.spares ≤ spare then s
    else match lowest s.part.clusters (fun g => s.powerOf (32 + g) == .off) with
      | some g => (s.powerCluster g).keepSpares n
      | none => s

/-- A quad powered for a graph, with its reference buffer, which starts again where EN was restored to 1 (R75, R82, R87). -/
def State.readyQuad (s : State) (q : Nat) : State :=
  let t := if s.powerOf q = .on then s
    else if s.powerOf q = .draining then s.setPower q .on
    else (s.setPower q .on).setFld (refbufCtrl q) refbufCtrl_EN 0
  t.refOn q

/-- A version prepared at the boundary after its decision: quads, clusters and core loads. -/
def State.prepareVersion (s : State) (fn handle : Nat) (old new : List PlacedElem) (edges : List PlacedEdge) : State :=
  let t := ((new.filterMap PlacedElem.quad).eraseDups).foldl (fun t q => t.readyQuad q) s
  let f := versionFile new edges
  let fresh := new.filter (fun e => e.el.kind == 4 && !old.any (fun x => x.el.kind == 4 && x.unit == e.unit))
  let t := fresh.foldl (fun t e => t.powerCluster (e.unit % 0x1000 / 8)) t
  fresh.foldl (fun t e => t.loadCore (e.unit % 0x1000) (f.task t.tickDiv fn handle e.el)) t

/-- Whether the Wheel keeps spares (R194): from the end of boot on, while firmware runs and no thermal hold keeps the clusters down (R525,
R578; DEDUCED, log entry 17). -/
def State.wheelUp (s : State) : Bool := s.boot.tested && s.bit bootStatus bootStatus_READY && !s.romAlone && !s.boot.hold

/-- The Wheel's work at a boundary for graphs and changes that were decided before it. -/
def State.wheelPrepare (s : State) : State :=
  let now := s.time.bounds
  let t := if s.wheelUp then s.keepSpares 9 else s
  t.graphs.foldl (fun t g =>
    let t := if g.phase = .admitted ∧ g.decided < now then t.prepareVersion g.fn g.handle [] g.elems g.edges else t
    match g.change with
      | some c => if c.decided < now then t.prepareVersion g.fn g.handle g.elems c.elems c.edges else t
      | none => t) t

/-- The slices of a channel in a version. -/
def slicesOf (elems : List PlacedElem) (c : Nat) : Nat :=
  ((elems.find? (fun e => e.el.kind == 1 && e.unit == 0x2000 + c)).map (fun e => e.el.p 2)).getD 0

/-- The positions of a version's channels in a quad that have no slice from the version before: those it adds, and those that stood
unfilled (R91, R113, R591). Each as channel, position, count. -/
def State.openPositions (s : State) (old new : List PlacedElem) (q : Nat) : List (Nat × Nat × Nat) :=
  (List.range 4).flatMap (fun k =>
    let n := slicesOf new (4 * q + k)
    ((List.range n).filter (fun j => decide (slicesOf old (4 * q + k) ≤ j) || (s.holder q k j).isNone)).map (fun j => (k, j, n)))

/-- The slices of the bisque channel of a quad, which it gives up when the service stops. -/
def State.bisqueSlices (s : State) (q : Nat) : List Nat :=
  if s.boot.bisque && s.fld (bisqueCh q) bisqueCh_STATE != 3 then slicesWhere (fun i => s.sliceState q i == 2 && s.fld (slice q i) slice_CHAN == 0) else []

/-- The elements with which a graph that has not started will start: a change that is due by then is part of it (R280, R281). -/
def Graph.starting (g : Graph) : List PlacedElem :=
  match g.change with
  | some c => if c.at_ ≤ g.start then c.elems else g.elems
  | none => g.elems

/-- CH_POOL.STATE of the channels that a graph is about to start: WAKING while their slices wake, OFF again where the graph has been
withdrawn (R97, R124; DESIGN CHOICE, log entry 56). -/
def State.wakeChannels (s : State) (q : Nat) (sources : List PlacedElem) : State :=
  foldBelow (fun k t =>
    if t.chanCount q k ≠ 0 then t
    else if sources.any (fun e => e.el.kind == 1 && e.unit == 0x2000 + 4 * q + k) then t.setFld (chPool q k) chPool_STATE 1
    else if t.fld (chPool q k) chPool_STATE = 1 then t.setFld (chPool q k) chPool_STATE 0 else t) 4 s

/-- Slices woken one boundary ahead, and those that are not needed after all returned (R97). -/
def State.wheelPrewake (s : State) : State :=
  let soon (n : Nat) : Bool := decide (n ≤ s.time.tick + 1)
  let versions : List (List PlacedElem × List PlacedElem) := s.graphs.filterMap (fun g =>
    if g.phase = .admitted then (if soon g.start then some ([], g.starting) else none)
    else match g.change with
      | some c => if soon c.at_ then some (g.elems, c.elems) else none
      | none => none)
  let needs (q : Nat) : Nat := (versions.map (fun v => (s.openPositions v.1 v.2 q).length)).foldl (· + ·) 0
  foldBelow (fun q t => (t.prewake q (needs q) (t.bisqueSlices q)).wakeChannels q (versions.flatMap (·.2))) s.part.quads s

/-! ### A version comes into force (R276, R278–R281) -/

/-- The registers of a chain written whole while it is stopped (R274, R280). -/
def State.writeChainWords (s : State) (n : Nat) (e : Elem) (src : Nat) : State :=
  let t := ((s.setPcan n 0).setReg (chainCtrl n) (chainCtrlDesc.write 0 (chainCtrl_PCAN_EN.put (e.w 0) 0))).setReg (chainSrc n) (chainSrcDesc.write 0 (BitVec.ofNat 32 src))
  let t := (t.setReg (ncoFtw n) (ncoFtwDesc.write 0 (e.w 1))).setReg (ncoPhase n) (ncoPhaseDesc.write 0 (e.w 2))
  let t := (t.setReg (chainGain n) (chainGainDesc.write 0 (e.w 3))).setReg (firCtrl n) (firCtrlDesc.write 0 (e.w 4))
  let t := (t.setReg (coarseThr n) (coarseThrDesc.write 0 (e.w 5))).setReg (coarseCtrl n) (coarseCtrlDesc.write 0 (e.w 6))
  ((e.params.drop 7).zipIdx).foldl (fun t x => t.setReg (coef n x.2) (coefDesc.write 0 (BitVec.ofNat 32 x.1))) t

/-- The channel that a chain of a version takes its input from. -/
def chainSource (elems : List PlacedElem) (edges : List PlacedEdge) (id : Nat) : Nat :=
  (((versionFile elems edges).sourceOf id).map (fun x => x.pin % 0x1000)).getD 0

/-- An RWT register written for a version, where its word differs. -/
def State.writeTimed (s : State) (off : Nat) (d : Desc) (w : Word) : State :=
  if s.reg off = d.write (s.reg off) w then s else s.writeReg off d w

/-- The words that a version brings into force in place (R278, R280), written before the boundary's commit: they open windows and
restart chains as any write does. A channel in a foreground run takes its words after the commit, and a run that has the DAC leaves it
with the graph's words (R81, R151). -/
def State.versionWrites (s : State) (old : List PlacedElem) (oldEdges : List PlacedEdge) (new : List PlacedElem) (edges : List PlacedEdge) :
    State :=
  new.foldl (fun t e =>
    let i := e.unit % 0x1000
    let same := old.find? (fun o => o.el.id == e.el.id && o.unit == e.unit)
    let changed (k : Nat) : Bool := same.all (fun o => o.el.p k != e.el.p k)
    match e.el.kind with
    | 1 =>
      let (q, k) := (i / 4, i % 4)
      if t.bit (chStatus q k) chStatus_CAL_HOLD then t
      else
        let w := if t.opted q k && same.isSome then chCtrl_INSEL.put (e.el.w 0) 2 else e.el.w 0
        let t := if changed 0 then t.writeTimed (chCtrl q k) chCtrlDesc w else t
        if changed 1 then t.writeTimed (chOffset q k) chOffsetDesc (e.el.w 1) else t
    | 2 =>
      let (q, b) := (i / 8, i % 8)
      let t := if changed 0 then t.writeTimed (cabFunc q b) cabFuncDesc (e.el.w 0) else t
      let t := if changed 1 then t.writeTimed (cabRes q b) cabResDesc (e.el.w 1) else t
      let t := if changed 2 then t.writeTimed (cabCap q b) cabCapDesc (e.el.w 2) else t
      if changed 3 then t.writeTimed (cabCmp q b) cabCmpDesc (e.el.w 3) else t
    | 6 =>
      let t := if same.isNone then t.loseDac i else t
      let t := if changed 0 then t.writeTimed (dacCtrl i) dacCtrlDesc (e.el.w 0) else t
      let t := if changed 1 then t.writeTimed (dacCode i) dacCodeDesc (e.el.w 1) else t
      let t := if changed 2 then t.writeTimed (dacToneFreq i) dacToneFreqDesc (e.el.w 2) else t
      let t := if changed 3 then t.writeTimed (dacToneAmp i) dacToneAmpDesc (e.el.w 3) else t
      match t.fgOf i with
      | some r => if r.begun && r.dac then t.setFg i (some { r with dacCtrl := t.reg (dacCtrl i), dacCode := t.reg (dacCode i) }) else t
      | none => t
    | 3 =>
      if same.isNone then t
      else
        let src := chainSource new edges e.el.id
        let t := if src = chainSource old oldEdges e.el.id then t else t.writeTimed (chainSrc i) chainSrcDesc (BitVec.ofNat 32 src)
        let t := if changed 1 then t.writeTimed (ncoFtw i) ncoFtwDesc (e.el.w 1) else t
        let t := if changed 2 then t.writeTimed (ncoPhase i) ncoPhaseDesc (e.el.w 2) else t
        let t := if changed 3 then t.writeTimed (chainGain i) chainGainDesc (e.el.w 3) else t
        if changed 5 then t.writeTimed (coarseThr i) coarseThrDesc (e.el.w 5) else t
    | _ => t) s

/-- The channels in a foreground run that the versions due take at this boundary (R151). -/
def State.seizedBy (s : State) (elems : List PlacedElem) : List Nat :=
  (elems.filter (fun e => e.el.kind == 1)).filterMap (fun e =>
    let c := e.unit % 0x1000
    if s.bit (chStatus (c / 4) (c % 4)) chStatus_CAL_HOLD then some c else none)

/-- Whether two words of CH_CTRL or CH_OFFSET differ in a field that R137 lists. -/
def afeDiffers (ctrl ctrl' ofs ofs' : Word) : Bool :=
  let d (F : Fld) : Bool := F.get ctrl != F.get ctrl'
  d chCtrl_ATT || d chCtrl_PGA || d chCtrl_AAF_EN || d chCtrl_FC || d chCtrl_INSEL || chOffset_OFS.get ofs != chOffset_OFS.get ofs'

/-- A register's word in force set, whatever write still waits for it. -/
def State.force (s : State) (off : Nat) (d : Desc) (w : Word) : State := s.putBack off (d.write (s.oldReg off) w)

/-- A channel in a foreground run taken by a graph (R151): the run is abandoned where it has not just ended, the graph's words come into
force, and a held host write follows at the next boundary. -/
def State.seizeChannel (s : State) (q k : Nat) (e : Elem) (seized : List Nat) : State :=
  if !seized.contains (4 * q + k) then s
  else
    let t := if (s.fgOf q).any (fun r => r.begun && r.chan == k) then s.dropFg q else s
    let (ctrl, ofs) := (t.oldReg (chCtrl q k), t.oldReg (chOffset q k))
    let before := (List.range 4).map (t.path q)
    let t := (t.force (chCtrl q k) chCtrlDesc (e.w 0)).force (chOffset q k) chOffsetDesc (e.w 1)
    let (ctrl', ofs') := (t.oldReg (chCtrl q k), t.oldReg (chOffset q k))
    let w := max (ctrlWindow ctrl ctrl') (if chOffset_OFS.get ofs = chOffset_OFS.get ofs' then 0 else 200)
    let t := t.openWindows q (if w = 0 then [] else [(k, w)]) before
    if afeDiffers ctrl ctrl' ofs ofs' then t.afeChanged q k else t

/-- Whether the bisque service serves quad `q`. -/
def State.bisqueOn (s : State) (q : Nat) : Bool := s.boot.bisque && s.fld (bisqueCh q) bisqueCh_STATE != 3

/-- The bisque service of a quad stops: its chain stops, and its channel gives up its slices. -/
def State.stopBisqueQuad (s : State) (q : Nat) : State :=
  if !s.bisqueOn q then s
  else
    let n := s.part.bisqueChain q
    let t := (s.stopChain n).setOwner chainOwner n 15
    let t := if t.fld (bisqueCh q) bisqueCh_STATE = 0 then t else t.setFld (bisqueCh q) bisqueCh_STATE 3
    (t.setCount q 0 0).takeLateChan q

/-- The bisque service stops whole (R279, R535). -/
def State.stopBisque (s : State) : State :=
  if !s.boot.bisque then s
  else
    let t := foldBelow (fun q t => t.stopBisqueQuad q) s.part.quads s
    { t with boot := { t.boot with bisque := false } }

/-- The bisque service at the start of a version (R279): it stops whole where that is the first graph admitted. A graph that starts before
that one takes from the service what it uses, in its quads (DESIGN CHOICE, log entry 112). -/
def State.endBisque (s : State) (g : Graph) (new : List PlacedElem) : State :=
  if s.wheel.first = some (g.fn, g.handle) then s.stopBisque
  else foldBelow (fun q t =>
    if new.any (fun e => e.unit == 0x2000 + 4 * q || e.unit == 0x3000 + s.part.bisqueChain q) then t.stopBisqueQuad q else t) s.part.quads s

/-- The opt-in of a quad's channels and its guard band, as the graphs in force have them (R143, R144). -/
def State.guardOf (s : State) (q : Nat) : Nat × Option (Nat × Nat) :=
  let live := (s.graphs.filter (fun g => g.phase == .running || g.phase == .changing)).flatMap (fun g => g.elems)
  let guard := (live.find? (fun e => e.el.kind == 7 && e.unit == 0x1000 + q)).map (fun e => (e.el.p 0, e.el.p 1))
  (if guard.isNone then 0 else ((sourcesIn live q).map (fun e => if bitOf (e.el.p 3) 0 = 1 then 2 ^ (e.unit % 4) else 0)).foldl (· + ·) 0, guard)

/-- The pilot tone of a quad put right after a start, a change or a stop (R144, R146): it goes on when the DAC is free again. Where the
channels opted in or the guard band change, the tone stops and starts anew, and a pilot run is abandoned (DESIGN CHOICE, log entry 108);
a channel that is opted in no longer gets INSEL BALL (DESIGN CHOICE, log entry 107). -/
def State.retone (s : State) (q : Nat) : State :=
  let was := s.fld (pilotStatus q) pilotStatus_OPTED
  let (wish, guard) := s.guardOf q
  let now := s.reached q wish
  let (lo, hi) := guard.getD (0, 0)
  let on := s.bit (pilotStatus q) pilotStatus_TONE_ON
  if was = now ∧ lo = s.fld (pilotGuardLo q) pilotGuardLo_F ∧ hi = s.fld (pilotGuardHi q) pilotGuardHi_F then
    (if on && s.dacLive q then s.loseDac q else if !on && now != 0 && !s.dacLive q then s.startTone q else s)
  else
    let t := s.stopTone q
    let gone := (List.range 4).filter (fun k => bitOf was k == 1 && bitOf now k == 0)
    let t := gone.foldl (fun t k => t.mxForce q [⟨1, 31, 8 + k⟩] [(k, 0)]) t
    let t := t.setFld (pilotStatus q) pilotStatus_OPTED now
    let t := (t.setFld (pilotGuardLo q) pilotGuardLo_F lo).setFld (pilotGuardHi q) pilotGuardHi_F hi
    if now = 0 then t else t.startTone q

/-- The channels and slices of a quad as a version has them (R91, R98, R590). A channel whose slice count changes is started anew as far as
its last unmarked sample goes (R112; DESIGN CHOICE, log entry 57). -/
def State.seatVersion (s : State) (q : Nat) (old new : List PlacedElem) (edges : List PlacedEdge) (held : Bool) (warm : List Nat) : State :=
  let t := foldBelow (fun k t =>
    let c := 4 * q + k
    let (a, b) := (slicesOf old c, slicesOf new c)
    let raw := edges.any (fun e => e.ed.fromPort == 4 && new.any (fun x => x.el.id == e.ed.frm && x.unit == 0x2000 + c))
    let mine := new.any (fun x => x.unit == 0x2000 + c) || old.any (fun x => x.unit == 0x2000 + c)
    let t := if mine then t.setFld (chPool q k) chPool_RAW_TAP (flag raw) else t
    if a = b then t else ((t.setCount q k b).startChannel c).restartOn (fun x => x == c) false) 4 s
  let t := t.seatAll q held warm (t.openPositions old new q)
  if t.powerOf q = .on && new.any (fun e => e.quad == some q) then t.ensureStandby q else t.regainStandby q

/-- A new chain of a version (R181, R186): started here unless it was started early. A chain that the bisque service gives up at this very
boundary is STOPPED first (R182, R279; DESIGN CHOICE, log entry 72). -/
def State.beginChain (s : State) (fn n : Nat) (e : Elem) (src : Nat) : State :=
  if s.chainState n = 2 then s
  else
    let t := if s.chainState n = 3 then (s.setChainState n 0).raise (648 + n) 5 else s
    ((t.writeChainWords n e src).setOwner chainOwner n (fn + 1)).startChain n

/-- Chains started early for a change (R186, R281). -/
def State.wheelEarly (s : State) : State :=
  s.graphs.foldl (fun t g => match g.change with
    | none => t
    | some c => if g.phase = .admitted then t else c.early.foldl (fun t x =>
        if x.2 ≤ t.time.tick ∧ t.chainState x.1 = 0 then
          (match c.elems.find? (fun e => e.unit == 0x3000 + x.1) with
           | some e => t.beginChain g.fn x.1 e.el (chainSource c.elems c.edges e.el.id)
           | none => t)
        else t) t) s

/-- The owner of an element's unit written (R276). -/
def State.ownElem (s : State) (e : PlacedElem) (c : Nat) : State :=
  let i := e.unit % 0x1000
  match e.el.kind with
  | 2 => s.setOwner cabOwner i c
  | 3 => s.setOwner chainOwner i c
  | 4 => s.setOwner coreOwner i c
  | 6 => s.setOwner dacOwner i c
  | _ => s

/-- A task whose reserved core was retired and found no spare: it stands still there, and the core stays RETIRED (R230, R231). -/
def State.strandTask (s : State) (n : Nat) (k : Task) : State := (s.setCore n { s.core n with task := some k, pend := [] }).stopTask n k

/-- An element that a version adds comes into force (R278). -/
def State.beginElem (s : State) (fn handle : Nat) (new : List PlacedElem) (edges : List PlacedEdge) (e : PlacedElem) : State :=
  let i := e.unit % 0x1000
  let t := s.ownElem e (fn + 1)
  match e.el.kind with
  | 1 => t.setFld (chCalCtrl (i / 4) (i % 4)) chCalCtrl_CAL_APPLY (bitOf (e.el.p 3) 1)
  | 3 => t.beginChain fn i e.el (chainSource new edges e.el.id)
  | 4 => if t.coreState i = 4 then t.strandTask i ((versionFile new edges).task t.tickDiv fn handle e.el) else t.setCoreState i 3
  | 5 => t.placeSagger i fn
  | 8 => t.openCap e.stream
  | _ => t

/-- An element that a version drops leaves (R283): `n` boundaries until a sagger restarts. -/
def State.endElem (s : State) (e : PlacedElem) (n : Nat) : State :=
  let i := e.unit % 0x1000
  match e.el.kind with
  | 3 => s.stopChain i
  | 5 => s.leaveSagger i n
  | 8 => s.setCap e.stream { s.cap e.stream with ending := true }
  | _ => s

/-- A running chain replaced by its successor (R185, R280). -/
def State.succeedChain (s : State) (a b : Nat) : State :=
  let t := (s.stopChain a).setFlag (chainStatus a) chainStatus_SW_DONE
  t.raise (648 + a) 3 [(0x3000 + b) * 0x10000 + (0x3000 + a), s.time.tick % 0x100000000]

/-- The WCET of a task set on a core. -/
def State.setWcet (s : State) (n w : Nat) : State :=
  let t := s.setReg (Regs.wcet n) (BitVec.ofNat 32 w)
  t.setCore n { t.core n with task := (t.core n).task.map (fun k => { k with wcet := w }) }

/-- What the difference of two versions comes to at a boundary (R278, R280). -/
def State.applyVersion (s : State) (fn handle : Nat) (old new : List PlacedElem) (edges : List PlacedEdge) (held : Nat → Bool)
    (warm : Nat → List Nat) (seized : List Nat) : State :=
  let quads := ((old ++ new).filterMap PlacedElem.quad).eraseDups
  let t := new.foldl (fun t e =>
    if e.el.kind = 1 then t.seizeChannel (e.unit % 0x1000 / 4) (e.unit % 4) e.el seized
    else if e.el.kind = 6 && (t.fgOf (e.unit % 0x1000)).any (fun r => r.begun && r.dac) then t.dropFg (e.unit % 0x1000) else t) s
  let t := quads.foldl (fun t q => t.seatVersion q old new edges (held q) (warm q)) t
  let t := new.foldl (fun t e => match sameId old e with
    | none => t.beginElem fn handle new edges e
    | some o =>
      if o.unit = e.unit then
        (match e.el.kind with
         | 1 => t.setFld (chCalCtrl (e.unit % 0x1000 / 4) (e.unit % 4)) chCalCtrl_CAL_APPLY (bitOf (e.el.p 3) 1)
         | 4 =>
           let loading := (t.wheel.moves.filter (fun m => m.fn == fn && m.handle == handle && m.elem == e.el.id && !m.begun)).map (fun m => m.new % 0x1000)
           (e.unit % 0x1000 :: loading).foldl (fun t n => t.setWcet n (e.el.p 0)) t
         | 8 => if o.stream = e.stream then t
           else (t.setCap o.stream { t.cap o.stream with ending := true }).openCap e.stream
         | _ => t)
      else match e.el.kind with
        | 3 => ((t.beginChain fn (e.unit % 0x1000) e.el (chainSource new edges e.el.id)).succeedChain (o.unit % 0x1000) (e.unit % 0x1000))
        | 4 => { t with wheel := { t.wheel with moves := t.wheel.moves ++ [⟨fn, handle, e.el.id, o.unit, e.unit, t.time.bounds, true⟩] } }
        | 5 => (t.switchOut (o.unit % 0x1000)).beginElem fn handle new edges e
        | _ => (t.endElem o 2).beginElem fn handle new edges e) t
  old.foldl (fun t o => if (sameId new o).isNone then t.endElem o 2 else t) t

/-- The graphs that a boundary starts or changes, with their old and new versions: those whose tick has come and whose core loads
have ended. -/
def State.dueVersions (s : State) : List (Graph × List PlacedElem × List PlacedEdge × List PlacedElem × List PlacedEdge) :=
  let now := s.time.tick
  let ready (old new : List PlacedElem) : Bool := (coresOnly new old).all (fun n => s.coreState n != 2 || (s.core n).loaded)
  s.graphs.filterMap (fun g =>
    if g.phase = .admitted then
      (if g.start ≤ now && ready [] g.elems then some (g, [], [], g.elems, g.edges) else none)
    else match g.change with
      | some c => if c.at_ ≤ now && ready g.elems c.elems && !g.stopAt.any (fun n => decide (n ≤ now))
          then some (g, g.elems, g.edges, c.elems, c.edges) else none
      | none => none)

/-- A command of Deogen's for a version, which joins the queue as it takes effect: however many there are, they take effect together, and
only R69 can refuse one (R72, R278; DESIGN CHOICE, log entry 52). -/
def State.mxVersion (s : State) (q : Nat) (c : MxCmd) (whom : Nat) : State :=
  match connectError (wiresDo (s.wires q) (s.mxQueue q)) c with
  | 0 => s.setMxQueue q (s.mxQueue q ++ [c])
  | code => s.mxRefuse q c code whom

/-- The matrix commands of a version, sent by Deogen to each quad's queue (R72, R278). They come at
the boundary at which the version comes into force, just before the queue takes effect (DESIGN CHOICE, log entry 52). -/
def State.versionCmds (s : State) (fn : Nat) (oe : List PlacedElem) (od : List PlacedEdge) (ne : List PlacedElem) (nd : List PlacedEdge) :
    State :=
  foldBelow (fun q t =>
    (connectPlan (wiresDo (t.wires q) (t.mxQueue q)) q oe od ne nd).foldl (fun t c => t.mxVersion q c.1 (fn + 1)) t) s.part.quads s

/-- The words and the matrix commands of the versions due, before the commit. -/
def State.wheelWrites (s : State) : State :=
  s.dueVersions.foldl (fun t v =>
    (t.versionWrites v.2.1 v.2.2.1 v.2.2.2.1 v.2.2.2.2).versionCmds v.1.fn v.2.1 v.2.2.1 v.2.2.2.1 v.2.2.2.2) s

/-- The channels in a foreground run that this boundary's versions take. -/
def State.wheelSeizes (s : State) : List Nat := s.seizedBy (s.dueVersions.flatMap (fun v => v.2.2.2.1))

/-- Whether the placement of a version differs from another's (R292). -/
def placementDiffers (oe : List PlacedElem) (od : List PlacedEdge) (ne : List PlacedElem) (nd : List PlacedEdge) : Bool :=
  oe.map (fun e => (e.el.id, e.unit)) != ne.map (fun e => (e.el.id, e.unit)) || od.map (fun e => (e.src, e.dst, e.hops)) != nd.map (fun e => (e.src, e.dst, e.hops))

/-- Elements and edges with the tick since which they hold their units. -/
def sinceOf (now : Nat) (old : List PlacedElem) (l : List PlacedElem) : List PlacedElem :=
  l.map (fun e => if old.any (fun o => o.el.id == e.el.id && o.unit == e.unit) then e else { e with since := now })

/-- Edges with the tick since which they hold their routes. -/
def sinceEdges (now : Nat) (old : List PlacedEdge) (l : List PlacedEdge) : List PlacedEdge :=
  l.map (fun e => if old.any (fun o => o.ed.frm == e.ed.frm && o.ed.to_ == e.ed.to_ && o.src == e.src && o.hops == e.hops) then e else { e with since := now })

/-- The edges of capture streams under their numbers in a new table. -/
def State.recapture (s : State) (elems : List PlacedElem) (edges : List PlacedEdge) : State :=
  elems.foldl (fun t e => if e.el.kind ≠ 8 then t
    else match ((edges.zipIdx).find? (fun x => x.1.ed.to_ == e.el.id)).map (·.2) with
      | some i => t.setCap e.stream { t.cap e.stream with edge := i }
      | none => t) s

/-- One version due comes into force (R278, R280, R292): STARTED or CHANGED. -/
def State.enforce (s : State) (v : Graph × List PlacedElem × List PlacedEdge × List PlacedElem × List PlacedEdge) (held : Nat → Bool)
    (warm : Nat → List Nat) (seized : List Nat) : State :=
  let (g, oe, od, ne, nd) := v
  let now := s.time.tick
  let quads := ((oe ++ ne).filterMap PlacedElem.quad).eraseDups
  let ne := sinceOf now oe ne
  let nd := sinceEdges now od nd
  let moved := g.phase != .admitted && placementDiffers oe od ne nd
  let later := if g.phase = .admitted then g.change else none
  let g' : Graph := { g with phase := if later.isSome then .changing else .running, elems := ne, edges := nd, change := later,
                             changeTick := if g.phase = .admitted then now else g.changeTick }
  let g' := if moved then g'.advance s else g'
  let t := (s.putGraph g').leaveTo g oe od ne nd
  let t := t.applyVersion g.fn g.handle oe ne nd held warm seized
  let t := t.recapture ne nd
  let t := quads.foldl (fun t q => t.retone q) t
  t.wheelEvent g.fn g.handle (if g.phase = .admitted then 3 else 4) noItem now

/-- The versions due at this boundary come into force, with what they end of the bisque service (R279). -/
def State.wheelStart (s : State) (seized : List Nat) : State :=
  let due := s.dueVersions
  if due.isEmpty then s
  else
    let held := s.rotHeld
    let t := due.foldl (fun t v => t.endBisque v.1 v.2.2.2.1) s
    let warm (q : Nat) : List Nat := (s.bisqueSlices q).filter (fun i => t.sliceState q i == 0)
    let t := due.foldl (fun t v => t.enforce v held warm seized) t
    let t := foldBelow (fun q t => if (warm q).isEmpty then t else t.ensureStandby q) s.part.quads t
    { t with boot := { t.boot with started := true } }

/-! ### A stop at its boundary (R276, R283) -/

/-- A graph stops at this boundary (R283). -/
def State.beginStop (s : State) (g : Graph) : State :=
  let quads := (g.elems.filterMap PlacedElem.quad).eraseDups
  let t := (s.dropChange g).dropMoves (fun m => m.fn == g.fn && m.handle == g.handle)
  let t := t.putGraph { g with phase := .stopping, change := none, stopAt := some s.time.tick, ends := s.time.bounds + 2 }
  let t := g.elems.foldl (fun t e => if e.el.kind = 1 then
    (t.setCount (e.unit % 0x1000 / 4) (e.unit % 4) 0).setFld (chPool (e.unit % 0x1000 / 4) (e.unit % 4)) chPool_RAW_TAP 0
    else t.endElem e 2) t
  quads.foldl (fun t q => (t.retone q).regainStandby q) t

/-- A graph whose stop completes (R276, R283): routes, buffers and owners are released. -/
def State.endStop (s : State) (g : Graph) : State :=
  let t := g.elems.foldl (fun t e => t.ownElem e 15) s
  let t := t.putGraph { g with phase := .stopped }
  let t := ((g.elems.filterMap PlacedElem.quad).eraseDups).foldl (fun t q => t.retone q) t
  t.wheelEvent g.fn g.handle 5 noItem s.time.tick

/-- What a change removed two boundaries ago is released, but for units that a graph holds again (R276, R280, R283). -/
def State.releaseLeft (s : State) : State :=
  let due := s.wheel.leaving.filter (fun l => decide (l.at_ ≤ s.time.bounds))
  let es := due.flatMap (·.elems)
  let t := { s with wheel := { s.wheel with leaving := s.wheel.leaving.filter (fun l => !decide (l.at_ ≤ s.time.bounds)) } }
  let free := es.filter (fun e => !t.graphs.any (fun g => g.phase != .admitted && g.elems.any (fun x => x.unit == e.unit)))
  let t := free.foldl (fun t e => t.ownElem e 15) t
  ((es.filterMap PlacedElem.quad).eraseDups).foldl (fun t q => t.retone q) t

/-- Stops that this boundary begins or completes, and what changes have left. -/
def State.wheelStop (s : State) : State :=
  let now := s.time.tick
  s.graphs.foldl (fun t g => match g.stopAt with
    | none => t
    | some n =>
      if g.phase = .stopping then (if g.ends ≤ s.time.bounds then t.endStop g else t)
      else if n ≤ now then t.beginStop g else t) s.releaseLeft

/-! ### A change that falls due with a retirement (R24, R282), or before its graph's start -/

/-- Whether slices or cores have been retired that this boundary replaces. -/
def State.retiring (s : State) : Bool :=
  !s.pool.retired.isEmpty || (List.range s.part.cores).any (fun n => s.coreState n == 4 && !(s.core n).reported)

/-- The first budget that a change's streams exceed as a retirement has left them: ROUTE, LINK or BUFFERS, and the edge (R24, R270, R381). -/
def State.routesFail (s : State) (g : Graph) (c : Change) : Option (Nat × Nat) :=
  let others := (s.graphs.filter (fun x => !(x.fn == g.fn && x.handle == g.handle))).flatMap Graph.netEdges ++ s.leavingEdges
  let all := others ++ c.edges.filter PlacedEdge.onNet
  let first (p : PlacedEdge → Bool) : Option Nat := ((c.edges.zipIdx).find? (fun x => x.1.onNet && p x.1)).map (·.2)
  match first (fun e => !s.routeOpen (linksOf e.src e.hops)), first (fun e => !s.linksFit all (linksOf e.src e.hops) 0),
      first (fun e => decide (niGrants e.dst < 130 * boundAt all e.dst)) with
  | some i, _, _ => some (0x13, i)
  | none, some i, _ => some (0x14, i)
  | none, none, some i => some (0x15, i)
  | none, none, none => none

/-- The first budget that a change no longer meets once units have been retired, and its item (R24, R93, R194). -/
def State.changeFails (s : State) (g : Graph) (c : Change) : Option (Nat × Nat) :=
  let others := s.graphs.filter (fun x => !(x.fn == g.fn && x.handle == g.handle))
  let short := (List.range s.part.quads).filterMap (fun q => match sourcesIn c.elems q with
    | [] => none
    | e :: es => if s.slicesFit others q (slicesTaken c.elems q) then none else some (es.foldl (fun m x => min m x.el.id) e.el.id))
  let dead := (c.elems.filter (fun e => e.el.kind == 4 && s.coreState (e.unit % 0x1000) == 4)).map (fun e => e.el.id)
  let added := (c.elems.filter (fun e => e.el.kind == 4 && !g.elems.any (fun x => x.unit == e.unit))).map (fun e => e.el.id)
  let free := ((List.range s.part.cores).filter (fun n => decide (s.coreState n ≤ 1) && !s.claimed (0x4000 + n))).length
  match short.min?, dead.min?, added.max? with
  | some i, _, _ => some (9, i)
  | none, some i, _ => some (0xE, i)
  | none, none, some i => if free < s.part.spares then some (0xE, i) else s.routesFail g c
  | none, none, none => s.routesFail g c

/-- A change due at a boundary at which units have been retired: dropped where it no longer fits, with REFUSED (R24). -/
def State.recheckChanges (s : State) : State :=
  s.graphs.foldl (fun t g => match g.change with
    | some c =>
      if s.time.tick < c.at_ then t
      else match t.changeFails g c with
        | some (code, item) => (t.dropChange g).wheelEvent g.fn g.handle 2 item code
        | none => t
    | none => t) s

/-- A change that falls due before its graph starts, or with its start, is part of it from then on (R280). -/
def State.adoptChange (s : State) (g : Graph) (c : Change) : State :=
  let t := (coresOnly g.elems c.elems).foldl (fun t n => if t.coreState n = 2 then t.freeCore n else t) s
  let t := g.elems.foldl (fun t e => if e.el.kind = 8 && !c.elems.any (fun x => x.el.kind == 8 && x.stream == e.stream) then t.dropCap e.stream else t) t
  let moved := placementDiffers g.elems g.edges c.elems c.edges
  let g' : Graph := { g with elems := c.elems, edges := c.edges, change := none }
  let g' := if moved then g'.advance s else g'
  ((t.putGraph g').recapture c.elems c.edges).wheelEvent g.fn g.handle 4 noItem s.time.tick

/-- Changes of graphs that have not started, as they fall due. -/
def State.wheelAdopt (s : State) : State :=
  s.graphs.foldl (fun t g => match g.change with
    | some c => if g.phase = .admitted ∧ c.at_ ≤ s.time.tick then t.adoptChange g c else t
    | none => t) s

/-- Capture streams that a stop or a change ends, closed at the boundary after it (R283, R412). -/
def State.closeEnding (s : State) : State :=
  foldBelow (fun k t => if (t.cap k).ending && decide (2 ≤ t.capState k ∧ t.capState k ≤ 4) then t.closeCap k false else t) 256 s

/-! ### Cores between graphs (R283, R286) -/

/-- A task passes from one core to another at this boundary (R286): its streams, its persistent region and the input of the tick
go with it; the new core's first run begins when the copy is done. -/
def State.handOver (s : State) (m : Move) : State :=
  let (a, b) := (m.old % 0x1000, m.new % 0x1000)
  let t := s.settleRun a
  let c := t.core a
  let r := c.received s.time.ended
  let outs := c.out.map (fun x => (x.1, { noOut with seq := x.2.seq }))
  let t := t.setCore b { t.core b with out := outs, kept := (c.kept ++ [r]).drop ((c.kept.length + 1) - 4),
                                       persX := c.persX, persY := c.persY, loaded := false, first := c.first }
  let t := (t.setOwner coreOwner b (t.ownCore a)).setOwner coreOwner a 15
  let t := if t.coreState b ≠ 4 then t.setCoreState b 3
    else match c.task with | some k => t.strandTask b k | none => t
  t.freeCore a

/-- Whether a core holds a task in force: PLACED, a spare that catches up, or a retired core whose task stands still. -/
def State.held (s : State) (n : Nat) : Bool :=
  (s.core n).task.isSome && (s.coreState n == 3 || (s.coreState n == 2 && (s.core n).home.isSome) || s.coreState n == 4)

/-- A core whose task leaves: SPARE, or still RETIRED without it. -/
def State.leaveCore (s : State) (n : Nat) : State :=
  if !s.held n then s
  else if s.coreState n = 4 then s.setCore n { s.core n with task := none, stopped := false, pend := [] }
  else if s.coreState n = 3 then (s.settleRun n).freeCore n
  else s.freeCore n

/-- Step 4, before the tick programs: tasks pass to their new cores, and cores whose graph stopped, or dropped them, a boundary ago become
SPARE (R283). -/
def State.coresLeave (s : State) : State :=
  let now := s.time.bounds
  let stopped := (s.graphs.filter (fun g => g.phase == .stopping && decide (g.ends ≤ now + 1))).flatMap (fun g => coresOnly g.elems [])
  let gone := (s.wheel.leaving.filter (fun l => decide (l.at_ ≤ now + 1))).flatMap (fun l => coresOnly l.elems [])
  let t := (stopped ++ gone).foldl (fun t n => t.leaveCore n) s
  let idle := (List.range s.part.cores).filter (fun n => t.held n
    && !t.graphs.any (fun g => g.elems.any (fun e => e.unit == 0x4000 + n)) && !t.wheel.moves.any (fun m => m.old == 0x4000 + n)
    && !t.wheel.leaving.any (fun l => l.elems.any (fun e => e.unit == 0x4000 + n)))
  let t := idle.foldl (fun t n => (t.leaveCore n).setOwner coreOwner n 15) t
  (t.wheel.moves.filter (fun m => m.begun && m.at_ == now && m.old / 0x1000 == 4)).foldl (fun t m => t.handOver m) t

/-- The cores that a task has just reached: they begin no run at this boundary. -/
def State.awaitingCopy (s : State) (n : Nat) : Bool :=
  s.wheel.moves.any (fun m => m.begun && m.at_ == s.time.bounds && m.new == 0x4000 + n)

/-- HEAT_MOVE_COPY_DONE (R286): the persistent image and the input have reached the new core, whose first run starts. -/
def execHeatMoveCopyDone (n : Nat) (s : State) : Result :=
  .next (match s.wheel.moves.find? (fun m => m.begun && m.new == 0x4000 + n) with
    | none => s
    | some m =>
      let t := { s with wheel := { s.wheel with moves := s.wheel.moves.erase m } }
      let c := t.core n
      match c.task, c.kept.getLast? with
      | some _, some r => (t.setCore n ((c.putRegion c.persX c.persY).copyIn r)).beginRunOn n r false
      | _, _ => t)

/-! ### Heat (R285–R288) -/

/-- The last valid reading of a die sensor in °C × 16. -/
def State.dieReading (s : State) (d : Nat) : Option Int := (s.sensorOf (16 + d)).value

/-- Whether a die sensor reads cool enough for a destination (R286). -/
def State.coolSensor (s : State) (d : Nat) : Bool :=
  (s.dieReading d).any (fun v => decide (v ≤ 16 * ((s.wheel.hot : Int) - s.wheel.hyst)))

/-- Whether a heat move may be made now: on, and none made since the last boundary (R288). -/
def State.mayMoveHeat (s : State) : Bool := s.wheel.heatMove == 1 && s.wheel.movedAt != some s.time.bounds && !s.boot.hold

/-- Whether an element has rested 100 ms since its last move (R288). -/
def State.rested (s : State) (e : PlacedElem) : Bool := e.movedAt.all (fun t => decide (t + 200000000 ≤ s.time.now))

/-- A move begun. -/
def State.beginMove (s : State) (g : Graph) (e : PlacedElem) (new at_ : Nat) : State :=
  let t := s.onGraph g.fn g.handle (fun x => { x with elems := x.elems.map (fun y => if y.el.id = e.el.id then { y with movedAt := some s.time.now } else y) })
  { t with wheel := { t.wheel with movedAt := some s.time.bounds,
                                   moves := t.wheel.moves ++ [⟨g.fn, g.handle, e.el.id, e.unit, new, at_, false⟩] } }

/-- The running tasks of a cluster that are not pinned, with their graphs. -/
def State.movable (s : State) (g : Nat) : List (Graph × PlacedElem) :=
  (s.graphs.filter (fun x => x.phase == .running || x.phase == .changing)).flatMap (fun x => (x.elems.filter (fun e => e.el.kind == 4 && !e.el.pinned
    && e.unit % 0x1000 / 8 == g && bitOf e.flags 4 == 0 && s.coreState (e.unit % 0x1000) == 3
    && !s.wheel.moves.any (fun m => m.old == e.unit))).map (fun e => (x, e)))

/-- A hot cluster (R286): the largest unpinned task moves, or stays with HEAT_STUCK. -/
def State.moveTaskOff (s : State) (g : Nat) : State :=
  match (s.movable g).filter (fun x => s.rested x.2) with
  | [] => s
  | x :: xs =>
    let (gr, e) := xs.foldl (fun b y => if b.2.el.p 0 < y.2.el.p 0 then y else b) x
    let c := s.core (e.unit % 0x1000)
    let ins := ((c.task.map (fun k => (k.ins.map (·.len)).foldl (· + ·) 0)).getD 0) + e.el.p 1 + e.el.p 2
    let spare := (List.range s.part.clusters).flatMap s.sparesOf
    let dest := spare.find? (fun n => s.coolSensor (n / 8 % 8))
    match dest with
    | some n =>
      if e.el.p 0 + (ins + 7) / 8 + 64 ≤ s.budget ∧ s.part.spares < spare.length then s.beginMove gr e (0x4000 + n) (s.time.bounds + 2)
      else s.wheelEvent gr.fn gr.handle 8 e.el.id 0
    | none => s.wheelEvent gr.fn gr.handle 8 e.el.id 0

/-- A hot sagger (R287): a relocatable element moves to a cool free sagger of the same function. -/
def State.moveFabric (s : State) (i : Nat) : State :=
  match ((s.graphs.filter (fun x => x.phase == .running || x.phase == .changing)).flatMap (fun x => (x.elems.filter (fun e => e.el.kind == 5 && e.unit == 0x6000 + i)).map (fun e => (x, e)))).head? with
  | none => s
  | some (g, e) =>
    if e.el.pinned || e.el.p 1 % 2 == 0 || !s.rested e || s.wheel.moves.any (fun m => m.old == e.unit) then s
    else match lowest s.part.saggers (fun n => s.saggerState n == 3 && s.ownSagger n == 15 && !s.claimed (0x6000 + n)
        && (s.reg (funcId n)).toNat == e.el.p 0 && s.coolSensor (n % 8)) with
      | some n => s.beginMove g e (0x6000 + n) (s.time.bounds + 1)
      | none => s

/-- HEAT_PINNED for the elements that stay on a unit that has become hot (R23, R287). -/
def State.heatPinned (s : State) (p : PlacedElem → Bool) : State :=
  s.graphs.foldl (fun t g => if g.phase = .running ∨ g.phase = .changing then
      (g.elems.filter p).foldl (fun t e => t.wheelEvent g.fn g.handle 9 e.el.id 0) t else t) s

/-- A die sensor has read hot: `first` when it has just become so. A chain and a capture stack count as read by the die sensor of their number
mod 8, as clusters and saggers are (DESIGN CHOICE, log entry 113). -/
def State.heatDie (s : State) (d : Nat) (first : Bool) : State :=
  let t := if !first then s else s.heatPinned (fun e =>
    (e.el.kind == 4 && e.el.pinned && e.unit % 0x1000 / 8 % 8 == d)
      || (e.el.kind == 5 && e.unit % 0x1000 % 8 == d && (e.el.pinned || e.el.p 1 % 2 == 0))
      || ((e.el.kind == 3 || e.el.kind == 8) && e.unit % 0x1000 % 8 == d))
  let t := (List.range t.part.clusters).foldl (fun t g => if g % 8 = d && t.mayMoveHeat then t.moveTaskOff g else t) t
  (List.range t.part.saggers).foldl (fun t i => if i % 8 = d && t.mayMoveHeat then t.moveFabric i else t) t

/-- A quad diode has become hot (R23, R287). -/
def State.heatQuad (s : State) (q : Nat) : State :=
  s.heatPinned (fun e => (e.el.kind == 1 || e.el.kind == 2 || e.el.kind == 6 || e.el.kind == 7) && e.quad == some q)

/-- A FABRIC element moved to another sagger in its graph and in a change of it that waits (R287): its streams leave from and go to the NIs
of the new one. -/
def Graph.moveSagger (s : State) (g : Graph) (m : Move) : Graph :=
  let (a, b) := (m.old % 0x1000, m.new % 0x1000)
  let half (n : Nat) : Nat := if n = niSagger a 0 then niSagger b 0 else if n = niSagger a 1 then niSagger b 1 else n
  let unit (since : Nat) (es : List PlacedElem) : List PlacedElem := es.map (fun e =>
    if e.el.id = m.elem ∧ e.unit = m.old then { e with unit := m.new, since := since, flags := e.flags ||| 4 } else e)
  let route (ds : List PlacedEdge) : List PlacedEdge := ds.map (fun e =>
    if e.ed.analog || e.hops.isEmpty then e
    else if e.ed.frm = m.elem ∧ half e.src ≠ e.src then s.rerouteEdge e (half e.src) e.dst
    else if e.ed.to_ = m.elem ∧ half e.dst ≠ e.dst then s.rerouteEdge e e.src (half e.dst)
    else e)
  let g' : Graph := { g with elems := unit s.time.tick g.elems, edges := route g.edges
                             change := g.change.map (fun c => { c with elems := unit 0 c.elems, edges := route c.edges }) }
  g'.advance s

/-- The element of a move given its new unit in its graph, with HEAT_MOVED (R286, R287, R292); what a sagger that it leaves has still to
send goes on until the release (R320). -/
def State.switchMove (s : State) (m : Move) : State :=
  let t := if m.old / 0x1000 = 4 then
      s.onGraph m.fn m.handle (fun g => g.moveTask s m.elem (m.old % 0x1000) (m.new % 0x1000) 4 true)
    else
      let t := s.onGraph m.fn m.handle (fun g => g.moveSagger s m)
      match s.graphAt m.fn m.handle, t.graphAt m.fn m.handle with
      | some g, some g' => t.leaveTo g g.elems g.edges g'.elems g'.edges
      | _, _ => t
  t.wheelEvent m.fn m.handle 7 m.elem (m.new * 0x10000 + m.old)

/-- Moves at a boundary (R286–R288): cores to be loaded, and the first of the switches that have come; the others wait for the boundaries
behind it. A move whose copy was not done by the next boundary is over. -/
def State.wheelMoves (s : State) : State :=
  let now := s.time.bounds
  let t := s.dropMoves (fun m => (m.begun && decide (m.at_ < now)) || (m.new / 0x1000 == 4 && s.coreState (m.new % 0x1000) == 4))
  let gone (m : Move) : Bool := !m.begun && !t.graphs.any (fun g => g.fn == m.fn && g.handle == m.handle && (g.phase == .running || g.phase == .changing)
    && g.elems.any (fun e => e.el.id == m.elem && e.unit == m.old))
  let t := t.dropMoves gone
  let t := t.wheel.moves.foldl (fun t m =>
    if m.begun || m.old / 0x1000 != 4 || t.coreState (m.new % 0x1000) != 1 then t
    else match (t.core (m.old % 0x1000)).task with | some k => t.loadCore (m.new % 0x1000) k | none => t) t
  let due := t.wheel.moves.filter (fun m => !m.begun && decide (m.at_ ≤ now) && (m.old / 0x1000 == 6 || (t.core (m.new % 0x1000)).loaded))
  match due with
  | [] => t
  | m :: _ =>
    let t := t.switchMove m
    if m.old / 0x1000 = 6 then
      let t := (t.switchOut (m.old % 0x1000)).placeSagger (m.new % 0x1000) m.fn
      { t with wheel := { t.wheel with moves := t.wheel.moves.erase m } }
    else { t with wheel := { t.wheel with moves := t.wheel.moves.map (fun x => if x = m then { m with begun := true, at_ := now } else x) } }

/-- A heat policy that waits comes into force (R285). -/
def State.wheelPolicy (s : State) : State :=
  match s.wheel.setNext with
  | some (a, b, c) => { s with wheel := { s.wheel with heatMove := a, hot := b, hyst := c, setNext := none } }
  | none => s

/-! ### Failed ports (R290, R389) -/

/-- Whether an edge can no longer be carried: a port of its route is not ENABLED, or its chip link is not ACTIVE. -/
def State.broken (s : State) (e : PlacedEdge) : Bool :=
  !e.ed.analog && !e.hops.isEmpty && !e.stopped && (!s.routeOpen (linksOf e.src e.hops)
    || (List.range 4).any (fun l => (e.src == niLink l || e.dst == niLink l) && s.fld (xlStatus l) xlStatus_STATE == 4))

/-- New routes for the edges of a version of a graph that a failure has cut. -/
def State.decideReroutes (s : State) (g : Graph) (elems : List PlacedElem) (edges : List PlacedEdge) : State :=
  edges.foldl (fun t e =>
    if !s.broken e || t.wheel.reroutes.any (fun r => r.1 == g.fn && r.2.1 == g.handle && r.2.2.1 == e) then t
    else
      let waiting := (t.wheel.reroutes.filter (fun r => !r.2.2.2.stopped)).map (fun r => r.2.2.2)
      let b : Bid := ⟨g.fn, g.handle, versionFile elems edges, [], [], [], elems, edges.filter (fun d => !s.broken d) ++ waiting, []⟩
      let new := match elems.find? (fun x => x.el.id == e.ed.frm), elems.find? (fun x => x.el.id == e.ed.to_) with
        | some p, some q => (match t.placeRoute b { e with hops := [] } p q with
          | .inr d => d
          | .inl _ => { e with stopped := true })
        | _, _ => { e with stopped := true }
      { t with wheel := { t.wheel with reroutes := t.wheel.reroutes ++ [(g.fn, g.handle, e, new)] } }) s

/-- REROUTE (R290): new routes for the edges of admitted graphs and of waiting changes that a failure has cut, to be swapped in at the next
boundary. -/
def execReroute (s : State) : Result :=
  .next ((if s.deogen then s.graphs else []).foldl (fun t g =>
    if g.phase = .stopping then t
    else
      let t := t.decideReroutes g g.elems g.edges
      match g.change with | some c => t.decideReroutes g c.elems c.edges | none => t) s)

/-- The edges of a version with the new routes that were decided for them, where they still stand as they did then. -/
def mendEdges (mine : List (PlacedEdge × PlacedEdge)) (now : Nat) (edges : List PlacedEdge) : List PlacedEdge :=
  edges.map (fun e => match mine.find? (fun r => r.1 == { e with since := r.1.since }) with
    | some r => { r.2 with since := now }
    | none => e)

/-- New routes swapped in at this boundary (R290): REROUTED, or NO_ROUTE and the edge stops. -/
def State.wheelReroute (s : State) : State :=
  let now := s.time.tick
  let t := s.graphs.foldl (fun t g =>
    let mine := (s.wheel.reroutes.filter (fun r => r.1 == g.fn && r.2.1 == g.handle)).map (fun r => r.2.2)
    let edges := mendEdges mine now g.edges
    let t := t.onGraph g.fn g.handle (fun g =>
      let g' : Graph := { g with edges := edges, change := g.change.map (fun c => { c with edges := mendEdges mine 0 c.edges }) }
      if edges = g.edges then g' else g'.advance s)
    ((g.edges.zip edges).zipIdx).foldl (fun t x =>
      if x.1.1 = x.1.2 then t else t.wheelEvent g.fn g.handle (if x.1.2.stopped then 0xB else 0xA) x.2 now) t) s
  { t with wheel := { t.wheel with reroutes := [] } }

/-! ### The placement map (R291) -/

/-- The header of a map. -/
def mapHeader (g : Graph) : List Byte :=
  let st := match g.phase with | .admitted => 1 | .running => 2 | .changing => 3 | .stopping => 4 | .stopped => 5
  leBytes 4 0x4B474D50 ++ leBytes 1 g.handle ++ leBytes 1 st ++ leBytes 1 (g.fn + 1) ++ leBytes 1 0 ++ leBytes 4 g.gen
    ++ leBytes 4 (g.elems.length + g.edges.length) ++ leBytes 8 g.changeTick ++ leBytes 8 g.start

/-- USED, CAP, DETAIL and DETAIL2 of an element's record (DEDUCED, log entry 24). -/
def State.mapFigures (s : State) (g : Graph) (e : PlacedElem) : Nat × Nat × Nat × Nat :=
  let i := e.unit % 0x1000
  let into := ((g.edges.filter (fun d => d.ed.to_ == e.el.id && !d.ed.analog)).map (·.words)).foldl (· + ·) 0
  match e.el.kind with
  | 1 => (e.el.p 2, 32, countBelow (fun j => s.isFilled (i / 4) (i % 4) j) 16, 0)
  | 3 => (((g.edges.filter (fun d => d.ed.frm == e.el.id)).map (·.words)).foldl max 0, 20 * s.tickDiv,
      settleOf (e.el.w 0) (firCtrl_TAPS.get (e.el.w 4)), 0)
  | 4 => (e.el.p 0, s.budget, (s.reg (lag i)).toNat, 0)
  | 8 => (capLoad g.elems g.edges (i % 2), 8192 * s.tickDiv, (s.reg (firstSeg e.stream)).toNat, (s.reg (capSegments e.stream)).toNat)
  | _ => (into, 0, 0, 0)

/-- The record of an element. -/
def State.mapElem (s : State) (g : Graph) (e : PlacedElem) : List Byte :=
  let (used, cap, d1, d2) := s.mapFigures g e
  let fl := e.flags ||| (if e.el.kind = 1 ∧ d1 ≠ 0 then 8 else 0)
  leBytes 2 e.el.id ++ leBytes 1 0 ++ leBytes 1 e.el.kind ++ leBytes 2 e.unit ++ leBytes 2 fl ++ leBytes 4 used ++ leBytes 4 cap
    ++ leBytes 4 d1 ++ leBytes 4 d2 ++ leBytes 8 e.since

/-- The record of an edge. -/
def State.mapEdge (s : State) (i : Nat) (e : PlacedEdge) : List Byte :=
  leBytes 2 i ++ leBytes 1 1 ++ leBytes 1 0 ++ leBytes 2 e.src ++ leBytes 2 (if e.stopped then 24 else 0) ++ leBytes 4 e.words
    ++ leBytes 4 (if e.hops.isEmpty then 0 else 20 * s.tickDiv) ++ leBytes 4 (e.hops.length + 0x100 * e.entry) ++ leBytes 4 e.units
    ++ leBytes 8 e.since

/-- The placement map of a graph: elements in ascending ID, then edges in table order. -/
def State.mapBytes (s : State) (g : Graph) : List Byte :=
  let es := (List.range 1024).flatMap (fun i => g.elems.filter (fun e => e.el.id == i))
  mapHeader g ++ es.flatMap (s.mapElem g) ++ (g.edges.zipIdx).flatMap (fun x => s.mapEdge x.2 x.1)

/-- MAP_READ (R291, R438): a graph that has stopped is still shown until its handle is used again. -/
def execMapRead (f : Nat) (s : State) : Result :=
  s.wheelCommand f 4 (fun d => s.completeDesc f d 7 6 0 0 s.time.tick) (fun d =>
    if d.judge f ≠ 0 then s.completeDesc f d (d.judge f) 0 0 0 s.time.tick else match s.wheel.graphs.find? (fun g => g.fn == f && g.handle == d.param 0 % 0x100) with
    | none => s.completeDesc f d 2 0 0 0 s.time.tick
    | some g =>
      let n := 32 * (1 + g.elems.length + g.edges.length)
      if d.length < n then s.completeDesc f d 3 0 0 0 s.time.tick
      else (s.emit (.hostWrite f d.buffer (s.mapBytes g))).completeDesc f d 0 0 (g.elems.length + g.edges.length) n s.time.tick)

end Sys2Proof.Machine
end

