-- ==== Sys2Proof/Machine/Functions.lean ====
section
/-! DEFINITION. Function-level reset, and the link going down (14_host_interface.md, R425, R426; 18_register_summary.md,
R549). -/

namespace Sys2Proof.Machine

open Regs

/-- The registers from offset `a` to `b` returned to their reset values. -/
def State.clearRegs (s : State) (a b : Nat) : State :=
  { s with regs := s.regs.filter (fun e => decide (e.1 < a ∨ b < e.1)) }

/-- The host's side of a function returned to reset (R425, R549): rings and descriptors, MSI-X, the HOST and EVENTS registers,
and the events that wait for it (R477). -/
def State.resetFn (s : State) (f : Nat) : State :=
  let t := (s.clearRegs (0x10000 + 0x1000 * f) (0x10FFF + 0x1000 * f)).clearRegs (0x20000 + 0x1000 * f) (0x20FFF + 0x1000 * f)
  { t.setFn f { idleFn with aerMask := (t.fn f).aerMask, busMaster := (t.fn f).busMaster, readSize := (t.fn f).readSize } with events := FMap.set (fun _ => []) t.events f [] }

/-- The graphs of a function stopped at the next boundary (R425); one that has not started is withdrawn (R284). -/
def State.stopGraphs (s : State) (f : Nat) : State :=
  (s.graphs.filter (fun g => g.fn == f)).foldl (fun t g =>
    if g.phase = .admitted then t.withdraw g
    else
      let n := s.time.tick + 1
      t.putGraph { g with stopAt := some ((g.stopAt.map (fun m => min m n)).getD n) }) s

/-- What F0's configuration load and flash command come to at its reset: the load is aborted, and a write to the flash goes on
without its descriptor (R425). -/
def State.dropF0 (s : State) : State :=
  let t := { s with loader := { s.loader with op := s.loader.op.map (fun (x : FlashOp) => { x with d := none }) } }
  match t.loader.load with
  | some l => if l.host then t.abortLoad { l with descs := [] } 0x19 l.lastAddr l.epoch else t
  | none => t

/-- The reset of one function (R425). -/
def State.resetFunction (s : State) (f : Nat) : State :=
  let t := (s.stopGraphs f).resetFn f
  let t := if f = 0 then t.dropF0 else t
  { t with mem := { t.mem with freeing := (f :: t.mem.freeing).eraseDups } }

/-- FUNCTION_LEVEL_RESET (R425): a reset of F0 also resets every VF. -/
def execFunctionLevelReset (f : Nat) (s : State) : Result :=
  .next (s.onlyIf (decide (f < 8) && !s.boot.held)
    (if f = 0 then foldBelow (fun g t => t.resetFunction g) 8 s else s.resetFunction f))

/-- LINK_DOWN (R426): every function is reset. -/
def execLinkDown (s : State) : Result :=
  .next (s.onlyIf (!s.boot.held)
    (let t := foldBelow (fun g t => t.resetFunction g) 8 s; { t with boot := { t.boot with linkSlow := false } }))

/-- Segments of functions that were reset, freed at a boundary once their streams have closed (R413, R425). -/
def State.freeSteps (s : State) : State :=
  let t := s.mem.freeing.foldl (fun t f => t.freeOwned f) s
  let more (f : Nat) : Bool := t.graphs.any (fun g => g.fn == f && g.stopAt.isSome)
    || t.mem.segs.any (fun x => x.2.owner == f + 1 && (t.cap x.2.stream).ending)
  { t with mem := { t.mem with freeing := t.mem.freeing.filter more } }

end Sys2Proof.Machine
end

