-- ==== Sys2Proof/Machine/Network.lean ====
section
/-! DEFINITION. Routers, network interfaces and chip links (12_network_on_chip.md, R365–R398). -/

namespace Sys2Proof.Machine

open Regs

/-! ### Interfaces (R365, R381, R384) -/

/-- PWR of an NI: 0 AWAKE, 1 DRAINING, 2 ASLEEP (R384). -/
def State.niPower (s : State) (n : Nat) : Nat :=
  match s.powerOf (niDomain n) with
  | .on => 0
  | .draining => if s.noc.drained.contains n then 2 else 1
  | _ => 2

/-- NI[n].STATUS as read. -/
def State.niStatusWord (s : State) (n : Nat) : Word :=
  let k := (s.boundEdges.filter (fun x => x.2.dst == n)).length
  niStatus_CREDIT_FREE.put (niStatus_PWR.put (niStatus_DOMAIN.put (s.reg (niStatus n)) (s.niOwner n)) (s.niPower n))
    (niGrants n - 130 * k)

/-! ### Errors (R372, R373, R377, R380) -/

/-- The ROUTE of a response: the hops that the request has taken, inverted, in reverse order (R377). -/
def reverseRoute (route hop src : Nat) : Nat :=
  let taken := ((List.range hop).map (fun h => route / 8 ^ h % 8)).filter (fun h => decide (h < 4))
  routeOf ((taken.reverse.map (fun h => match h with | 0 => 1 | 1 => 0 | 2 => 3 | _ => 2)) ++ [4 + src % 4])

/-- A response of the NI that a packet has reached; its header carries that NI's own owner code (R382). -/
def State.responseTo (s : State) (p : Packet) (cmd aux point : Nat) (data : List Byte) : Packet :=
  let len := (data.length + 31) / 32
  { cmd := cmd, route := reverseRoute p.route p.hop p.src, hop := 0, len := len, src := p.dst, tag := p.tag, domain := s.niOwner p.dst,
    lasth := if len = 0 then 0 else 16, epoch := p.epoch, aux := aux, addr := p.addr, point := point, tick := 0, sub := 0,
    dst := p.src, data := data, poisoned := false, marks := [], crossed := false, flaws := [] }

/-- A packet refused on its way (R373): ERR goes back to its source and the refusal is logged; an OWNER refusal is a violation
(R469, R470). The ERR's SRC names the destination NI (DESIGN CHOICE, log entry 31). -/
def State.refusePacket (s : State) (p : Packet) (code point : Nat) (own : Nat := 15) : State :=
  let r := s.netFault p code point own
  let t := s.send (s.responseTo p 0x3F code point [])
  if code = 4 then
    t.report r 860 4 [p.addr % 0x100000000, r.addr2, code * 0x100 + p.cmd % 0x100] p.domain
  else t.logFault r

/-- Whether a header could not leave its own NI (R370). -/
def tooLong (p : Packet) : Bool := decide (64 < p.len) || (p.cmd == 4 && decide (p.aux = 0 ∨ 64 < p.aux))

/-- K of R380. -/
def State.netDeadline (s : State) : Nat := max 2 ((2000 + s.tickDiv - 1) / max 1 s.tickDiv + 1)

/-- The units of response buffer that a request reserves (R380). -/
def responseUnits (p : Packet) : Nat := if p.cmd = 4 then p.aux + 1 else 1

/-- A request that awaits a response is entered at its source when the network first shows it, with its deadline and the room that it has
reserved (R380). -/
def State.noteReq (s : State) (p : Packet) : State :=
  if (p.cmd = 3 ∨ p.cmd = 4) ∧ ¬ s.noc.reqs.any (fun r => r.ni == p.src && r.tag == p.tag) then
    { s with noc := { s.noc with
        reqs := s.noc.reqs ++ [⟨p.src, p.tag, p.addr, p.dst, s.time.bounds + s.netDeadline, p.cmd, p.domain, responseUnits p⟩]
        expired := s.noc.expired.filter (fun r => !(r.ni == p.src && r.tag == p.tag)) } }
  else s

/-- Whether a packet travels on the response channel (R371). -/
def isResponse (p : Packet) : Bool := decide (32 ≤ p.cmd)

/-- A packet that a unit outside the model has sent, entered where the network first shows it: a request has taken its credits (R380). -/
def State.enter (s : State) (p : Packet) : State :=
  if s.net.contains p then s else (if isResponse p then s else s.takeCredits p).send p

/-- Whether a header has been ejected to its NI (R374). -/
def ejected (p : Packet) : Bool := decide (0 < p.hop ∧ 4 ≤ p.route / 8 ^ (p.hop - 1) % 8)

/-- The units in the request buffer of an NI: those of the packets ejected to it and not yet drained (R381). -/
def State.bufferLoad (s : State) (n : Nat) : Nat :=
  ((s.net.filter (fun p => !isResponse p && p.dst == n && ejected p)).map packetUnits).foldl (· + ·) 0

/-- The units of request buffer that an NI has (R381). -/
def niBuffer (n : Nat) : Nat := niGrants n + 128

/-! #### Crossing FIFOs (R383) -/

/-- The units that a crossing FIFO holds (R383). -/
def bridgeDepth : Nat := 16

/-- The Gray code of a pointer (R383). -/
def gray (n : Nat) : Nat := n ^^^ (n / 2)

/-- The Gray-coded pointers of crossing FIFO `k`, as they count over twice its depth. Both read alike between packets: every unit that has
entered has left. -/
def State.bridgePointer (s : State) (k : Nat) : Nat := gray (FMap.get (fun _ => 0) s.noc.bridge k)

/-- The units of a packet through crossing FIFO `k`: header and data. The pointers of a FIFO into an unpowered domain stay reset. -/
def State.crossBridge (s : State) (k : Nat) (p : Packet) : State :=
  if s.powerOf (niDomain (k / 2)) = .off then s
  else
    let n := (FMap.get (fun _ => 0) s.noc.bridge k + packetUnits p) % (2 * bridgeDepth)
    { s with noc := { s.noc with bridge := FMap.set (fun _ => 0) s.noc.bridge k n } }

/-- A packet has left the network. -/
def State.landed (s : State) (p : Packet) : State := { s with net := s.net.erase p }

/-- Whether an NI is a chip link's. -/
def isLink (n : Nat) : Bool := n % 4 == 2 && decide (56 ≤ n / 4 ∧ n / 4 < 60)

/-- The destination drains a request and returns its credits (R381): to the NI that sent it or, for what has come over a chip link, to the far
XL NI (R392) while the link is up. -/
def State.credit (s : State) (p : Packet) : State :=
  let c := { s.responseTo p 0x23 (packetUnits p) 0 [] with addr := 0 }
  let l := p.dst / 4 - 56
  if p.crossed && isLink p.dst then s.onlyIf ([2, 3].contains (s.fld (xlStatus l) xlStatus_STATE)) (s.emit (.crossed l { c with crossed := true })) else s.send c

/-- Whether an NI takes a request (R384, R395): AWAKE, or DRAINING where the header was accepted before the drain began or in its cycle. -/
def State.takes (s : State) (p : Packet) : Bool :=
  match s.niPower p.dst with
  | 0 => true
  | 1 => s.noc.draining.any (fun d => d.1 == niDomain p.dst && (d.2.1 == s.time.now || d.2.2.contains p))
  | _ => false

/-- A request at its destination NI (R368, R370, R371, R381, R384): refused at its source for its length; discarded when poisoned; refused for
a reserved command, or while the NI does not take it; or handed on through the NI's crossing FIFO. Its credits return as it is drained, which
waits for what is held back at an XL NI. -/
def State.request (s : State) (p : Packet) (go : State → State) : Result :=
  .next (if 256 ≤ p.dst ∨ 256 ≤ p.src then s
    else if tooLong p then (s.landed p).refuseOwn p 1
    else
      let t := ((s.enter p).noteReq p).landed p
      if p.poisoned then (t.count (niPoisoned p.dst)).credit p
      else if reservedCmd p.cmd then (t.refusePacket p 3 (0x100 + p.dst)).credit p
      else if !t.takes p then (t.refusePacket p 5 (0x100 + p.dst)).credit p
      else
        let t := go (t.crossBridge (2 * p.dst) p)
        if t.noc.linkWait.any (fun w => w.2 == p) then t else t.credit p)

/-! ### Streams (R371, R392, R393) -/

/-- The stream bound at an NI under a number. -/
def State.bound (s : State) (n num : Nat) : Option (Graph × PlacedEdge) :=
  s.boundEdges.find? (fun x => x.2.dst == n && x.2.num == num % 0x10000)

/-- The element of a graph that an edge ends on. -/
def Graph.sink (g : Graph) (e : PlacedEdge) : Option PlacedElem := g.elem e.ed.to_

/-- What an edge carries, as a chunk has it (R444): 1 words, 2 raw samples, 3 records. -/
def Graph.carries (g : Graph) (e : PlacedEdge) : Nat :=
  match g.elem e.ed.frm with
  | none => 1
  | some x =>
    if x.el.kind = 1 ∧ e.ed.fromPort = 4 then 2
    else if x.el.kind = 4 ∧ bitOf (x.el.streamWord (usedPorts (g.edges.map (·.ed)) x.el.id) e.ed.fromPort) 29 = 1 then 3
    else 1

/-- A stream of the bisque service reaches a host engine (R532): data ring 0 of the function, handle 0, edge q. -/
def State.bisqueArrives (s : State) (p : Packet) : State :=
  let f := (p.dst / 4 - 48) / 2
  s.hostChunk f 0 1 (p.addr % 0x10000 - 0x8000) p

/-- The units sent over a chip link that the far XL NI has not credited (R392). -/
def State.linkUsed (s : State) (l : Nat) : Nat := FMap.get (fun _ => 0) s.noc.linkUsed l

/-- A packet leaves over chip link `l` (R391–R393): while the link is ACTIVE it is sent as the credits for the far XL NI's buffer allow, behind
what waits for them; it is discarded while the link is UP, and returned while it is neither. -/
def State.overLink (s : State) (l : Nat) (p : Packet) : State :=
  match s.fld (xlStatus l) xlStatus_STATE with
  | 3 =>
    if s.linkUsed l + packetUnits p ≤ niGrants (niLink l) && !s.noc.linkWait.any (fun w => w.1 == l) then
      ({ s with noc := { s.noc with linkUsed := FMap.set (fun _ => 0) s.noc.linkUsed l (s.linkUsed l + packetUnits p) } }).emit (.crossed l p)
    else { s with noc := { s.noc with linkWait := s.noc.linkWait ++ [(l, p)] } }
  | 2 => s.setReg (xlDrop l) (s.reg (xlDrop l) + BitVec.ofNat 32 (packetUnits p))
  | _ => s.refusePacket p 6 (0x100 + p.dst)

/-- What waits at an XL NI goes on as far as it may, and its credits return. -/
def State.flushLink (s : State) (l : Nat) : State :=
  (s.noc.linkWait.filter (fun w => w.1 == l)).foldl (fun t w =>
    let u := t.overLink l w.2
    if u.noc.linkWait.contains w then u else u.credit w.2)
    { s with noc := { s.noc with linkWait := s.noc.linkWait.filter (fun w => w.1 != l) } }

/-- NO_TAG raised, once per tick (R393, R396). -/
def State.sayNoTag (s : State) (l : Nat) : State :=
  let t := s.count (xlNotag l)
  if t.noc.noTag.contains l then t else ({ t with noc := { t.noc with noTag := l :: t.noc.noTag } }).raise (824 + l) 5

/-- A packet that has crossed chip link `l`: sent on with the route, destination, credits and owner of its tag's entry (R392, R468). -/
def State.fromLink (s : State) (l : Nat) (p : Packet) : State :=
  match FMap.get (fun _ => []) s.noc.remotes (1024 * l + p.tag) with
  | [] => s.sayNoTag l
  | rs => rs.foldl (fun t r =>
      t.sendBy (256 + r.num) { p with route := routeOf r.entry.hops, hop := 0, src := p.dst, tag := 0, domain := r.fn + 1, dst := r.entry.dst,
                                      addr := r.num, crossed := false }) s

/-- The samples of a stream for a DAC, packed as in a raw tap: 16 bits each, the earliest lowest (R79, R407; DESIGN CHOICE, log entry
53). -/
def dacSamples (p : Packet) : List Nat :=
  (List.range (16 * (p.len - 1) + p.lasth)).map (fun i => leAt p.data (2 * i) 2)

/-- The words of a packet (R369). -/
def packetWords (p : Packet) : List Word :=
  (List.range ((16 * (p.len - 1) + p.lasth) / 2)).map (fun i => BitVec.ofNat 32 (leAt p.data (4 * i) 4))

/-- The core at an NI (R365). -/
def coreAt (n : Nat) : Nat := if n % 4 = 1 then n / 4 else 48 + n / 4

/-- A STREAM packet given to the unit that its number names (R371, R407, R444); a core and a sagger take its words one by one (R211, R312). -/
def State.deliverStream (s : State) (g : Graph) (e : PlacedEdge) (p : Packet) : State :=
  match g.sink e with
  | none => s
  | some y => match y.el.kind with
    | 4 => (packetWords p).foldl (fun t w => t.inputWord (coreAt p.dst) e.ed.toPort w) s
    | 5 => (packetWords p).foldl (fun t w => t.fabricWord ((p.dst / 4 - 24) / 2) e.ed.toPort w) s
    | 6 => s.onlyIf (s.dacStreams (y.unit % 0x1000)) (s.dacFeed (y.unit % 0x1000) (dacSamples p))
    | 8 => s.capturePacket y.stream p
    | 9 => s.hostChunk g.fn (y.el.p 0) (g.carries e) (g.handle * 0x10000 + g.edges.idxOf e) p
    | 10 => s.overLink (p.dst / 4 - 56) p
    | _ => s

/-- STREAM (R28, R371, R382, R393): what comes over a chip link that is not ACTIVE is lost (DEDUCED, log entry 80); a link that is UP takes
and discards every STREAM sent to it; a stream number that is not bound is UNBOUND, and a DOMAIN that is neither 0 nor the stream's owner is
OWNER. -/
def execStream (p : Packet) (s : State) : Result :=
  let l := p.dst / 4 - 56
  let num := p.addr % 0x10000
  s.request p (fun t =>
    if isLink p.dst && p.crossed then (if t.linkActive l then t.fromLink l p else t)
    else if isLink p.dst && t.fld (xlStatus l) xlStatus_STATE == 2 then t.overLink l p
    else match t.bound p.dst num with
      | some (g, e) => if p.domain = 0 ∨ p.domain = g.fn + 1 then t.deliverStream g e p
          else t.refusePacket p 4 (0x100 + p.dst) (g.fn + 1)
      | none =>
        if p.dst % 4 = 3 ∧ 48 ≤ p.dst / 4 ∧ 0x8000 ≤ num ∧ num < 0x8010 then t.bisqueArrives p
        else t.refusePacket p 7 (0x100 + p.dst))

/-! ### Memory requests (R371, R382, R401) -/

/-- The stack that an NI's capture memory port serves (R365); the spec gives no other unit an address space (DEDUCED, log entry 32). -/
def captureStack (n : Nat) : Option Nat := if n % 4 = 3 ∧ 16 ≤ n / 4 ∧ n / 4 < 48 then some ((n / 4 - 16) / 16) else none

/-- The first failing check of a memory request of `n` bytes (R373, R468): its code, and the owner concerned; 0 none. -/
def State.memoryError (s : State) (p : Packet) (n : Nat) : Nat × Nat :=
  if isLink p.dst then (0xA, 15)
  else match captureStack p.dst with
    | none => (3, 15)
    | some st =>
      if p.addr / 2 ^ 34 ≠ st ∨ (p.addr + n - 1) / 2 ^ 34 ≠ st then (8, 15)
      else match (segsOf p.addr n).find? (fun g => p.domain != 0 && (s.seg g).owner != p.domain) with
        | some g => (4, (s.seg g).owner)
        | none => (0, 15)

/-- A memory request carried out, or refused. -/
def State.memoryRequest (s : State) (p : Packet) (n : Nat) (go : State → State) : Result :=
  s.request p (fun t => match t.memoryError p n with
    | (0, _) => go t
    | (e, own) => t.refusePacket p e (0x100 + p.dst) own)

/-- WRITE (R371). -/
def execWrite (p : Packet) (s : State) : Result :=
  s.memoryRequest p (32 * p.len) (fun t => t.putBytes p.addr (p.data.take (32 * p.len)))

/-- WRITE_ACK (R371). -/
def execWriteAck (p : Packet) (s : State) : Result :=
  s.memoryRequest p (32 * p.len) (fun t => (t.putBytes p.addr (p.data.take (32 * p.len))).send (t.responseTo p 0x21 0 0 []))

/-- READ (R371, R401): a unit found with a double-bit error comes back in a packet marked poisoned. -/
def execRead (p : Packet) (s : State) : Result :=
  s.memoryRequest p (32 * p.aux) (fun t =>
    let (t, bad) := t.findFlaws p.domain (p.addr / 32) ((p.addr + 32 * p.aux - 1) / 32) p.flaws
    t.send { t.responseTo p 0x22 0 0 (t.getBytes p.addr (32 * p.aux)) with poisoned := bad })

/-- The region whose cells lie behind an NI: a sagger's own; that of another NI is the static region, for which the spec names none (DESIGN
CHOICE, log entry 90). -/
def regionOf (n : Nat) : Nat := if n % 4 = 2 ∧ 24 ≤ n / 4 ∧ n / 4 < 56 then (n / 4 - 24) / 2 + 1 else 0

/-- CFG_FRAME (R371, R373): only the loader sends it; a frame of another region is outside a sagger's space, and at any other NI a command
that it does not serve; the payload of a frame that the loader has written reaches its cells. -/
def execCfgFrame (p : Packet) (s : State) : Result :=
  s.request p (fun t =>
    if isLink p.dst then t.refusePacket p 0xA (0x100 + p.dst)
    else if p.src ≠ 250 then t.refusePacket p 4 (0x100 + p.dst)
    else if p.addr / 0x80000 ≠ regionOf p.dst then t.refusePacket p (if regionOf p.dst = 0 then 3 else 8) (0x100 + p.dst)
    else if t.loader.load.any (fun l => l.written.contains p.addr) then
      { t with loader := { t.loader with cells := FMap.set (fun _ => zeroCell) t.loader.cells p.addr ((p.data.drop 16).take 512) } }
    else t)

/-! ### Responses (R372, R380, R381) -/

/-- A poisoned response discarded whole at the NI that it reaches (R368). -/
def State.dropPoisoned (s : State) (p : Packet) : State := (s.landed p).count (niPoisoned p.dst)

/-- A response that no request waits for any more: discarded and counted (R380). -/
def State.late (s : State) (p : Packet) : State :=
  ({ s with noc := { s.noc with expired := s.noc.expired.filter (fun r => !(r.ni == p.dst && r.tag == p.tag)) } }).count (niLate p.dst)

/-- A response that answers a request is taken, which releases what the request had reserved; any other is late (R380). -/
def State.response (s : State) (p : Packet) : State :=
  if p.poisoned then s.dropPoisoned p
  else
    let t := (s.landed p).crossBridge (2 * p.dst) p
    match t.noc.reqs.find? (fun r => r.ni == p.dst && r.tag == p.tag) with
    | some r => { t with noc := { t.noc with reqs := t.noc.reqs.erase r } }
    | none => t.late p

/-- ACK (R372). -/
def execAck (p : Packet) (s : State) : Result := .next (s.onlyIf (decide (p.dst < 256)) (s.response p))

/-- READ_DATA (R372). -/
def execReadData (p : Packet) (s : State) : Result := .next (s.onlyIf (decide (p.dst < 256)) (s.response p))

/-- CREDIT (R372, R381): AUX units are credited to the sender that the response reaches, and what waited for them goes on; from over a chip
link, to what the XL NI has sent across (R392). -/
def execCredit (p : Packet) (s : State) : Result :=
  .next (s.onlyIf (decide (p.dst < 256))
    (if p.poisoned then s.dropPoisoned p
     else
       let t := s.landed p
       if p.crossed && isLink p.dst then
         let l := p.dst / 4 - 56
         ({ t with noc := { t.noc with linkUsed := FMap.set (fun _ => 0) t.noc.linkUsed l (t.linkUsed l - p.aux) } }).flushLink l
       else
         ({ t with noc := { t.noc with used := FMap.set (fun _ => 0) t.noc.used (256 * p.dst + p.src) (t.creditsUsed p.dst p.src - p.aux) } }).sendWaiting))

/-- ERR (R372, R373, R380): recorded, and the request that drew it is over; one for a request whose deadline has expired is late. -/
def execErr (p : Packet) (s : State) : Result :=
  .next (s.onlyIf (decide (p.dst < 256))
    (let mine (r : NetReq) : Bool := r.ni == p.dst && r.tag == p.tag && r.addr == p.addr
     if p.poisoned then s.dropPoisoned p
     else if !s.noc.reqs.any mine && s.noc.expired.any mine then (s.landed p).late p
     else
       let t := s.landed p
       let t := { t with noc := { t.noc with reqs := t.noc.reqs.filter (fun r => !mine r) } }
       t.recordErr p.dst p.aux p.addr p.point p.src))

/-- Whether a response to a request stands at its NI: one that has arrived in the cycle of the deadline is taken (R380, R395). -/
def State.answered (s : State) (r : NetReq) : Bool :=
  s.net.any (fun p => isResponse p && p.cmd != 0x23 && p.dst == r.ni && p.tag == r.tag && ejected p)

/-- REQUEST_TIMEOUT (R373, R380): the reservation is released, and the NI returns TIMEOUT to its unit and logs it (DEDUCED, log entry 89). -/
def execRequestTimeout (n : Nat) (s : State) : Result :=
  .next (match s.noc.reqs.find? (fun r => r.ni == n && decide (r.expiry ≤ s.time.bounds) && !s.answered r) with
    | none => s
    | some r =>
      let t := { s with noc := { s.noc with reqs := s.noc.reqs.erase r, expired := s.noc.expired ++ [r] } }
      (t.logFault (s.netEntry r.domain 15 r.addr r.dest n (0x100 + n) 9 r.cmd)).recordErr n 9 r.addr (0x100 + n) r.dest)

/-! ### Routers and links (R367, R368, R374, R385–R387) -/

/-- The router that a torus port leads to. -/
def neighbour (r p : Nat) : Nat :=
  let (x, y) := (r % 8, r / 8)
  match p with
  | 0 => 8 * y + (x + 1) % 8
  | 1 => 8 * y + (x + 7) % 8
  | 2 => 8 * ((y + 1) % 8) + x
  | _ => 8 * ((y + 7) % 8) + x

/-- The port at the other end of a torus link. -/
def opposite (p : Nat) : Nat := match p with | 0 => 1 | 1 => 0 | 2 => 3 | _ => 2

/-- The state of a torus port (R385). -/
def State.portState (s : State) (r p : Nat) : Nat := s.fld (portStatus r) ⟨2 * p + 1, 2 * p⟩

/-- The state of a torus port set. -/
def State.setPort (s : State) (r p x : Nat) : State := s.setFld (portStatus r) ⟨2 * p + 1, 2 * p⟩ x

/-- A packet as the network holds it, replaced. -/
def State.moved (s : State) (p q : Packet) : State := { s with net := s.net.map (fun x => if x = p then q else x) }

/-! #### Room for a header (R378) -/

/-- The units that a router input holds on each virtual channel (R378). -/
def inputUnits : Nat := 160

/-- The NI from whose router a packet has come: an ERR of a router, which POINT names, begins there (R373, R377). -/
def startsAt (p : Packet) : Nat := if p.cmd = 0x3F ∧ p.point < 0x100 then 4 * (p.point % 64) else p.src

/-- The router input in which a packet stands, as the link that ends there: the last torus hop it has taken; none before the first one
and once it has been ejected (R374). A packet stands where its header does (DESIGN CHOICE, log entry 81). -/
def standsIn (p : Packet) : Option Nat :=
  let hops := (List.range p.hop).map (fun i => p.route / 8 ^ i % 8)
  if p.hop = 0 ∨ hops.any (fun h => decide (4 ≤ h)) then none else (linksOf (startsAt p) hops).getLast?

/-- The units that the packets in a router input take on a virtual channel. -/
def State.inputLoad (s : State) (k : Nat) (response : Bool) : Nat :=
  ((s.net.filter (fun p => isResponse p == response && standsIn p == some k)).map packetUnits).foldl (· + ·) 0

/-- Whether a header at router `r` enters a ring with hop `h`: from an NI, or from the other ring. -/
def entersRing (p : Packet) (h : Nat) : Bool := p.hop == 0 || p.route / 8 ^ (p.hop - 1) % 8 / 2 != h / 2

/-- Whether the input behind port `h` of router `r` has room for a header: for two packets of 65 units where it enters a ring, else for
one. -/
def State.roomAhead (s : State) (r : Nat) (p : Packet) (h : Nat) : Bool :=
  decide (s.inputLoad (4 * r + h) (isResponse p) + (if entersRing p h then 130 else 65) ≤ inputUnits)

/-- Whether NI `n` has room for a packet: its request buffer for a request (R381), and for a response what the request has reserved (R380). -/
def State.roomAt (s : State) (p : Packet) (n : Nat) : Bool := isResponse p || decide (s.bufferLoad n + packetUnits p ≤ niBuffer n)

/-- A header ejected to NI `n`: a reserved command is refused at once (R371). -/
def State.eject (s : State) (p : Packet) (n : Nat) : State :=
  let q := { p with hop := p.hop + 1, dst := n }
  if reservedCmd p.cmd then
    let t := (s.landed p).refusePacket q 3 (0x100 + n)
    if isResponse p then t else t.credit q
  else s.moved p q

/-- ROUTER_HEADER (R370, R374, R378, R380, R385, R387): a packet that is too long never leaves its NI, nor does a request for which its NI holds
no credits; else the next hop of a header at router `r`; one that finds no room ahead stays where it is. -/
def execRouterHeader (r : Nat) (p : Packet) (s : State) : Result :=
  .next (s.onlyIf (decide (r < 64))
    (let h := p.route / 8 ^ p.hop % 8
     if p.hop = 0 ∧ tooLong p ∧ p.src < 256 then (s.landed p).refuseOwn p 1
     else if p.hop = 0 && !s.net.contains p && !isResponse p && !s.mayPay p then s
     else
     let t := (s.enter p).noteReq p
     let t := if p.hop = 0 then t.crossBridge (2 * p.src + 1) p else t
     if 13 ≤ p.hop ∨ (h < 4 ∧ p.hop = 12) ∨ (4 ≤ h ∧ r = 63 ∧ h = 6) then
       (t.landed p).refusePacket p 2 (r + 64 * (h % 4))
     else if 4 ≤ h then (if s.roomAt p (4 * r + (h - 4)) then t.eject p (4 * r + (h - 4)) else s)
     else if t.portState r h = 0 then (if s.roomAhead r p h then t.moved p { p with hop := p.hop + 1 } else s)
     else ((t.landed p).count (rtClosed r)).refusePacket p 6 (r + 64 * h)))

/-- The links of the whole route of a packet, in their order. -/
def wholeRoute (p : Packet) : List Nat := linksOf (startsAt p) ((List.range 13).map (fun i => p.route / 8 ^ i % 8))

/-- The links that the header of a packet has passed. -/
def passedLinks (p : Packet) : List Nat := (wholeRoute p).take (p.hop + 1)

/-- A packet with a unit still unacknowledged on a link that has failed is returned with PATH_CLOSED, from the router before that link; where
its header has passed the link, that part goes on poisoned (R368, R377). -/
def State.loseOn (s : State) (k point : Nat) (p : Packet) : State :=
  let t := if (passedLinks p).contains k then s.moved p { p with poisoned := true } else s.landed p
  t.refusePacket { p with hop := min p.hop ((wholeRoute p).idxOf k - 1) } 6 point

/-- The receiving end of a link that has carried nothing. -/
def idleLink : LinkSt := ⟨0, 0, false, 0, 0⟩

/-- The receiving end of a link. -/
def State.link (s : State) (k : Nat) : LinkSt := FMap.get (fun _ => idleLink) s.noc.links k

/-- The receiving end of a link set. -/
def State.setLink (s : State) (k : Nat) (x : LinkSt) : State :=
  { s with noc := { s.noc with links := FMap.set (fun _ => idleLink) s.noc.links k x } }

/-- A link that has failed (R368): torus port k = 4r + p, or chip link k − 256. Packets with a unit still unacknowledged are
returned by the router that was sending them: the one behind the port, where their route does not take it. -/
def State.failLink (s : State) (k : Nat) (lost : List Packet) : State :=
  let t := s.setLink k { idleLink with heard := s.time.now }
  if k < 256 then
    let (r, p) := (k / 4, k % 4)
    let (q, o) := (neighbour r p, opposite p)
    let t := ((t.setPort r p 3).setPort q o 3).report ⟨8, 0, 15, 760 + r, 0xB000 + k, 0, 1, 0, s.time.tick⟩ (760 + r) 1 []
    let t := t.raise (760 + q) 1
    lost.foldl (fun t x =>
      if (wholeRoute x).contains (4 * q + o) then t.loseOn (4 * q + o) (q + 64 * o) x
      else t.loseOn k (r + 64 * p) x) t
  else
    let l := k - 256
    let t := if 2 ≤ t.fld (xlStatus l) xlStatus_STATE then t.setFlag (xlStatus l) xlStatus_WENT_DOWN else t
    let t := (t.setFld (xlStatus l) xlStatus_STATE 4).report ⟨8, 0, 15, 824 + l, 0xC000 + l, 0, 1, 0, s.time.tick⟩ (824 + l) 4 []
    (lost.foldl (fun t x => (t.landed x).refusePacket x 6 (0x100 + niLink l)) t).flushLink l

/-- Whether a link is enabled: a torus port ENABLED or DRAINING, a chip link UP or ACTIVE. -/
def State.linkOn (s : State) (k : Nat) : Bool :=
  if k < 256 then decide (s.portState (k / 4) (k % 4) < 2)
  else decide (k < 260) && [2, 3].contains (s.fld (xlStatus (k - 256)) xlStatus_STATE)

/-- REPLAY said, at most once in 100 ms (R396). -/
def State.sayReplay (s : State) (k src rsn : Nat) : State :=
  if (FMap.get (fun _ => none) s.noc.replaySaid k).all (fun a => decide (a + 200000000 ≤ s.time.now)) then
    ({ s with noc := { s.noc with replaySaid := FMap.set (fun _ => none) s.noc.replaySaid k (some s.time.now) } }).raise src rsn
  else s

/-- The units that a replay buffer holds (R367, R390). -/
def replayUnits : Nat := 32

/-- Whether a unit passes its check (R367): the CRC-32C over its 256 bits. -/
def unitGood (u : LinkUnit) : Bool := crc32c (leBytes 32 u.bits.toNat) == u.crc

/-- LINK_UNIT_RECEIVED (R367, R368): a unit reaches port 4r + p, or chip link k − 256. A good unit is taken where its sequence number is the one
due, and every eighth is acknowledged with those before it. A unit that fails its check is asked for again, from the number that stays due:
`resent` units are sent again in all, at most what the replay buffer holds beside those not acknowledged; what follows is discarded until it
arrives. The sixteenth failure in a row of one unit fails the link, and `lost` are the packets then still unacknowledged. -/
def execLinkUnitReceived (k : Nat) (ok : LinkUnit) (resent : Nat) (lost : List Packet) (s : State) : Result :=
  .next (s.onlyIf (s.linkOn k)
    (let x := { s.link k with heard := s.time.now }
     let resent := min resent (replayUnits - x.unacked)
     if unitGood ok then
       s.setLink k (if ok.seq = x.due then { x with due := (x.due + 1) % 256, bad := 0, resend := false, unacked := (x.unacked + 1) % 8 } else x)
     else if x.resend && ok.seq != x.due then s.setLink k x
     else if 16 ≤ x.bad + 1 then s.failLink k lost
     else
       let t := s.setLink k { x with bad := x.bad + 1, resend := true }
       if k < 256 then
         let (q, o) := (neighbour (k / 4) (k % 4), opposite (k % 4))
         let t := t.setReg (rtReplay q o) (t.reg (rtReplay q o) + BitVec.ofNat 32 resent)
         t.sayReplay (4 * q + o) (760 + q) 7
       else t.sayReplay k (824 + (k - 256)) 6))

/-- LINK_IDLE_TIMEOUT (R368): 1 µs after the last unit at the earliest. -/
def execLinkIdleTimeout (k : Nat) (lost : List Packet) (s : State) : Result :=
  .next (s.onlyIf (s.linkOn k && decide ((s.link k).heard + 2000 ≤ s.time.now)) (s.failLink k lost))

/-- PORT_DRAIN_DONE (R386). -/
def execPortDrainDone (r p : Nat) (s : State) : Result :=
  .next (s.onlyIf (decide (r < 64 ∧ p < 4) && s.portState r p == 1) ((s.setPort r p 2).raise (760 + r) 2))

/-! ### Power (R384) -/

/-- A domain begins to power down (R122, R384): its NIs drain, and what has been accepted before goes on. -/
def State.beginPowerDown (s : State) (d : Nat) : State :=
  if s.powerOf d ≠ .on then s
  else
    let inside := s.net.filter (fun p => !isResponse p && ejected p && niDomain p.dst == d)
    let t := { s with noc := { s.noc with draining := s.noc.draining.filter (fun (x : Nat × Nat × List Packet) => x.1 != d) ++ [(d, s.time.now, inside)],
                                             drained := s.noc.drained.filter (fun n => niDomain n != d) } }
    let t := t.setPower d .draining
    if d < 16 then t.injAbort d (fun _ => true) else t

/-- What a domain loses as it powers down: the slices that were powered go back to RESERVE (R89), cores are OFF (R193), a
sagger is OFF (R296), capture memory is lost (R402). -/
def State.powerDown (s : State) (d : Nat) : State :=
  let t := (s.setPower d .off).resetBridges d
  let t := { t with noc := { t.noc with drained := t.noc.drained.filter (fun n => niDomain n != d), draining := t.noc.draining.filter (fun (x : Nat × Nat × List Packet) => x.1 != d) } }
  if d < 16 then
    let t := { t with ana := { t.ana with down := FMap.set (fun _ => false) t.ana.down d true } }
    let t := (t.injAbort d (fun _ => true)).dropRun d
    (List.range 36).foldl (fun t i => if [1, 3].contains (t.sliceState d i) then t.toReserve d i else t) t
  else if d < 32 then t.darkSagger (d - 16)
  else if d < 41 then
    (List.range 8).foldl (fun t i =>
      let n := 8 * (d - 32) + i
      if t.hasCore n ∧ t.coreState n ≠ 4 then t.setCoreState n 0 else t) t
  else if d = 41 then { t with mem := { t.mem with data := [], segs := [] } }
  else t

/-- Whether an NI that drains has nothing left to do (R384): no request of its unit waits for its response, and no packet that was accepted is
still inside. -/
def State.niIdle (s : State) (n : Nat) : Bool :=
  !s.noc.reqs.any (fun r => r.ni == n) && !s.noc.draining.any (fun d => d.2.2.any (fun p => p.dst == n && s.net.contains p))

/-- An NI has drained; the last NI of a domain to drain lets it power down. -/
def State.niDrained (s : State) (n : Nat) : State :=
  let t := { s with noc := { s.noc with drained := (n :: s.noc.drained).eraseDups } }
  let d := niDomain n
  if ((List.range 256).filter (fun m => niDomain m == d)).all (fun m => t.noc.drained.contains m) then t.powerDown d else t

/-- NI_DRAIN_DONE (R384). -/
def execNiDrainDone (n : Nat) (s : State) : Result :=
  .next (s.onlyIf (decide (n < 256) && s.powerOf (niDomain n) == .draining && s.niIdle n) (s.niDrained n))

/-- SAGGER_POWER_DOWN (R296, R355, R384): at the first boundary 100 ms after the abort, an UNFIRED sagger that no load targets drains, and powers
down as soon as its NIs have nothing left to do; its cells are lost. -/
def execSaggerPowerDown (g : Nat) (s : State) : Result :=
  .next (match FMap.get (fun _ => none) s.loader.abortAt g with
    | some at_ =>
      if s.hasSagger g && s.saggerState g == 1 && !s.loader.load.any (fun l => l.hdr.any (fun h => h.region == g + 1))
          && decide (at_ + 200000000 ≤ s.tickStart) then
        let t := { s with loader := { s.loader with abortAt := FMap.set (fun _ => none) s.loader.abortAt g none } }
        [niSagger g 0, niSagger g 1].foldl (fun t n => if t.niIdle n then t.niDrained n else t) (t.beginPowerDown (16 + g))
      else s
    | none => s)

/-- NI_AWAKE (R384): a domain that is powered again reports ready. -/
def execNiAwake (n : Nat) (s : State) : Result :=
  .next (s.onlyIf (decide (n < 256) && s.powerOf (niDomain n) == .waking)
    (let d := niDomain n
     if 16 ≤ d ∧ d < 32 then s.powerSagger (d - 16) true else s.setPower d .on))

/-! ### Chip links (R28, R388–R393) -/

/-- Whether the device counts as synchronised (R47). -/
def State.synced (s : State) : Bool := s.bit timeStatus timeStatus_ALIGNED && !s.bit timeStatus timeStatus_HOLDOVER

/-- A write of XL_CTRL (R391, R397). -/
def State.writeXlCtrl (s : State) (f l : Nat) (v : Word) : State :=
  s.allowed (f == 0) f (xlCtrl l) v
    (let was := s.fld (xlStatus l) xlStatus_STATE
     let t := s.writeReg (xlCtrl l) xlCtrlDesc v
     if xlCtrl_EN.get v = 0 then
       let t := if was = 2 ∨ was = 3 then t.setFlag (xlStatus l) xlStatus_WENT_DOWN else t
       (t.setFld (xlStatus l) xlStatus_STATE 0).flushLink l
     else if was = 0 then t.setFld (xlStatus l) xlStatus_STATE 1 else t)

/-- XL_ENABLE (R391). -/
def execXlEnable (f l : Nat) (v : Word) (s : State) : Result := s.hostWrite (s.onlyIf (decide (l < 4)) (s.writeXlCtrl f l v))

/-- XL_TRAINED (R391): the far end has reported nothing yet (DEDUCED, log entry 91). -/
def execXlTrained (l : Nat) (s : State) : Result :=
  .next (s.onlyIf (decide (l < 4) && s.fld (xlStatus l) xlStatus_STATE == 1)
    (let t := ((s.setFld (xlStatus l) xlStatus_STATE 2).setFld (xlStatus l) xlStatus_PEER_SYNC 0).setFld (xlStatus l) xlStatus_DIV_MATCH 0
     let t := t.setLink (256 + l) { idleLink with heard := s.time.now }
     ({ t with noc := { t.noc with peerDiv := FMap.set (fun _ => 0) t.noc.peerDiv l 0, linkUsed := FMap.set (fun _ => 0) t.noc.linkUsed l 0 } }).raise (824 + l) 1))

/-- A trained link becomes ACTIVE, or falls back to UP (R28, R391). -/
def State.judgeLink (s : State) (l : Nat) : State :=
  let st := s.fld (xlStatus l) xlStatus_STATE
  let div := decide (FMap.get (fun _ => 0) s.noc.peerDiv l = s.tickDiv)
  let t := s.setFld (xlStatus l) xlStatus_DIV_MATCH (flag div)
  let good := t.synced && t.bit (xlStatus l) xlStatus_PEER_SYNC && div
  if st = 2 ∧ good then (t.setFld (xlStatus l) xlStatus_STATE 3).raise (824 + l) 2
  else if st = 3 ∧ !good then
    (((t.setFld (xlStatus l) xlStatus_STATE 2).setFlag (xlStatus l) xlStatus_WENT_DOWN).raise (824 + l) 3).flushLink l
  else t

/-- XL_CONTROL_UNIT (R391): the far end's POS, TICK_DIV and synchronisation. -/
def execXlControlUnit (l pos div : Nat) (sync : Bool) (s : State) : Result :=
  .next (s.onlyIf (decide (l < 4) && [2, 3].contains (s.fld (xlStatus l) xlStatus_STATE))
    (let t := (s.setFld (xlStatus l) xlStatus_PEER_POS pos).setFld (xlStatus l) xlStatus_PEER_SYNC (flag sync)
     ({ t with noc := { t.noc with peerDiv := FMap.set (fun _ => 0) t.noc.peerDiv l div } }).judgeLink l))

/-- A trained link at a boundary (R391): it is judged, and this end sends its POS, TICK_DIV and whether it is synchronised. -/
def State.linkStep (s : State) (l : Nat) : State :=
  if [2, 3].contains (s.fld (xlStatus l) xlStatus_STATE) then
    (s.judgeLink l).emit (.control l (s.fld board board_POS) s.tickDiv s.synced)
  else s

/-- A port that has failed is to be ENABLED no longer: Deogen clears its bit of PORT_CTRL.EN at the boundary that follows (R290, R398; DEDUCED, log
entry 117). -/
def State.closePorts (s : State) : State :=
  if !s.deogen then s
  else foldBelow (fun k t => if t.portState (k / 4) (k % 4) = 3 then t.setFld (portCtrl (k / 4)) ⟨k % 4, k % 4⟩ 0 else t) 256 s

/-- The network at a boundary: what may be said once per tick may be said again, and the links are judged (R373, R391). -/
def State.nocStep (s : State) : State :=
  foldBelow (fun l t => t.linkStep l) 4 ({ s with noc := { s.noc with said := [], noTag := [] } }).closePorts

/-- A write to the NOC block, `x` bytes into it (R397). -/
def State.writeNoc (s : State) (f x : Nat) (v : Word) : State :=
  let off := 0x400000 + x
  if 0x100 ≤ x ∧ x < 0x140 then
    let l := (x - 0x100) / 0x10
    match x % 0x10 with
    | 0 => s.writeXlCtrl f l v
    | 4 => s.allowed (f == 0) f off v (s.writeReg off xlStatusDesc v)
    | _ => s.allowed false f off v s
  else if 0x2000 ≤ x ∧ x < 0x4000 ∧ x % 0x20 = 4 then
    let n := (x - 0x2000) / 0x20
    s.allowed (f == 0 || s.niOwner n == f + 1) f off v (s.writeReg off niErrDesc v)
  else s.allowed false f off v s

end Sys2Proof.Machine
end

