-- ==== Sys2Proof/Machine/Thermal.lean ====
section
/-! DEFINITION. Injected conversions that complete, heat and supplies (04_converter_slices.md, R120; 05_calibration.md, R127;
09_placement_and_graphs.md, R286; 19_electrical_and_package.md, R562, R577–R580). -/

namespace Sys2Proof.Machine

open Regs

/-- The top of the junction range in °C (R9, R577). -/
def Part.tmax : Part → Int | .ka6416E => 105 | _ => 100

/-- Whether THERM_N is released, not driven low (R578, R579). -/
def State.thermHigh (s : State) : Bool := !s.boot.hold && !s.boot.trip

/-! ### Readings -/

/-- THERM_WARN, at most once per 100 ms (R577). -/
def State.thermWarn (s : State) (i : Nat) (v : Int) : State :=
  if s.boot.warnAt.any (fun t => decide (s.time.now < t + 200000000)) then s
  else { s with boot := { s.boot with warnAt := some s.time.now } }.raise 863 1 [i, ux 16 v]

/-- THERM_HOLD: a hold falls due at the next boundary (R577, R578). -/
def State.thermHold (s : State) (i : Nat) (v : Int) : State :=
  if s.boot.hold || s.boot.holdDue then s
  else { s with boot := { s.boot with holdDue := true, hotAt := s.time.now } }.raise 863 2 [i, ux 16 v]

/-- What a valid reading of sensor `i` does beside telling the temperature: the levels of R577 and the Wheel's heat moves
(R286, R287). -/
def State.judgeHeat (s : State) (i : Nat) (v : Int) : State :=
  let m := s.part.tmax
  let x := s.sensorOf i
  let hot := if 16 * (s.wheel.hot : Int) < v then min 3 (x.hot + 1) else 0
  let above := if 16 * (m + 10) < v then min 2 (x.above + 1) else 0
  let t := s.setSensor i { x with hot := hot, above := above }
  let t := if 16 * (m - 10) < v then { t with boot := { t.boot with hotAt := t.time.now } } else t
  let t := if 16 * m < v then t.thermWarn i v else t
  let t := if above = 2 then t.thermHold i v else t
  if hot < 2 ∨ !t.deogen then t
  else if 16 ≤ i then t.heatDie (i - 16) (hot == 2)
  else if hot = 2 then t.heatQuad i else t

/-- A completed conversion of Deogen's own: a temperature reading (R127). -/
def State.takeReading (s : State) (q mon : Nat) (v : Int) : State :=
  let i := if mon = 1 then 16 + q else q
  let valid := (readSensor (s.sensorOf i) v s.time.bounds).1
  let t := s.tempReading q mon v
  if valid then t.judgeHeat i v else t

/-- INJECTED_CONVERSION_DONE (R120): the oldest request of the tick before completes with the value that the converter found, at the latest
with the boundary that ends the tick (R39, R122). A standby that is still in start-up has not begun it. -/
def execInjectedConversionDone (q val : Nat) (s : State) : Result :=
  .next (match s.injOf q with
    | r :: rest =>
      if s.hasQuad q && (r.at_ + 1 == s.time.bounds || s.injAtLast q r) && (s.standby q).isSome && s.come (s.injDue q r) then
        let t := { s with pool := { s.pool with injFree := FMap.set (fun _ => 0) s.pool.injFree q (s.injDue q r) } }
        let t := (t.setInj q rest).injFinish q r 1 val
        if r.by_ = 0 ∧ r.mon < 2 then t.takeReading q r.mon (sx 16 (val % 0x10000)) else t
      else s
    | [] => s)

/-! ### Hold and trip -/

/-- A hold begins at this boundary (R578, R580): every graph stops, one that has not started is withdrawn, the bisque service
stops, and every quad powers down. Clusters follow at the next boundary. -/
def State.beginHold (s : State) : State :=
  let t := { s with boot := { s.boot with hold := true, holdDue := false, hotAt := s.time.now, downAt := some (s.time.bounds + 1) } }
  let t := t.dropMoves (fun _ => true)
  let t := t.graphs.foldl (fun t g =>
    if g.phase = .admitted then t.withdraw g else if g.phase = .stopping then t else t.beginStop g) t
  foldBelow (fun q t => t.beginPowerDown q) t.part.quads t.stopBisque

/-- A hold ends at this boundary: every sagger that holds a design restarts (R578). -/
def State.endHold (s : State) : State :=
  let t := { s with boot := { s.boot with hold := false, clearDue := false } }
  foldBelow (fun g t => if t.fired g then t.restartSagger g else t) t.part.saggers t

/-- The hold's part of step 3 of a boundary (R578, R580). -/
def State.holdStep (s : State) : State :=
  if s.boot.holdDue then s.beginHold else if s.boot.clearDue then s.endHold else s

/-- The clusters power down a boundary after the hold began, once the last runs have left (R578). -/
def State.holdClusters (s : State) : State :=
  if s.boot.downAt.any (fun n => decide (n ≤ s.time.bounds)) then
    foldBelow (fun g t => t.beginPowerDown (32 + g)) 9 { s with boot := { s.boot with downAt := none } }
  else s

/-- THERM_CLEAR (R577): every valid reading at most Tmax − 10 °C for 1 s. The hold ends at the next boundary. -/
def execThermClear (s : State) : Result :=
  .next (if s.boot.hold ∧ ¬ s.boot.clearDue ∧ s.boot.hotAt + 2000000000 ≤ s.time.now then
      { s with boot := { s.boot with clearDue := true } }.raise 863 3
    else s)

/-- THERMAL_TRIP (R577, R579): `d` is the die sensor whose comparator has tripped and `v` its reading; the clocks stop, and the
trip is latched. -/
def execThermalTrip (d : Nat) (v : Int) (s : State) : Result :=
  .next (if s.boot.held || s.boot.trip || decide (8 ≤ d) then s
    else { s with boot := { s.boot with trip := true } }.raise 863 4 [16 + d, ux 16 v])

/-! ### Supplies -/

/-- SUPPLY_WARN (R562): rail `r` leaves its warning band. -/
def execSupplyWarn (r : Nat) (s : State) : Result :=
  .next (if s.boot.held || s.boot.warned.contains r || decide (7 ≤ r) then s
    else { s with boot := { s.boot with warned := r :: s.boot.warned } }.raise 863 5 [r])

/-- SUPPLY_OK (R562): rail `r` returns within its warning band. -/
def execSupplyOk (r : Nat) (s : State) : Result :=
  .next (if s.boot.held || !s.boot.warned.contains r then s
    else { s with boot := { s.boot with warned := s.boot.warned.filter (· != r) } }.raise 863 6 [r])

end Sys2Proof.Machine
end

