-- ==== Sys2Proof/Machine/Boot.lean ====
section
/-! DEFINITION. Resets, the boot sequence, Deogen's lanes and the bisque service (17_bring_up.md, R510–R540). -/

namespace Sys2Proof.Machine

open Regs

/-! ### Resets (R510–R513) -/

/-- The boot flash when a reset cuts off a store write (R155): the copy being written is left erased, so that its check fails (DESIGN
CHOICE, log entry 67). A write that still waits for the flash has begun nothing (R156). -/
def State.cutOff (s : State) : State :=
  if s.cal.image.isNone || s.flashBusy then s else s.eraseFlash (storeBase s.nextCopy) 0x4024

/-- The device after a device reset at this instant (R510, R548): flash and OTP keep their contents, and what lies outside the
device stays: the levels at its balls, its banks' supplies, the commands that wait and what has left it. -/
def State.deviceReset (s : State) : State :=
  let r := State.resetFor s.part
  { r with
    pending := s.pending
    regs := s.regs.filterMap (fun e => if e.1 == board || (List.range 14).any (fun b => e.1 == bankStatus b) then some e else none)
    time := { r.time with now := s.time.now }
    cal := { r.cal with otp := s.cal.otp }
    loader := { r.loader with rootKey := s.loader.rootKey, encOnly := s.loader.encOnly, flash := s.cutOff.loader.flash }
    pins := { r.pins with lines := s.pins.lines }
    boot := { r.boot with warned := s.boot.warned, t0 := s.time.now, straps := s.boot.straps, bar2 := s.boot.bar2 }
    freeCtr := s.freeCtr
    out := s.out }

/-- POWER_ON_RESET (R510, R562): a supply falls below its limit. The device is held until PERST_N rises. -/
def execPowerOnReset (s : State) : Result :=
  .next (let t := s.deviceReset; { t with boot := { t.boot with held := true, warned := [] } })

/-- PERST_N (R510, R514): low resets everything, and its rise begins the boot sequence. -/
def execPerstN (l : Bool) (s : State) : Result :=
  .next (if l then
      if s.boot.held then ({ s with boot := { s.boot with held := false, t0 := s.time.now } } : State).readStraps else s
    else if s.boot.held then s
    else let t := s.deviceReset; { t with boot := { t.boot with held := true } })

/-- A write of RESET_CTRL (R512): with KEY and DEV_RESET, a warm reset begins 1 µs later. -/
def State.writeResetCtrl (s : State) (f : Nat) (v : Word) : State :=
  s.allowed (f == 0) f resetCtrl v
    (if resetCtrl_KEY.get v = 0xB007 ∧ resetCtrl_DEV_RESET.get v = 1 ∧ s.boot.resetAt.isNone then
      { s with boot := { s.boot with resetAt := some (s.time.now + 2000) } } else s)

/-- DEV_RESET (R512). -/
def execDevReset (f : Nat) (v : Word) (s : State) : Result := s.hostWrite (s.writeResetCtrl f v)

/-- What configuration space holds of a function, which a warm reset leaves (R510). -/
def FnSt.kept (x : FnSt) : FnSt :=
  { idleFn with msixOn := x.msixOn, msixMask := x.msixMask, d3 := x.d3, aerMask := x.aerMask, busMaster := x.busMaster, readSize := x.readSize }

/-- The device after a warm reset: the endpoint's configuration space stays (R510), and the thermal trip's latch (R579). -/
def State.warmReset (s : State) : State :=
  let t := s.deviceReset
  let fns := FMap.ofFn (fun _ => idleFn) 8 (fun f => (s.fn f).kept)
  { t with fns := fns, boot := { t.boot with warm := true, trip := s.boot.trip, linkSlow := s.boot.linkSlow } }

/-- WARM_RESET_START (R512, R537): 1 µs after the write, and not while a FW_INSTALL runs. -/
def execWarmResetStart (s : State) : Result :=
  .next (if s.boot.resetAt.any (fun t => decide (t ≤ s.time.now)) && !s.loader.op.any (fun x => x.fw) then s.warmReset else s)

/-! ### Steps 1 to 3 (R514–R516, R523–R525) -/

/-- Factory corrections loaded into the slices and, for the settings in force, into the channels (R138, R152). -/
def State.loadFactory (s : State) : State :=
  foldBelow (fun q t =>
    let t := foldBelow (fun i t => t.putSlice q i (t.cal.otp.slice q i)) 36 t
    foldBelow (fun k t => let x := t.otpChan q k; t.setChanCor q k x.1 x.2) 4 t) s.part.quads s

/-- A firmware slot that fails R523 or R524: FW_INVALID and its log entry, which name slot A as 0 and B as 1 (R436, R538, R539). Where LENGTH is out of range, no code
check is computed, and the spec gives none to be logged. -/
def State.fwInvalid (s : State) (k : Nat) : State :=
  let len := leAt (s.flashBytes (fwBase k + 0xC) 4) 0 4
  let (c, t) : Nat × State := if 1 ≤ len ∧ len ≤ 4194236 then (crc32c (s.flashBytes (fwBase k + 64) len), s)
    else (s.free.1 % 0x100000000, s.free.2)
  t.report ⟨9, 0, 15, 862, fwBase k, c, 2, k - 1, t.time.tick⟩ 862 4 [k - 1]

/-- Both firmware slots checked (R523, R588). -/
def State.checkSlots (s : State) : State :=
  [1, 2].foldl (fun t k => if t.fwValid k then t.setFld fwStatus (fwValidFld k) 1
    else (t.setFld fwStatus (fwValidFld k) 0).fwInvalid k) s

/-- Step 3 of the boot sequence, and the start of step 4 (R514): READY, BOOTED, and every reference buffer on. -/
def State.bootReady (s : State) (running version : Nat) : State :=
  let t := (s.setFld fwStatus fwStatus_RUNNING running).setFld fwStatus fwStatus_VERSION version
  let t := (t.setFld bootStatus bootStatus_READY 1).setFld bootStatus bootStatus_STAGE 1
  let t := { t with loader := { t.loader with starting := 0 }, boot := { t.boot with warm := false } }
  foldBelow (fun q t => t.refOn q) t.part.quads (t.raise 862 1 [(t.reg fwStatus).toNat])

/-- The ROM runs alone (R524, R525, R588). -/
def State.bootRom (s : State) : State := (s.bootReady 0 0x0100).raise 862 5

/-- A firmware slot started, or the ROM alone where there is none (R523, R524). -/
def State.startFirmware (s : State) (k : Option Nat) : State :=
  match k with
  | some k => { s with loader := { s.loader with starting := k }, boot := { s.boot with fwAt := s.time.now } }
  | none => s.bootRom

/-- The slot to be started: the valid one with the larger INSTALL_SEQ, slot A when the two are equal (R523). -/
def State.chooseSlot (s : State) : Option Nat :=
  match s.bit fwStatus fwStatus_A_VALID, s.bit fwStatus fwStatus_B_VALID with
  | true, true => some (if s.installSeq 1 < s.installSeq 2 then 2 else 1)
  | true, false => some 1
  | false, true => some 2
  | false, false => none

/-- OTP_READ_DONE (R152, R514): step 1 ends, `ok` when the check word passes; step 2 checks the firmware slots and starts one. -/
def execOtpReadDone (ok : Bool) (s : State) : Result :=
  .next (if s.boot.held || s.boot.otpRead then s
    else
      let t := { s with boot := { s.boot with otpRead := true },
                        cal := { s.cal with otp := { s.cal.otp with ok := ok } } }
      let t := if ok then t else (t.setFld calStatus calStatus_OTP_ERR 1).raise 857 2
      let t := t.setPair deviceIdLo deviceIdHi t.cal.otp.device
      let t := t.setFld security security_KEY_SET (flag !t.loader.rootKey.isEmpty)
      let t := (t.setFld security security_ENC_ONLY (flag t.loader.encOnly)).loadFactory.checkSlots
      t.startFirmware t.chooseSlot)

/-- FIRMWARE_STARTED (R514, R523): the firmware being started reports itself running. -/
def execFirmwareStarted (s : State) : Result :=
  .next (if s.loader.starting = 0 then s
    else s.bootReady s.loader.starting (leAt (s.flashBytes (fwBase s.loader.starting + 8) 4) 0 2))

/-- FIRMWARE_START_TIMEOUT (R524): 500 ms without a report. -/
def execFirmwareStartTimeout (s : State) : Result :=
  .next (let k := s.loader.starting
    if k = 0 ∨ s.time.now < s.boot.fwAt + 1000000000 then s
    else
      let t := { s with loader := { s.loader with marked := k :: s.loader.marked } }
      let t := (t.setFld fwStatus (fwValidFld k) 0).fwInvalid k
      t.startFirmware (if t.bit fwStatus (fwValidFld (3 - k)) then some (3 - k) else none))

/-- REF_WAIT (R516): the system PLL has not locked 40 ms after t0. -/
def execRefWait (s : State) : Result :=
  .next (if s.boot.held || s.time.clock != .held || s.bit bootStatus bootStatus_REF_WAIT
      || decide (s.time.now < s.boot.t0 + 80000000) then s
    else (s.setFld bootStatus bootStatus_REF_WAIT 1).raise 862 6)

/-! ### Step 4 (R117, R154, R231) -/

/-- The slices of a quad that are not retired, in ascending number. -/
def State.passing (s : State) (q : Nat) : List Nat := slicesWhere (fun i => s.sliceState q i != 4)

/-- The slices that the bisque channel of a quad takes: the two lowest that pass, where three do (R530, R537). -/
def State.bisquePair (s : State) (q : Nat) : List Nat := if 3 ≤ (s.passing q).length then (s.passing q).take 2 else []

/-- A slice retired by the self-test (R115, R117): it stood at no position, so nothing takes its place. -/
def State.retireTested (s : State) (q i : Nat) : State :=
  let t := ((s.setFld (slice q i) slice_STATE 4).setFld (slice q i) slice_CAUSE 6).setFlag (poolStatus q) poolStatus_RETIRE
  { t with pool := { t.pool with retired := t.pool.retired ++ [⟨q, i, 0, 0, 6, t.time.tick, true⟩] } }

/-- A core retired by the self-test (R231): it holds no task, and the next boundary reports it (R476). -/
def State.retireTestedCore (s : State) (n : Nat) : State :=
  let t := ((s.setCoreState n 4).setFld (dspState n) dspState_CAUSE 3).setFlag (dspStatus n) dspStatus_RETIRE
  t.setCore n { t.core n with reported := false, failTick := t.time.tick }

/-- The self-test's outcome for the slices and cores (R117, R231). -/
def State.retireFailing (s : State) (slices cores : List Nat) : State :=
  let t := (slices.filter (fun x => decide (x < 36 * s.part.quads))).foldl (fun t x => t.retireTested (x / 36) (x % 36)) s
  (cores.filter (fun n => decide (n < s.part.cores))).foldl (fun t n => t.retireTestedCore n) t

/-- The stored corrections of a slice, each replaced by its OTP value where it is out of range (R154). -/
def storedSlice (c o : SliceCor) : SliceCor :=
  let tap (x y : Nat) : Nat := ux 16 (within (-16384) 16384 (sx 16 x) (sx 16 y))
  ⟨ux 13 (within (-2048) 2048 (sx 13 (c.ofs % 0x2000)) (sx 13 (o.ofs % 0x2000))),
    (within 124518 137626 (c.gain % 0x40000 : Nat) (o.gain % 0x40000 : Nat)).toNat,
    tap (c.bw % 0x10000) (o.bw % 0x10000) + 0x10000 * tap (c.bw / 0x10000 % 0x10000) (o.bw / 0x10000 % 0x10000),
    ux 11 (within (-1000) 1000 (sx 11 (c.skew % 0x800)) (sx 11 (o.skew % 0x800)))⟩

/-- The calibration store chosen: the valid copy with the higher GENERATION (R154); copy A where the two are equal (DESIGN CHOICE, log
entry 65). -/
def State.chosenStore (s : State) : Option (Nat × Store) :=
  let copy (c : Nat) : Option (Nat × Store) := some (c, storeOf (s.flashBytes (storeBase c) 0x4020))
  match s.storeOk 1, s.storeOk 2 with
  | true, true => copy (if s.storeGenOf 1 < s.storeGenOf 2 then 2 else 1)
  | true, false => copy 1
  | false, true => copy 2
  | false, false => none

/-- The slices of a quad loaded from the store (R154). Those of the bisque channel keep OTP values until their first exchange. -/
def State.loadSlices (s : State) (x : Store) (q : Nat) : State :=
  let mine := s.bisquePair q
  foldBelow (fun i t =>
    if t.sliceState q i = 4 then t
    else
      let j := 36 * q + i
      let c := storedSlice (FMap.get (fun _ => ⟨0, 0, 0, 0⟩) x.slices j) (t.cal.otp.slice q i)
      let t := t.setFld (sliceCal q i) sliceCal_TEMP (FMap.get (fun _ => 0) x.temps j)
      if mine.contains i then { t with cal := { t.cal with late := FMap.set (fun _ => none) t.cal.late j (some c) } }
      else t.putSlice q i c) 36 s

/-- A channel loaded from the store (R154); one that the bisque service uses keeps OTP values until the service ends (R530). -/
def State.loadChannel (s : State) (x : Store) (q k : Nat) : State :=
  let c := FMap.get (fun _ => blankChan) x.chans (4 * q + k)
  if k = 0 ∧ !(s.bisquePair q).isEmpty then
    { s with cal := { s.cal with lateChan := FMap.set (fun _ => none) s.cal.lateChan q (some c) } }
  else s.loadStored q k c

/-- The calibration store taken (R154). -/
def State.takeStore (s : State) : State :=
  match s.chosenStore with
  | none => s
  | some (copy, x) =>
    let t := (s.setFld calStatus calStatus_ACTIVE_COPY copy).setReg storeGen (BitVec.ofNat 32 x.gen)
    foldBelow (fun q t => foldBelow (fun k t => t.loadChannel x q k) 4 (t.loadSlices x q)) s.part.quads t

/-- The standby of a quad after reset: the lowest slice that passes and that the bisque channel does not take (R530, R590). -/
def State.firstStandby (s : State) (q : Nat) : State :=
  match (s.passing q).find? (fun i => !(s.bisquePair q).contains i) with
  | some i => s.setFld (slice q i) slice_STATE 3
  | none => s.ensureStandby q

/-- SELF_TESTS_DONE (R514): step 4 ends. `slices` are those that fail, as 36q + s, and `cores` those that fail. -/
def execSelfTestsDone (slices cores : List Nat) (s : State) : Result :=
  .next (if !s.bit bootStatus bootStatus_READY || s.boot.tested || !s.deogen then s
    else
      let t := (s.retireFailing slices cores).takeStore
      let t := foldBelow (fun q t => t.firstStandby q) t.part.quads t
      { t with boot := { t.boot with tested := true } })

/-! ### Steps 5 to 7 (R514, R517, R530–R536) -/

/-- BISQUE_LOAD_START (R514, R516): step 5 begins after step 4 and the first tick. -/
def execBisqueLoadStart (s : State) : Result :=
  .next (if s.boot.tested && s.ticking && s.deogen && s.loader.load.isNone && s.flashFree
      && !s.bit imageStatus imageStatus_BISQUE_OK && !s.bit imageStatus imageStatus_BISQUE_FAIL then s.openFlash 0 0 else s)

/-- Dc of a DEC code (R531). -/
def bisqueDc (dec : Nat) : Nat := match dec with | 1 => 2 | 2 => 8 | 3 => 32 | 4 => 128 | 5 => 512 | _ => 2048

/-- Whether a DEC code is reserved (R531). -/
def bisqueReserved (dec : Nat) : Bool := dec == 0 || dec == 7

/-- The bisque chain of a quad started with the settings of R531. -/
def State.startBisqueChain (s : State) (q : Nat) : State :=
  let n := s.part.bisqueChain q
  let t := (s.setPcan n 0).setReg (chainCtrl n) (BitVec.ofNat 32 (0x7A000 + bisqueDc (s.fld (bisqueCh q) bisqueCh_DEC)))
  (t.startChain n).setFld (bisqueCh q) bisqueCh_STATE 1

/-- The bisque channel of a quad: two slices, the direct path, and its chain (R530, R531). The bisque image holds the coefficients,
and the spec does not give them: they are free values. -/
def State.startBisque (s : State) (q : Nat) : State :=
  match s.bisquePair q with
  | [a, b] =>
    let n := s.part.bisqueChain q
    let t := ((s.readyQuad q).setCount q 0 2).startChannel (4 * q)
    let t := (t.seat q a 0 0 2).seat q b 0 1 2
    let t := (t.setReg (chainSrc n) (BitVec.ofNat 32 (4 * q))).setReg (firCtrl n) 63
    let t := foldBelow (fun i t => t.free.2.setReg (coef n i) (coefDesc.write 0 (BitVec.ofNat 32 t.free.1))) 63 t
    (t.setOwner chainOwner n 0).startBisqueChain q
  | _ => s.raise 862 9 [q]

/-- Step 6 (R514, R517, R537): the bisque service starts on every quad that can provide a channel; step 7 follows. -/
def State.startService (s : State) : State :=
  if !s.boot.tested || s.boot.judged || s.boot.hold || !s.bit imageStatus imageStatus_BISQUE_OK then s
  else
    let n := countBelow (fun q => !(s.bisquePair q).isEmpty) s.part.quads
    let t := foldBelow (fun q t => t.startBisque q) s.part.quads s
    let t := { t with boot := { t.boot with judged := true, bisque := decide (0 < n) } }
    let up := t.fld bootStatus bootStatus_STAGE == 3
    let t := if up then t else t.setFld bootStatus bootStatus_STAGE (if 0 < n then 2 else 4)
    let t := if 0 < n then t.raise 862 2 [n] else t
    if t.romAlone || t.prodUp || t.loader.set.isSome then t
    else ({ t with loader := { t.loader with set := some ⟨1, 0, false⟩ } }).nextImage 3

/-- The quads whose bisque chain takes a new DEC at this boundary (R533). -/
def State.bisqueChanges (s : State) : List Nat :=
  (List.range s.part.quads).filter (fun q => s.fld (bisqueCh q) bisqueCh_STATE == 1
    && s.cur (bisqueCh q) bisqueCh_DEC != s.fld (bisqueCh q) bisqueCh_DEC)

/-- The bisque chains at a boundary (R533): those stopped for a new DEC at the boundary before start again, and those of
`changed` stop, or, at a sync reset, start anew at once. -/
def State.bisqueStep (s : State) (changed : List Nat) (sync : Bool) : State :=
  if !s.boot.bisque then s
  else
    let again := (List.range s.part.quads).filter (fun q => s.fld (bisqueCh q) bisqueCh_STATE == 2)
    let t := again.foldl (fun t q => t.startBisqueChain q) s
    changed.foldl (fun t q =>
      let t := t.stopChain (t.part.bisqueChain q)
      if sync then t.startBisqueChain q else t.setFld (bisqueCh q) bisqueCh_STATE 2) t

/-- A write of BISQUE_CH[q] (R532, R533). -/
def State.writeBisque (s : State) (f q : Nat) (v : Word) : State :=
  s.allowed (s.ownChan (4 * q) == f + 1) f (bisqueCh q) v
    (if bisqueReserved (bisqueCh_DEC.get v) then s.refuseWrite f q (bisqueCh q) (bisqueCh q) bisqueCh_REFUSED
     else s.writeReg (bisqueCh q) bisqueChDesc v)

/-- BISQUE_CH_WRITE (R533). -/
def execBisqueChWrite (f q : Nat) (v : Word) (s : State) : Result :=
  s.hostWrite (s.onlyIf (s.hasQuad q) (s.writeBisque f q v))

/-! ### Deogen's lanes (R521) -/

/-- No two lanes agree: Deogen stops, and hardware says so (R521, R538, R539). The spec does not say where lane 0's program stands. -/
def State.failDeogen (s : State) : State :=
  let (a, t) := s.free
  let t := t.setFld bootStatus bootStatus_DEOGEN_FAIL 1
  t.report ⟨9, 0, 15, 862, a, 0, 4, 0, t.time.tick⟩ 862 8 []

/-- LANE_DISAGREE (R521): lane `l` is outvoted and reloaded; where another is still being reloaded, no two agree. -/
def execLaneDisagree (l : Nat) (s : State) : Result :=
  .next (if s.boot.held || !s.deogen || decide (3 ≤ l) then s
    else match s.boot.lane with
      | none => { s with boot := { s.boot with lane := some l } }
      | some m => if m = l then s else s.failDeogen)

/-- LANE_RESYNC_DONE (R521, R538, R539). -/
def execLaneResyncDone (s : State) : Result :=
  .next (if s.deogen then match s.boot.lane with
    | none => s
    | some l =>
      let (a, t) := s.free
      let t := { t with boot := { t.boot with lane := none } }
      t.report ⟨9, 0, 15, 862, a, 0, 1, l, t.time.tick⟩ 862 7 [l]
    else s)

end Sys2Proof.Machine
end

