-- ==== Sys2Proof/Machine/Owners.lean ====
section
/-! DEFINITION. The owner registers of channels and pins (15_events_and_faults.md, R464–R466; 18_register_summary.md,
R553–R556) and the acknowledgement of fault-log entries (R471, R479). -/

namespace Sys2Proof.Machine

open Regs

/-- A kind of unit whose owner F0 writes: its registers as written and in force, the kind of its unit codes, how many the
part has, and whether an admitted graph uses one (R466). -/
structure OwnerKind where
  written : Nat → Nat
  now : Nat → Nat
  code : Nat
  count : Nat

/-- Channels. -/
def State.ownChannels (s : State) : OwnerKind := ⟨chOwner, chOwnerNow, 0x2000, 4 * s.part.quads⟩

/-- Pins. -/
def ownPins : OwnerKind := ⟨pinOwner, pinOwnerNow, 0xE000, 448⟩

/-- Whether an admitted graph uses a unit whose owner F0 writes (R466). -/
def State.ownUsed (s : State) (k : OwnerKind) (u : Nat) : Bool :=
  if k.code = 0x2000 then s.graphs.any (fun g => g.allElems.any (fun e => e.el.kind == 1 && e.unit == 0x2000 + u))
  else s.graphs.any (fun g => g.allElems.any (fun e => e.el.kind == 5 && (s.fabricPins (e.unit % 0x1000)).contains u))

/-- The owner code of a unit as most recently written. -/
def State.ownWritten (s : State) (k : OwnerKind) (u : Nat) : Nat := s.owner k.written u

/-- A refusal of one owner field (R466, R555). -/
def State.refuseOwner (s : State) (k : OwnerKind) (u : Nat) : State :=
  let t := (s.setFlag ownStatus ownStatus_REFUSED).setFld ownStatus ownStatus_UNIT (k.code + u)
  t.raise 860 5 [k.code + u] 1

/-- One field of a write of an owner register (R555). -/
def State.ownField (s : State) (k : OwnerKind) (u x : Nat) : State :=
  if k.count ≤ u ∨ x = s.ownWritten k u then s
  else if x = 0 ∨ (9 ≤ x ∧ x ≤ 14) ∨ s.ownUsed k u then s.refuseOwner k u
  else s.setOwner k.written u x

/-- A write of owner register `i` of a kind: F0 alone may make it (R466, R556). -/
def State.writeOwners (s : State) (k : OwnerKind) (f i : Nat) (v : Word) : State :=
  s.allowed (f == 0) f (k.written i) v (foldBelow (fun j t => t.ownField k (8 * i + j) (nibble v j)) 8 s)

/-- CH_OWNER_WRITE (R555). -/
def execChOwnerWrite (f i : Nat) (v : Word) (s : State) : Result :=
  s.hostWrite (s.onlyIf (decide (i < 8)) (s.writeOwners s.ownChannels f i v))

/-- PIN_OWNER_WRITE (R555). -/
def execPinOwnerWrite (f i : Nat) (v : Word) (s : State) : Result :=
  s.hostWrite (s.onlyIf (decide (i < 56)) (s.writeOwners ownPins f i v))

/-- Step 3 for one owner field that differs from the owner in force (R555): it comes into force, or is refused and returns to
what is. -/
def State.commitOwner (s : State) (k : OwnerKind) (u : Nat) : State :=
  let x := s.ownWritten k u
  let n := s.owner k.now u
  if x = n then s
  else if s.ownUsed k u then (s.setOwner k.written u n).refuseOwner k u
  else s.setOwner k.now u x

/-- The owners of channels and pins committed at a boundary (R555). -/
def State.commitOwners (s : State) : State :=
  let t := foldBelow (fun u t => t.commitOwner t.ownChannels u) (4 * s.part.quads) s
  foldBelow (fun u t => t.commitOwner ownPins u) 448 t

/-- A write of OWN_STATUS (R556). -/
def State.writeOwnStatus (s : State) (f : Nat) (v : Word) : State :=
  s.allowed (f == 0) f ownStatus v (s.writeReg ownStatus ownStatusDesc v)

/-! ### The fault log -/

/-- The oldest entries of the fault log acknowledged (R471, R475). -/
def State.ackFaults (s : State) (n : Nat) : State :=
  let c := s.fld flStatus flStatus_COUNT
  let k := min n c
  if k = 0 then s
  else
    let t := (s.setFld flStatus flStatus_COUNT (c - k)).setFld flStatus flStatus_FULL 0
    { t.setFld flStatus flStatus_OLDEST ((s.fld flStatus flStatus_OLDEST + k) % 64) with logFullSaid := false }

/-- A write of FAULTLOG.ACK (R479). -/
def State.writeAck (s : State) (f : Nat) (v : Word) : State := s.allowed (f == 0) f flAck v (s.ackFaults (flAck_N.get v))

/-- FAULTLOG_ACK (R471). -/
def execFaultlogAck (f : Nat) (v : Word) (s : State) : Result := s.hostWrite (s.writeAck f v)

end Sys2Proof.Machine
end

