-- ==== Sys2Proof/Machine/Access.lean ====
section
/-! DEFINITION. BAR0 as a whole (18_register_summary.md, R541–R551; R4, R16, R423, R467): what a read of any offset returns, and
where a write goes. -/

namespace Sys2Proof.Machine

open Regs

/-! ### Where an offset lies -/

/-- Whether a request has the only form that BAR0 accepts (R423): one aligned 32-bit word, every byte enabled. -/
def goodForm (a n be : Nat) : Bool := a % 4 == 0 && n == 1 && be == 15

/-- Whether an offset lies in the FAULTLOG block, which F1 to F7 may not reach at all (R479). -/
def inFaultlog (a : Nat) : Bool := decide (0x30000 ≤ a ∧ a < 0x30900)

/-- Whether an offset lies in the segment-map window (R415). -/
def inSegWindow (a : Nat) : Bool := decide (0x1000000 ≤ a ∧ a < 0x1800000)

/-- Whether a register belongs to a quad, chain, core or sagger that the part has not (R4). -/
def State.absentAt (s : State) (a : Nat) : Bool :=
  if 0x140 ≤ a ∧ a < 0x180 then decide (s.part.quads ≤ (a - 0x140) / 4)
  else if 0x100000 ≤ a ∧ a < 0x200000 then decide (s.part.quads ≤ (a - 0x100000) / 0x10000)
  else if 0x200000 ≤ a ∧ a < 0x250000 then decide (s.part.chains ≤ (a - 0x200000) / 0x1000)
  else if 0x300000 ≤ a ∧ a < 0x348000 then decide (s.part.cores ≤ (a - 0x300000) / 0x1000)
  else if 0x510000 ≤ a ∧ a < 0x520000 then decide (s.part.saggers ≤ (a - 0x510000) / 0x1000)
  else false

/-- What a register of an absent unit reads as: ABSENT in STATE of a core or a sagger, else 0 (R4). -/
def absentWord (a : Nat) : Word :=
  if (0x300000 ≤ a ∧ a < 0x348000 ∧ a % 0x1000 = 0) ∨ (0x510000 ≤ a ∧ a < 0x520000 ∧ a % 0x1000 = 0) then 7 else 0

/-! ### The MSI-X table (R421, R448) -/

/-- A word of the table or of the pending bits, as function `f` reads it; each function has its own. -/
def State.msixRead (s : State) (f a : Nat) : Word :=
  let x := s.fn f
  if a < 0x1C400 then FMap.get msixReset x.msix ((a - 0x1C000) / 4)
  else if 0x1D000 ≤ a ∧ a < 0x1D008 then
    (List.range 32).foldl (fun m i => if x.msixPend.contains (32 * ((a - 0x1D000) / 4) + i) then m ||| BitVec.ofNat 32 (2 ^ i) else m) 0
  else 0

/-- A word of the table written: address bits 1:0 and the reserved bits of the vector control stay 0. A vector that this unmasks
sends what it holds. -/
def State.msixWrite (s : State) (f a : Nat) (v : Word) : State :=
  if a < 0x1C400 then
    let k := (a - 0x1C000) / 4
    let w := if k % 4 = 0 then v &&& 0xFFFFFFFC else if k % 4 = 3 then v &&& 1 else v
    (s.setFn f { s.fn f with msix := FMap.set msixReset (s.fn f).msix k w }).sendPending f
  else s

/-- Whether an offset lies in the MSI-X table or its pending bits. -/
def inMsix (a : Nat) : Bool := decide (0x1C000 ≤ a ∧ a < 0x1E000)

/-! ### Reads -/

/-- STACK_STATUS as read (R402): ASLEEP while the HBM domain is powered down, else READY. -/
def State.stackWord (s : State) (st : Nat) : Word :=
  stackStatus_ASLEEP.put (stackStatus_READY.put (s.reg (stackStatus st)) (flag (s.powerOf 41 == .on))) (flag (s.powerOf 41 != .on))

/-- TRIG_LEVEL as read (R501, R508). -/
def State.trigLevelWord (s : State) : Word :=
  BitVec.ofNat 32 (((List.range 16).map (fun k => flag (s.sourceLevel (0x190 + k)) * 2 ^ (16 + k))).foldl (· + ·) 0
    + ((List.range 9).map (fun i => flag (s.lineLevel i) * 2 ^ i)).foldl (· + ·) 0)

/-- A register as function `f` reads it: what it holds, or what follows from the rest of the state. `pads` are the levels at the
balls of a GPIO bank. -/
def State.readWord (s : State) (f a : Nat) (pads : Word) : Word :=
  let q := (a - 0x100000) / 0x10000
  let x := (a - 0x100000) % 0x10000
  if a = idcode then BitVec.ofNat 32 s.part.idcode
  else if a = revision then BitVec.ofNat 32 s.part.revision
  else if a = caps then BitVec.ofNat 32 s.part.caps
  else if 0x200 ≤ a ∧ a < 0x260 ∧ 4 * s.part.quads ≤ 8 * ((a - 0x200) % 0x40 / 4) then 0xFFFFFFFF
  else if 0x10000 ≤ a ∧ a < 0x18000 ∧ a % 0x1000 = 0x2C then s.hostStatusWord ((a - 0x10000) / 0x1000)
  else if a = tickHi then FMap.get (fun _ => 0) s.time.latHi f
  else if a = subtickReg then FMap.get (fun _ => 0) s.time.latSub f
  else if 0x100000 ≤ a ∧ a < 0x200000 then
    (if 0x200 ≤ x ∧ x < 0x300 ∧ x % 0x20 = 0x10 then s.cabStatusWord q ((x - 0x200) / 0x20)
     else if x = 0x404 then s.mxStatusWord q
     else if x = 0x1000 then s.poolStatusWord q
     else if 0x1010 ≤ x ∧ x < 0x1020 then s.chPoolWord q ((x - 0x1010) / 4)
     else if x = 0x1084 then s.injStatusWord q
     else s.reg a)
  else if 0x200000 ≤ a ∧ a < 0x250000 ∧ a % 0x1000 = 0x1C then s.chainStatusWord ((a - 0x200000) / 0x1000)
  else if 0x402000 ≤ a ∧ a < 0x404000 ∧ a % 0x20 = 0 then s.niStatusWord ((a - 0x402000) / 0x20)
  else if 0x510000 ≤ a ∧ a < 0x520000 ∧ a % 0x1000 = 0 then s.sagStateWord ((a - 0x510000) / 0x1000)
  else if 0x600000 ≤ a ∧ a < 0x60E000 ∧ a % 0x1000 = 0x10 then s.dataInWord ((a - 0x600000) / 0x1000) pads
  else if a = trigLevel then s.trigLevelWord
  else if 0x60F000 ≤ a ∧ a < 0x60F400 ∧ a % 0x100 = 0xC then s.spiStatusWord ((a - 0x60F000) / 0x100)
  else if 0x60F400 ≤ a ∧ a < 0x60F800 ∧ a % 0x100 = 0xC then s.i2cStatusWord ((a - 0x60F400) / 0x100)
  else if 0x60F800 ≤ a ∧ a < 0x60FA00 ∧ a % 0x100 = 0xC then s.uartStatusWord ((a - 0x60F800) / 0x100)
  else if 0x800000 ≤ a ∧ a < 0x800008 then s.stackWord ((a - 0x800000) / 4)
  else if 0x800010 ≤ a ∧ a < 0x800018 then s.memFreeWord ((a - 0x800010) / 4)
  else if 0x800018 ≤ a ∧ a < 0x800020 then s.memLargestWord ((a - 0x800018) / 4)
  else s.reg a

/-- A read in good form (R467, R542, R543): its word, and the side effects of the few reads that have one. -/
def State.readBar0 (s : State) (f a : Nat) (pads : Word) : State :=
  if inFaultlog a ∧ f ≠ 0 then s.violation f a false 0
  else if inMsix a then s.emit (.readData f (s.msixRead f a))
  else if inSegWindow a then
    (let e := (a - 0x1000000) / 16
     let i := a % 16 / 4
     if i = 0 then s.readW0 f e else s.emit (.readData f (BitVec.ofNat 32 (s.segWordFor f e i))))
  else match find a with
    | none => s.emit (.readData f 0)
    | some _ =>
      if s.absentAt a then s.emit (.readData f (absentWord a))
      else if a = tickLo then (s.latchTime f).emit (.readData f (BitVec.ofNat 32 s.time.tick))
      else if 0x510000 ≤ a ∧ a < 0x520000 ∧ a % 0x1000 = 0x24 then s.readCapData f ((a - 0x510000) / 0x1000)
      else if 0x60F000 ≤ a ∧ a < 0x60F400 ∧ a % 0x100 = 8 then s.readSpiRx f ((a - 0x60F000) / 0x100)
      else if 0x60F400 ≤ a ∧ a < 0x60F800 ∧ a % 0x100 = 8 then s.readI2c f ((a - 0x60F400) / 0x100)
      else if 0x60F800 ≤ a ∧ a < 0x60FA00 ∧ a % 0x100 = 8 then s.readUartRx f ((a - 0x60F800) / 0x100)
      else s.emit (.readData f (s.readWord f a pads))

/-- The registers that a host reads while a warm reset hides the others (R513, R552). -/
def seenInReset (a : Nat) : Bool := a == idcode || a == revision || a == caps || a == bootStatus

/-- BAR0_READ (R423, R513, R542): function `f` reads `n` words at offset `a` with byte enables `be`. -/
def execBar0Read (f a n be : Nat) (pads : Word) (s : State) : Result :=
  .next (if s.boot.held then s.emit (.readData f 0)
    else if s.boot.warm then s.emit (.readData f (if goodForm a n be ∧ seenInReset a then s.readWord f a pads else 0))
    else if !goodForm a n be then s.violation f a false 0 2 be
    else s.readBar0 f a pads)

/-! ### Writes -/

/-- A register of GLOBAL that a write leaves without a violation though it holds RO fields only: the identity (R552), and the owner
registers whose units the part lacks (R553, R556). -/
def State.dropsGlobal (s : State) (a : Nat) : Bool :=
  let lacks (base count : Nat) : Bool := decide (base ≤ a ∧ count ≤ 8 * ((a - base) / 4))
  if a ≤ caps then true
  else if a < 0x240 then false
  else if a < 0x260 then lacks 0x240 (4 * s.part.quads)
  else if a < 0x600 then false
  else if a < 0x640 then lacks 0x600 s.part.chains
  else if a < 0x680 then lacks 0x640 s.part.cores
  else if a < 0x6C0 then lacks 0x680 s.part.saggers
  else if a < 0x700 then lacks 0x6C0 (8 * s.part.quads)
  else lacks 0x700 s.part.quads

/-- Whether a write by function `f` to a register that holds RO fields only is dropped and no violation (R16, R467): where the block's
rules let the function write the register or say nothing, and not where they call every other write a violation (R84, R123, R157,
R190, R233, R329, R363, R397, R418, R452, R478, R496, R556). -/
def State.dropsReadOnly (s : State) (f a : Nat) : Bool :=
  let q := (a - 0x100000) / 0x10000
  let x := (a - 0x100000) % 0x10000
  if a < 0x10000 then s.dropsGlobal a
  else if a < 0x20000 then f == (a - 0x10000) / 0x1000
  else if a < 0x30000 then f == (a - 0x20000) / 0x1000
  else if a < 0x100000 then true
  else if a < 0x200000 then
    (if 0x500 ≤ x ∧ x < 0x600 then s.userMay f (fun g => g.usesWire q ((x - 0x500) / 8)) else decide (x < 0x1000))
  else if a < 0x300000 then s.ownChain ((a - 0x200000) / 0x1000) == f + 1
  else if a < 0x520000 then false
  else if a < 0x60E000 then true
  else if a < 0x700000 then f == 0
  else decide (a < 0x800000)

/-- A write to a register that holds RO fields only. -/
def State.writeReadOnly (s : State) (f a : Nat) (v : Word) : State := s.allowed (s.dropsReadOnly f a) f a v s

/-- A write to GLOBAL (R512, R532, R555, R556). -/
def State.writeGlobal (s : State) (f a : Nat) (v : Word) : State :=
  if a = resetCtrl then s.writeResetCtrl f v
  else if a < 0x180 then s.writeBisque f ((a - 0x140) / 4) v
  else if a < 0x300 then s.writeOwners s.ownChannels f ((a - 0x200) / 4) v
  else if a < 0x500 then s.writeOwners ownPins f ((a - 0x300) / 4) v
  else s.writeOwnStatus f v

/-- A write to the EVENTS block (R478): by the function whose registers they are. Vectors of reserved sources stay 0. -/
def State.writeEvents (s : State) (f a : Nat) (d : Desc) (v : Word) : State :=
  s.allowed (f == (a - 0x20000) / 0x1000) f a v (if 0x468 ≤ a % 0x1000 ∧ a % 0x1000 < 0x800 then s else s.writeReg a d v)

/-- A write to TIME (R34). -/
def State.writeTime (s : State) (f a : Nat) (d : Desc) (v : Word) : State :=
  if a = tickCtrl then s.writeTickCtrl f v
  else if a = refCtrl then s.writeRefCtrl f v
  else if a = syncCtrl then s.writeSyncCtrl f v
  else s.allowed (f == 0) f a v (s.writeReg a d v)

/-- A write to QUAD[q], `x` bytes into its block (R84, R123, R157). -/
def State.writeQuad (s : State) (f q x : Nat) (d : Desc) (v : Word) : State :=
  let a := 0x100000 + 0x10000 * q + x
  if x < 0x1000 then s.writeQuadAnalogue f q x v
  else if x = 0x1080 then s.writeInjReq f q v
  else if x < 0x1800 then s.allowed (s.mayPool f q) f a v (s.writeReg a d v)
  else if 0x1840 ≤ x ∧ x < 0x18C0 ∧ x % 0x20 = 0 then s.writeChCal f q ((x - 0x1840) / 0x20) v
  else s.allowed false f a v s

/-- A write to CAL (R158). -/
def State.writeCal (s : State) (f a : Nat) (d : Desc) (v : Word) : State :=
  if a = calCtrl then s.writeCalCtrl f v
  else if a = storeCmd then s.writeStoreCmd f v
  else s.allowed (f == 0) f a v (s.writeReg a d v)

/-- A write to a register that has a field to be written, given to its block. -/
def State.writeBlock (s : State) (f a : Nat) (d : Desc) (v : Word) : State :=
  if a < 0x10000 then s.writeGlobal f a v
  else if a < 0x20000 then
    (let g := (a - 0x10000) / 0x1000
     s.allowed (f == g) f a v (s.writeFn g (a % 0x1000) v))
  else if a < 0x30000 then s.writeEvents f a d v
  else if a < 0x40000 then (if a = flAck then s.writeAck f v else s.allowed (f == 0) f a v (s.writeReg a d v))
  else if a < 0x100000 then s.writeTime f a d v
  else if a < 0x200000 then s.writeQuad f ((a - 0x100000) / 0x10000) ((a - 0x100000) % 0x10000) d v
  else if a < 0x300000 then s.writeChain f ((a - 0x200000) / 0x1000) (a % 0x1000) v
  else if a < 0x400000 then s.allowed (s.ownCore ((a - 0x300000) / 0x1000) == f + 1) f a v (s.writeReg a d v)
  else if a < 0x500000 then s.writeNoc f (a - 0x400000) v
  else if a < 0x510000 then s.writeConfig f (a - 0x500000) v
  else if a < 0x520000 then s.writeSagger f ((a - 0x510000) / 0x1000) (a % 0x1000) v
  else if a < 0x60E000 then s.writeBank f ((a - 0x600000) / 0x1000) (a % 0x1000) v
  else if a < 0x60F000 then s.writeTrig f (a - 0x60E000) v
  else if a < 0x700000 then s.writePeripheral f a v
  else if a < 0x800000 then s.writeCal f a d v
  else s.writeMem f (a - 0x800000) v

/-- A write in good form (R4, R16, R415, R479, R542, R545). -/
def State.writeBar0 (s : State) (f a : Nat) (v : Word) : State :=
  if inFaultlog a ∧ f ≠ 0 then s.violation f a true v.toNat
  else if inMsix a then s.msixWrite f a v
  else if inSegWindow a then s.violation f a true v.toNat
  else match find a with
    | none => s
    | some d => if s.absentAt a then s else if d.writable then s.writeBlock f a d v else s.writeReadOnly f a v

/-- REGISTER_WRITE (R423, R545): function `f` writes `n` words at offset `a` with byte enables `be`. -/
def execRegisterWrite (f a n be : Nat) (v : Word) (s : State) : Result :=
  s.hostWrite (if !goodForm a n be then s.violation f a true v.toNat 2 be else s.writeBar0 f a v)

end Sys2Proof.Machine
end

