-- ==== Sys2Proof/Machine/Boundary.lean ====
section
/-! DEFINITION. The tick boundary, in which every family has a part, and the forced boundary of a sync reset
(02_tick_and_time.md, R31, R37, R38, R44; 01_architecture.md, R11, R13, R14, R19–R24). -/

namespace Sys2Proof.Machine

open Regs

/-! ### Step 1: the tick counter (R31, R37, R44) -/

/-- What the tick that ends leaves behind: packets of saggers are closed, the phases of the tones go on, and what may happen once
or so often in a tick begins anew (R79, R119, R315, R318, R432, R446). -/
def State.endTick (s : State) : State :=
  let n := s.tickLength
  let elapsed := match s.nextInstant with | some a => min n (a - s.tickStart) | none => n
  let t := if s.clocked then foldBelow (fun q t => t.dacAdvance q elapsed) s.part.quads s else s
  let t := if s.clocked then foldBelow (fun g t => t.saggerPulse g) s.part.saggers t else t
  let t := { t.settleChecks with pool := { t.pool with injCount := [] } }
  foldBelow (fun f t => t.setFn f { t.fn f with dropSaid := [], dbSaid := false }) 8 t

/-- The tick counter at a regular boundary: tick 0 at the first, else the next tick. -/
def State.countTick (s : State) (at_ : Nat) : State :=
  let first := s.time.clock != .running
  let x := s.time
  { s with time := { x with clock := .running, now := at_, tick := if first then 0 else x.tick + 1, sub := 0,
                            origin := if first then at_ else x.origin,
                            syncs := if first then x.syncs.filter (fun y => decide (at_ < y.due)) else x.syncs,
                            bounds := x.bounds + 1, ended := x.tick, lastStart := if first then at_ else s.tickStart } }

/-- The tick counter at a forced boundary: the value of SYNC_LOAD (R44). -/
def State.loadTick (s : State) (y : SyncReset) (at_ : Nat) : State :=
  let x := s.time
  { s with time := { x with now := at_, tick := y.load, sub := 0, origin := at_, quadOrigin := [], realign := [],
                            syncs := x.syncs.erase y, bounds := x.bounds + 1, ended := x.tick, lastStart := s.tickStart } }

/-! ### Step 2: retirements (R24) -/

/-- Spares put in place of retired slices and cores, by Deogen. -/
def State.replaceUnits (s : State) : State :=
  if !s.deogen then s
  else foldBelow (fun n t => t.replaceCore n) s.part.cores (foldBelow (fun q t => t.replaceSlices q) s.part.quads s)

/-! ### Step 3 -/

/-- The power domain of a register's block, where its block has one that may be powered down (R550). -/
def domainOf (off : Nat) : Option Nat :=
  if 0x100000 ≤ off ∧ off < 0x200000 then some ((off - 0x100000) / 0x10000)
  else if 0x300000 ≤ off ∧ off < 0x400000 then some (32 + (off - 0x300000) / 0x8000)
  else if 0x510000 ≤ off ∧ off < 0x520000 then some (16 + (off - 0x510000) / 0x1000)
  else none

/-- Whether a written RWT word goes on waiting at a boundary: its block's domain is not powered (R550), or it belongs to a channel
under foreground calibration (R85). -/
def State.waits (s : State) (off : Nat) : Bool :=
  (domainOf off).any (fun d => s.powerOf d != .on)
    || ((0x100000 ≤ off && off < 0x200000) &&
        (let q := (off - 0x100000) / 0x10000
         let x := (off - 0x100000) % 0x10000
         decide (x < 0x80 ∧ x % 0x20 < 8) && s.bit (chStatus q (x / 0x20)) chStatus_CAL_HOLD))

/-- The RWT fields come into force (R11, R13, R14). -/
def State.commit (s : State) : State :=
  { s with rwtOld := s.rwtOld.filter (fun e => s.waits e.1),
           ana := { s.ana with heldIe := s.ana.heldIe.filter (fun e => s.waits (chCtrl (e.1 / 4) (e.1 % 4))) } }

/-- The channels of a quad whose analogue settings this boundary changes (R137). -/
def State.afeChanges (s : State) (q : Nat) : List Nat :=
  (List.range 4).filter (fun k =>
    let d (F : Fld) : Bool := s.cur (chCtrl q k) F != s.fld (chCtrl q k) F
    s.quadOn q && !s.bit (chStatus q k) chStatus_CAL_HOLD
      && (d chCtrl_ATT || d chCtrl_PGA || d chCtrl_AAF_EN || d chCtrl_FC || d chCtrl_INSEL
        || s.cur (chOffset q k) chOffset_OFS != s.fld (chOffset q k) chOffset_OFS))

/-- The switch matrix of a quad at a boundary (R74, R75): the queued commands take effect together where its domain is powered and,
after a power-down, its reference buffer READY; answers the wires changed. -/
def State.matrixStep (s : State) (q : Nat) : State × List (Node × Nat) :=
  if !s.quadOn q || (FMap.get (fun _ => false) s.ana.down q && !s.refReady q) then (s, [])
  else
    let ws := wiresDo (s.wires q) (s.mxQueue q)
    let t := (s.setWires q ws).setMxQueue q []
    ({ t with ana := { t.ana with down := FMap.set (fun _ => false) t.ana.down q false } }, wireChanges (s.wires q) ws)

/-- The analogue settings of every quad, and every other RWT field, in force (R11, R57, R71, R74): settling windows open on the paths
before and after the change. -/
def State.commitAnalogue (s : State) : State :=
  let n := s.part.quads
  let chg := (List.range n).map s.quadChanges
  let before := (List.range n).map (fun q => (List.range 4).map (s.path q))
  let afe := (List.range n).map s.afeChanges
  let t := s.commit
  foldBelow (fun q t =>
    let (t, mx) := t.matrixStep q
    let t := t.openWindows q (chg.getD q [] ++ mx) (before.getD q [])
    (afe.getD q []).foldl (fun t k => t.afeChanged q k) t) n t

/-- TICK_DIV with the commit: DIV_CHANGED says the first tick of the new length (R33). -/
def State.sayDiv (s : State) (old : Nat) : State :=
  if s.tickDiv = old then s else s.raise 856 2 [s.time.tick % 0x100000000]

/-- Quads whose PLL has locked again: the phase divider is aligned here, and the chains start anew (R51). -/
def State.realignQuads (s : State) : State :=
  let t := s.time.realign.foldl (fun t q =>
    { t with time := { t.time with quadOrigin := FMap.set (fun _ => 0) t.time.quadOrigin q t.time.now } }.restartOn
      (fun c => c / 4 == q) true) s
  { t with time := { t.time with realign := [] } }

/-- What a sync reset does besides loading the tick (R44, R79, R112): every running chain starts anew, the DAC phases are 0, and
samples begin here. -/
def State.syncAlign (s : State) : State :=
  let t := s.setFld timeStatus timeStatus_ALIGNED 1
  let t := { t with ana := { t.ana with dacPhase := [] } }
  let t := foldBelow (fun c t => if t.chanCount (c / 4) (c % 4) = 0 then t else t.startChannel c) (4 * t.part.quads) t
  t.restartOn (fun _ => true) true

/-- The calibration and the slice rotation of every quad (R99–R102, R136–R149). -/
def State.calStep (s : State) : State :=
  if !s.deogen || !s.clocked then s
  else (foldBelow (fun q t => (t.exchange q).calTick q) s.part.quads s).tempRequests

/-- Deogen's work for graphs that is written before the commit (R24, R278–R287); `retired` where this boundary has replaced units. -/
def State.wheelBefore (s : State) (retired : Bool) : State :=
  if s.deogen then
    let t := s.wheelPolicy.wheelStop
    (if retired then t.recheckChanges else t).wheelAdopt.wheelMoves.wheelWrites
  else s

/-- Deogen's work for graphs after the commit (R278–R281, R290); `seized` are channels taken from a foreground run (R151). -/
def State.wheelAfter (s : State) (seized : List Nat) : State := if s.deogen then (s.wheelStart seized).wheelReroute else s

/-- Spares that are in step take their place (R228). -/
def State.placeSpares (s : State) : State :=
  if s.deogen then foldBelow (fun n t => if t.inStep n then t.placeSpare n else t) s.part.cores s else s

/-- The Wheel accepts graphs from the boundary after the production image is released (R536). -/
def State.wheelReady (s : State) : State :=
  { s with wheel := { s.wheel with ready := s.bit imageStatus imageStatus_PROD_RELEASED } }

/-- Whether a stream is bound to data ring `k` of function `f`, or a packet of one is on its way there (R445, R532). -/
def State.ringFed (s : State) (f k : Nat) : Bool :=
  let engine := niEngine (s.fld (dataCtrl f k) dataCtrl_ENGINE)
  (s.graphs.filter (fun g => g.fn == f && g.phase != .admitted)).any (fun g => g.edges.any (fun e => !e.stopped
      && (g.elem e.ed.to_).any (fun x => x.el.kind == 9 && x.el.p 0 == k)))
    || (k == 0 && (List.range s.part.quads).any (fun q =>
        let n := s.part.bisqueChain q
        let mine (e : PlacedEdge) : Bool := e.num == 0x8000 + q && e.ed.to_ == f
        (s.chainStreams n).any mine || (!(s.chain n).pkt.isEmpty && (s.chain n).pktTo.any mine)
          || s.net.any (fun p => p.addr == 0x8000 + q && p.dst == engine)))

/-- Buffers of data rings whose streams have all ended (R445). -/
def State.endStreams (s : State) : State :=
  foldBelow (fun f t => foldBelow (fun k t =>
    if (t.fillOf f k).chunks ≠ 0 && !t.ringFed f k then t.closeBuf f k 3 else t) 16 t) 8 s

/-- Step 3 of R37; `sync` at a forced boundary, `retired` where step 2 has replaced units. -/
def State.step3 (s : State) (sync retired : Bool) : State :=
  let old := s.tickDiv
  let t := s.closeEnding.holdStep.commitOwners.wheelBefore retired
  let was := t
  let seized := if t.deogen then t.wheelSeizes else []
  let dec := t.bisqueChanges
  let live := t.liveChains
  let trig := t.trigChanges
  let t := (t.commitAnalogue.sayDiv old).relockStart
  let t := if sync then t.syncAlign else t.realignQuads
  let t := if t.clocked then foldBelow (fun q t => t.tickIntegrators q) t.part.quads t else t
  let t := t.calStep.wheelAfter seized
  let t := (t.chainStep live).bisqueStep dec sync
  let t := t.pcanStep.placeSpares
  let t := if t.clocked then t.saggerStep else t
  let t := t.maskTriggers trig
  let t := was.lineRises t.loaderStep.wheelReady.nocStep.pinStep
  t.startService.freeSteps.endStreams.holdClusters.swapTables.writeRemotes.sendWaiting.sayMaps

/-! ### Steps 4 and 5, and what follows -/

/-- Step 4 of R37: overruns, the exchange of input buffers, tick programs; none while a trip has stopped the clocks (R579). -/
def State.step4 (s : State) : State :=
  if !s.clocked then s else let t := s.coresLeave; t.coresStep4 t.awaitingCopy

/-- Step 5 of R37: a function that has returned to D0 goes on (R427), and the doorbell lines are read. -/
def State.step5 (s : State) : State := (foldBelow (fun f t => t.resume f) 8 s).boundaryDoorbells

/-- What Deogen sets going in the tick that begins, for the boundaries to come (R97, R186, R277). -/
def State.wheelAhead (s : State) : State := if s.deogen then s.wheelPrepare.wheelPrewake.wheelEarly else s

/-- The first input of the tick is each running chain's next. -/
def State.rewindChains (s : State) : State :=
  foldBelow (fun n t => if t.chainState n = 2 then t.setChain n { t.chain n with next := 0 } else t) s.part.chains s

/-- Steps 2 to 5 at a boundary whose tick is already counted. -/
def State.boundaryFrom (s : State) (sync : Bool) : State :=
  ((s.replaceUnits.step3 sync s.retiring).step4).step5.wheelAhead.rewindChains

/-- The next boundary, regular or forced (R37, R44): where the two coincide they are one. -/
def State.boundary (s : State) : State :=
  match s.syncFirst with
  | some y =>
    let a := max y.due s.time.now
    (((s.passUntil a).endTick.loadTick y a).fabricInstant).boundaryFrom true
  | none => match s.nextRegular with
    | some a => (((s.passUntil a).endTick.countTick a).fabricInstant).boundaryFrom false
    | none => s

/-- TICK_BOUNDARY (R31, R37): time goes on to the next boundary; there is none while the PLL has not locked. -/
def execTickBoundary (s : State) : Result := .next s.boundary

/-- SYNC_RESET (R44, R593): the forced boundary, where a sync edge has committed one within this tick. -/
def execSyncReset (s : State) : Result := .next (if s.syncFirst.isSome then s.boundary else s)

end Sys2Proof.Machine
end

