-- ==== Sys2Proof/Machine/DspStep.lean ====
section
/-! DEFINITION. How a core executes one instruction: fetch, reserved encodings and ECC, parallel moves, stalls, cycles,
the loop end, faults and interrupts (R220–R224, R235, R240, R252–R258). -/

namespace Sys2Proof.Machine

open Regs

/-- What an operation leaves: the core, its cycles, a transfer of control, a program fault (0: none), whether it ends the
run, a post, and whether it waits (R213, R258). -/
structure Did where
  c : Core
  cyc : Nat
  jump : Option Nat
  fault : Nat
  halt : Bool
  post : Option (Nat × Post)
  wait : Bool

/-- A one-cycle operation. -/
def Core.did (c : Core) : Did := ⟨c, 1, none, 0, false, none, false⟩

/-- A program fault (R220). -/
def Core.faults (c : Core) (code : Nat) : Did := { c.did with fault := code }

/-- An operation: the core before the instruction, the core after its parallel moves, and the word. -/
abbrev Op := Core → Core → IWord → Did

/-- An operation with its parallel moves (R234, R239). -/
def Op.apply (op : Op) (c : Core) (w : IWord) : Did := op c (if opcOf w < 0x40 then c.moves w else c) w

/-- Cycles spent: the run's count advances, and TIMER counts down; it reaches 0 with DSP_TIMER_EXPIRY. -/
def Core.spend (c : Core) (k : Nat) : Core :=
  { c with cycles := c.cycles + k, timer := if c.timer = 0 then 0 else max 1 (c.timer - k) }

/-! ### Stalls (R255) -/

/-- The pointers that an instruction uses. -/
def pointersOf (w : IWord) : List Nat :=
  let opc := opcOf w
  if opc < 0x40 then [xmOf w, ymOf w].filterMap (fun mv => if mv.type = 0 then none else some mv.ptr)
  else if 0x41 ≤ opc ∧ opc ≤ 0x44 ∧ ibits w 23 23 = 1 then [ibits w 22 20] else []

/-- The stall that an instruction meets. -/
def Core.stall (c : Core) (w : IWord) : Nat :=
  if (pointersOf w).any (fun j => c.hazP.contains j) then 1
  else if opcOf w = 0x52 ∧ c.hazD.contains (ibits w 35 33) then 1 else 0

/-- The register that a move instruction writes, if it is one. -/
def movedTo (w : IWord) : Option Nat :=
  match opcOf w with
  | 0x21 => some (ibits w 33 28)
  | 0x40 | 0x41 | 0x42 | 0x48 => some (ibits w 39 34)
  | _ => none

/-- The pointers and steps written that the next instruction must wait for. -/
def hazPOf (w : IWord) : List Nat :=
  match movedTo w with
  | some r => if opcOf w ≠ 0x48 ∧ 16 ≤ r ∧ r < 32 then [(r - 16) % 8] else []
  | none => []

/-- The data registers written that a JMPcc must wait for. -/
def hazDOf (w : IWord) : List Nat :=
  let opc := opcOf w
  let loads := if opc < 0x40 then [xmOf w, ymOf w].filterMap (fun mv => if mv.type = 1 then some mv.reg else none) else []
  let own := if opc < 0x40 then (writtenBy w).toList else (movedTo w).toList ++ (if opc = 0x51 then [ibits w 39 37] else [])
  (loads ++ own).filter (fun r => decide (r < 8))

/-! ### The loop end (R252, R253, R256) -/

/-- LA and LC as the loop-end test sees them. -/
def Core.testLa (c : Core) : Nat := (c.laWait.head?.map (·.2)).getD c.la
/-- LC as the loop-end test sees it. -/
def Core.testLc (c : Core) : Nat := (c.lcWait.head?.map (·.2)).getD c.lc

/-- Waiting writes of LC or LA one instruction older. -/
def ageWrites (l : List (Nat × Nat)) : List (Nat × Nat) :=
  (l.map (fun x => (x.1 - 1, x.2))).filter (fun x => decide (0 < x.1))

/-- Whether an address is that of the last instruction of the active loop's body. -/
def Core.atEnd (c : Core) (a : Nat) : Bool := !c.stack.isEmpty && decide (a = (c.testLa + 0x3FFF) % 0x4000)

/-- The pc after the instruction at `a`, and the loop registers with it (R252). -/
def Core.advance (c : Core) (a : Nat) : Core :=
  let old := { c with lcWait := ageWrites c.lcWait, laWait := ageWrites c.laWait }
  match c.stack with
  | [] => { old with pc := (a + 1) % 0x4000 }
  | f :: rest =>
    if !c.atEnd a then { old with pc := (a + 1) % 0x4000 }
    else if 1 < c.testLc then { old with pc := c.ls, lc := if c.lcWait.isEmpty then c.lc - 1 else c.lc }
    else { c with pc := c.testLa, lc := f.lc, la := f.la, ls := f.ls, stack := rest, lcWait := [], laWait := [] }

/-- The pc after a transfer of control: the loop-end action is skipped. -/
def Core.jumped (c : Core) (a : Nat) : Core :=
  { c with pc := a % 0x4000, lcWait := ageWrites c.lcWait, laWait := ageWrites c.laWait }

/-- The loop instructions and RTI are reserved encodings at the end of a loop body (R253). -/
def Core.badPlace (c : Core) (w : IWord) : Bool :=
  [0x54, 0x58, 0x59, 0x5A, 0x5B, 0x5C].contains (opcOf w) && c.atEnd c.pc

/-! ### Banks (R222) -/

/-- The main and shadow banks swapped. -/
def Core.swap (c : Core) : Core := { c with bank := c.shadow, shadow := c.bank }

/-! ### Outcomes -/

/-- A run's HALT, or the end of a handler after it (R217, R224, R250). -/
def State.haltCore (s : State) (n : Nat) : State :=
  let c := s.core n
  let t := s.setCore n (if c.inIsr then c.swap else c)
  if c.ended then
    let t := t.countCycles n c.cycles
    (t.setCore n { (t.core n).retain with running := false, inIsr := false }).setRunCode n 0
  else
    let t := t.endRun n c.cycles false
    if c.replay then t.endReplay n else t

/-- A program fault (R220). -/
def State.programFault (s : State) (n code pc : Nat) : State :=
  let c := s.core n
  let w := pfaultInfo_PC.put (pfaultInfo_CODE.put 0 code) pc
  let t := ((s.setReg (pfaultInfo n) w).setFlag (dspStatus n) dspStatus_PFAULT).count (pfaults n)
  let t := (t.endRun n c.cycles true).raise (576 + n) 2 [] c.fnCode
  let t := t.setCore n { t.core n with faulted := true }
  if c.replay && !c.ended then t.endReplay n else t

/-- Whether core `n` executes instructions: PLACED, or LOADING and replaying, with a run or a handler in progress. -/
def State.executing (s : State) (n : Nat) : Bool :=
  s.hasCore n && s.clocked && (s.core n).running && (s.coreState n == 3 || s.coreState n == 2)

/-- What an operation leaves put into the state, at address `a`. -/
def State.complete (s : State) (n a : Nat) (w : IWord) (d : Did) (cyc : Nat) : State :=
  let c := d.c.spend cyc
  let c := { c with hazP := hazPOf w, hazD := hazDOf w }
  let c := match d.jump with | some x => c.jumped x | none => c.advance a
  let t := s.setCore n c
  let t := match d.post with | some (j, p) => t.postWords n j p | none => t
  let t := if c.running then t.setRunCode n c.runCode else t
  if d.halt then t.haltCore n else t

/-- One instruction executed. -/
def State.runOnce (s : State) (n : Nat) (op : Op) (w : IWord) : State :=
  let c := s.core n
  let d := op.apply c w
  if d.fault ≠ 0 then s.programFault n d.fault c.pc
  else if d.wait then s.setCore n (c.spend 1)
  else s.complete n c.pc w d (d.cyc + c.stall w)

/-- An instruction command: the core executes the word at its pc when that holds the command's opcode. A double-bit error
retires the core before any effect (R197, R259). A word whose opcode is not listed is ILLEGAL whatever command names it;
NOP stands for it. -/
def State.execute (s : State) (n opc : Nat) (e : Ecc) (go : State → IWord → State) : State :=
  let c := s.core n
  let w := c.fetch c.pc
  if !(s.executing n) || !(opcOf w == opc || (opc == 0 && !listed (opcOf w))) then s
  else
    match e with
    | .double => s.retireCore n 1
    | .single k =>
      let s := s.eccCorrected n k
      if reserved w c.pc || c.badPlace w then s.programFault n 1 c.pc else go s w
    | .clean => if reserved w c.pc || c.badPlace w then s.programFault n 1 c.pc else go s w

/-- An instruction command of one operation. -/
def State.instruction (s : State) (n opc : Nat) (e : Ecc) (op : Op) : Result :=
  .next (s.execute n opc e (fun s w => s.runOnce n op w))

/-! ### Interrupts (R222–R224, R257) -/

/-- Whether an interrupt is takeable. -/
def State.takeable_ (s : State) (n : Nat) : Bool :=
  let c := s.core n
  s.hasCore n && s.clocked && (s.coreState n == 3 || s.coreState n == 2) && c.task.isSome && (c.running || c.ended)
    && c.interrupting

/-- INTERRUPT_ENTRY (R222, R224, R257): TIMER first. A reserved encoding that stands next is raised instead (R259). -/
def execInterruptEntry (n : Nat) (s : State) : Result :=
  .next (s.onlyIf (s.takeable_ n)
    (let c := s.core n
     if c.running && (reserved (c.fetch c.pc) c.pc || c.badPlace (c.fetch c.pc)) then s.programFault n 1 c.pc else
     let at_ := if bitOf (c.irqStat &&& c.irqEn) 0 = 1 then 0x10 else 0x20
     let c := { c.swap.spend 3 with inIsr := true, ret := c.pc, pc := at_, running := true, hazP := [], hazD := [] }
     (s.setCore n c).setRunCode n 2))

/-- DSP_TIMER_EXPIRY (R222): TIMER counts down to 0. -/
def execDspTimerExpiry (n : Nat) (s : State) : Result :=
  .next (s.onlyIf (s.hasCore n && s.clocked && (s.core n).timer != 0)
    (s.setCore n ({ s.core n with timer := 0 }.raiseIrq 1)))

end Sys2Proof.Machine
end

