-- ==== Sys2Proof/Machine/DspMul.lean ====
section
/-! DEFINITION. The multiply class of the DSP cores (R243). -/

namespace Sys2Proof.Machine

/-- The accumulator that a word names, 0–3. -/
def accOf (w : IWord) : Nat := ibits w 39 36 - 8

/-- Dx of a word, signed. -/
def Core.dx (o : Core) (w : IWord) : Int := o.dn (ibits w 35 32)
/-- Dy of a word, signed. -/
def Core.dy (o : Core) (w : IWord) : Int := o.dn (ibits w 31 28)
/-- Dx of a word, unsigned. -/
def Core.dxu (o : Core) (w : IWord) : Int := o.du (ibits w 35 32)
/-- Dy of a word, unsigned. -/
def Core.dyu (o : Core) (w : IWord) : Int := o.du (ibits w 31 28)

/-- A product written into an accumulator, with C cleared (R243). -/
def Core.product (c : Core) (w : IWord) (p : Int) : Did := ((c.putAcc (accOf w) p).setC false).did

/-- A product added to an accumulator, with the carry (R243). -/
def Core.accumulate (o c : Core) (w : IWord) (p : Int) : Did :=
  ((c.putAcc (accOf w) (o.accn (accOf w) + p)).setC (carry56 (o.accn (accOf w)) p)).did

/-- MPY (R243) -/
def opMpy : Op := fun o c w => c.product w (2 * o.dx w * o.dy w)

/-- MPY, as a command. -/
def execMpy (n : Nat) (e : Ecc) (s : State) : Result := s.instruction n 0x1 e opMpy

/-- MPYN (R243) -/
def opMpyn : Op := fun o c w => c.product w (-(2 * o.dx w * o.dy w))

/-- MPYN, as a command. -/
def execMpyn (n : Nat) (e : Ecc) (s : State) : Result := s.instruction n 0x2 e opMpyn

/-- MAC (R243) -/
def opMac : Op := fun o c w => Core.accumulate o c w (2 * o.dx w * o.dy w)

/-- MAC, as a command. -/
def execMac (n : Nat) (e : Ecc) (s : State) : Result := s.instruction n 0x3 e opMac

/-- MSC (R243) -/
def opMsc : Op := fun o c w => 
  ((c.putAcc (accOf w) (o.accn (accOf w) - 2 * o.dx w * o.dy w)).setC
    (borrow56 (o.accn (accOf w)) (2 * o.dx w * o.dy w))).did

/-- MSC, as a command. -/
def execMsc (n : Nat) (e : Ecc) (s : State) : Result := s.instruction n 0x4 e opMsc

/-- MACR (R243, R202) -/
def opMacr : Op := fun o c w => 
  let p := 2 * o.dx w * o.dy w
  ((c.putAcc (accOf w) (roundEven (o.accn (accOf w) + p) 0x1000000 * 0x1000000)).setC
    (carry56 (o.accn (accOf w)) p)).did

/-- MACR, as a command. -/
def execMacr (n : Nat) (e : Ecc) (s : State) : Result := s.instruction n 0x5 e opMacr

/-- MPYI (R243) -/
def opMpyi : Op := fun o c w => c.product w (o.dx w * o.dy w)

/-- MPYI, as a command. -/
def execMpyi (n : Nat) (e : Ecc) (s : State) : Result := s.instruction n 0x6 e opMpyi

/-- MACI (R243) -/
def opMaci : Op := fun o c w => Core.accumulate o c w (o.dx w * o.dy w)

/-- MACI, as a command. -/
def execMaci (n : Nat) (e : Ecc) (s : State) : Result := s.instruction n 0x7 e opMaci

/-- MACSU (R243) -/
def opMacsu : Op := fun o c w => Core.accumulate o c w (o.dx w * o.dyu w)

/-- MACSU, as a command. -/
def execMacsu (n : Nat) (e : Ecc) (s : State) : Result := s.instruction n 0x8 e opMacsu

/-- MACUU (R243) -/
def opMacuu : Op := fun o c w => Core.accumulate o c w (o.dxu w * o.dyu w)

/-- MACUU, as a command. -/
def execMacuu (n : Nat) (e : Ecc) (s : State) : Result := s.instruction n 0x9 e opMacuu

end Sys2Proof.Machine
end

