-- ==== Sys2Proof/Machine/DspArith.lean ====
section
/-! DEFINITION. Accumulator arithmetic, shifts and division of the DSP cores (R244, R245). -/

namespace Sys2Proof.Machine

/-- src of ADD, SUB, CMP and TFR (R244): ext of a data register, or an accumulator. -/
def Core.srcOf (o : Core) (w : IWord) : Int :=
  let r := ibits w 35 32
  if r < 8 then o.dn r * 0x1000000 else o.accn (r - 8)

/-- The accumulator of a word before the instruction. -/
def Core.accIn (o : Core) (w : IWord) : Int := o.accn (accOf w)

/-- The number of bits from bit `k` − 1 downwards that equal `b`. -/
def runOf (u b : Nat) : Nat → Nat
  | 0 => 0
  | k + 1 => if bitOf u k = b then 1 + runOf u b k else 0

/-- ADD (R244) -/
def opAdd : Op := fun o c w => ((c.putAcc (accOf w) (o.accIn w + o.srcOf w)).setC (carry56 (o.accIn w) (o.srcOf w))).did

/-- ADD, as a command. -/
def execAdd (n : Nat) (e : Ecc) (s : State) : Result := s.instruction n 0xA e opAdd

/-- SUB (R244) -/
def opSub : Op := fun o c w => ((c.putAcc (accOf w) (o.accIn w - o.srcOf w)).setC (borrow56 (o.accIn w) (o.srcOf w))).did

/-- SUB, as a command. -/
def execSub (n : Nat) (e : Ecc) (s : State) : Result := s.instruction n 0xB e opSub

/-- CMP (R244): tested as with OM 0, and nothing stored -/
def opCmp : Op := fun o c w => ((c.setWNZ (fit56 false (o.accIn w - o.srcOf w))).setC (borrow56 (o.accIn w) (o.srcOf w))).did

/-- CMP, as a command. -/
def execCmp (n : Nat) (e : Ecc) (s : State) : Result := s.instruction n 0xC e opCmp

/-- TFR (R244) -/
def opTfr : Op := fun o c w => ((c.putAcc (accOf w) (o.srcOf w)).setC false).did

/-- TFR, as a command. -/
def execTfr (n : Nat) (e : Ecc) (s : State) : Result := s.instruction n 0xD e opTfr

/-- NEG (R244) -/
def opNeg : Op := fun o c w => ((c.putAcc (accOf w) (-(o.accIn w))).setC (o.accIn w != 0)).did

/-- NEG, as a command. -/
def execNeg (n : Nat) (e : Ecc) (s : State) : Result := s.instruction n 0xE e opNeg

/-- ABS (R244) -/
def opAbs : Op := fun o c w => ((c.putAcc (accOf w) (o.accIn w).natAbs).setC false).did

/-- ABS, as a command. -/
def execAbs (n : Nat) (e : Ecc) (s : State) : Result := s.instruction n 0xF e opAbs

/-- CLR (R244) -/
def opClr : Op := fun _ c w => ((c.putAcc (accOf w) 0).setC false).did

/-- CLR, as a command. -/
def execClr (n : Nat) (e : Ecc) (s : State) : Result := s.instruction n 0x10 e opClr

/-- RND (R202, R244) -/
def opRnd : Op := fun o c w => ((c.putAcc (accOf w) (roundEven (o.accIn w) 0x1000000 * 0x1000000)).setC false).did

/-- RND, as a command. -/
def execRnd (n : Nat) (e : Ecc) (s : State) : Result := s.instruction n 0x11 e opRnd

/-- ASL (R244): C is the last bit shifted out -/
def opAsl : Op := fun o c w => 
  let k := ibits w 29 24
  ((c.putAcc (accOf w) (o.accIn w * 2 ^ k)).setC (bitOf (o.accu (accOf w)) (56 - k) == 1)).did

/-- ASL, as a command. -/
def execAsl (n : Nat) (e : Ecc) (s : State) : Result := s.instruction n 0x12 e opAsl

/-- ASR (R244): C is the last bit shifted out -/
def opAsr : Op := fun o c w => 
  let k := ibits w 29 24
  ((c.putAcc (accOf w) (o.accIn w / 2 ^ k)).setC (bitOf (o.accu (accOf w)) (k - 1) == 1)).did

/-- ASR, as a command. -/
def execAsr (n : Nat) (e : Ecc) (s : State) : Result := s.instruction n 0x13 e opAsr

/-- SHV (R244) -/
def opShv : Op := fun o c w => 
  let j := sx 7 (o.du (ibits w 35 32))
  ((c.putAcc (accOf w) (if 0 ≤ j then o.accIn w * 2 ^ j.toNat else o.accIn w / 2 ^ (-j).toNat)).setC false).did

/-- SHV, as a command. -/
def execShv (n : Nat) (e : Ecc) (s : State) : Result := s.instruction n 0x14 e opShv

/-- CLS (R244) -/
def opCls : Op := fun o c w => 
  let u := o.accu (accOf w)
  (c.setD (ibits w 35 32) ((runOf u (bitOf u 55) 55 : Nat) - 8)).did

/-- CLS, as a command. -/
def execCls (n : Nat) (e : Ecc) (s : State) : Result := s.instruction n 0x15 e opCls

/-- DIVS (R245): the exact sum is judged, then the quotient bit is inserted; W, N and Z stay -/
def opDivs : Op := fun o c w => 
  let d := o.dx w
  let n := accOf w
  let a := if (o.accIn w < 0) = (d < 0) then o.accIn w * 2 - d * 0x1000000 else o.accIn w * 2 + d * 0x1000000
  let r := fit56 o.om a
  let q := (r < 0) = (d < 0)
  (((if outside56 a then c.setSrg 7 true else c).setAcc n (if q then r + 1 else r)).setC (decide q)).did

/-- DIVS, as a command. -/
def execDivs (n : Nat) (e : Ecc) (s : State) : Result := s.instruction n 0x16 e opDivs

end Sys2Proof.Machine
end

