-- ==== Sys2Proof/Machine/DspData.lean ====
section
/-! DEFINITION. Data-register operations of the DSP cores (R246). -/

namespace Sys2Proof.Machine

/-- Dd of a word. -/
def ddOf (w : IWord) : Nat := ibits w 39 36
/-- Dd before the instruction, unsigned. -/
def Core.ddu (o : Core) (w : IWord) : Nat := o.du (ddOf w)
/-- Ds before the instruction, unsigned. -/
def Core.dsu (o : Core) (w : IWord) : Nat := o.du (ibits w 35 32)

/-- AND (R246) -/
def opAndD : Op := fun o c w => (c.putData (ddOf w) ((o.ddu w &&& o.dsu w : Nat) : Int) false).did

/-- AND, as a command. -/
def execAndD (n : Nat) (e : Ecc) (s : State) : Result := s.instruction n 0x18 e opAndD

/-- OR (R246) -/
def opOrD : Op := fun o c w => (c.putData (ddOf w) ((o.ddu w ||| o.dsu w : Nat) : Int) false).did

/-- OR, as a command. -/
def execOrD (n : Nat) (e : Ecc) (s : State) : Result := s.instruction n 0x19 e opOrD

/-- XOR (R246) -/
def opXorD : Op := fun o c w => (c.putData (ddOf w) ((o.ddu w ^^^ o.dsu w : Nat) : Int) false).did

/-- XOR, as a command. -/
def execXorD (n : Nat) (e : Ecc) (s : State) : Result := s.instruction n 0x1A e opXorD

/-- NOT (R246) -/
def opNotD : Op := fun o c w => (c.putData (ddOf w) (-1 - (o.ddu w : Int)) false).did

/-- NOT, as a command. -/
def execNotD (n : Nat) (e : Ecc) (s : State) : Result := s.instruction n 0x1B e opNotD

/-- LSL (R246): C is the last bit out of bit 23 -/
def opLsl : Op := fun o c w => 
  let k := ibits w 28 24
  (c.putData (ddOf w) ((o.ddu w * 2 ^ k : Nat) : Int) (bitOf (o.ddu w) (24 - k) == 1)).did

/-- LSL, as a command. -/
def execLsl (n : Nat) (e : Ecc) (s : State) : Result := s.instruction n 0x1C e opLsl

/-- LSR (R246): C is the last bit out of bit 0 -/
def opLsr : Op := fun o c w => 
  let k := ibits w 28 24
  (c.putData (ddOf w) ((o.ddu w / 2 ^ k : Nat) : Int) (bitOf (o.ddu w) (k - 1) == 1)).did

/-- LSR, as a command. -/
def execLsr (n : Nat) (e : Ecc) (s : State) : Result := s.instruction n 0x1D e opLsr

/-- ASRD (R246): C is the last bit out of bit 0 -/
def opAsrd : Op := fun o c w => 
  let k := ibits w 28 24
  (c.putData (ddOf w) (o.dn (ddOf w) / 2 ^ k) (bitOf (o.ddu w) (k - 1) == 1)).did

/-- ASRD, as a command. -/
def execAsrd (n : Nat) (e : Ecc) (s : State) : Result := s.instruction n 0x1E e opAsrd

/-- ADDD (R246) -/
def opAddd : Op := fun o c w => (c.putData (ddOf w) ((o.ddu w + o.dsu w : Nat) : Int) (decide (2 ^ 24 ≤ o.ddu w + o.dsu w))).did

/-- ADDD, as a command. -/
def execAddd (n : Nat) (e : Ecc) (s : State) : Result := s.instruction n 0x1F e opAddd

/-- SUBD (R246) -/
def opSubd : Op := fun o c w => (c.putData (ddOf w) ((o.ddu w : Int) - o.dsu w) (decide (o.ddu w < o.dsu w))).did

/-- SUBD, as a command. -/
def execSubd (n : Nat) (e : Ecc) (s : State) : Result := s.instruction n 0x20 e opSubd

end Sys2Proof.Machine
end

