-- ==== Sys2Proof/Machine/DspMove.lean ====
section
/-! DEFINITION. The moves of the DSP cores (R237, R247, R248) and their peripheral registers (R216, R258). -/

namespace Sys2Proof.Machine

/-- A value written to a register by a move: a modulus has its check and its cycles (R206, R207, R237). -/
def Core.moveTo (c : Core) (r v : Nat) (lim : Bool) : Did :=
  let c := if lim then c.setSrg 6 true else c
  if 32 ≤ r ∧ r < 40 then
    if modReserved v then c.faults 6
    else
      let c' := c.writeRegCode r v
      { c'.did with cyc := 1 + 2 * (modPointers c'.m.toList (r - 32)).length }
  else (c.writeRegCode r v).did

/-- The effective address of LDX, LDY, STX and STY (R248). -/
def Core.ea (o : Core) (w : IWord) : Nat :=
  if ibits w 23 23 = 0 then ibits w 14 0
  else stepped (governing o.m.toList (ibits w 22 20)) (o.pn (ibits w 22 20)) (sx 16 (ibits w 15 0))

/-- A store by STX or STY. -/
def Core.storeTo (o c : Core) (y : Bool) (w : IWord) : Did :=
  let (v, lim) := o.readReg (ibits w 39 34)
  ((if lim then c.setSrg 6 true else c).setMem y (o.ea w) (BitVec.ofNat 24 v)).did

/-- IN_SUM of the work buffer of a stream (R211, R216). -/
def sumOf (r : Rx) : Nat :=
  let has (b : Nat) := flag (r.words.any (fun w => bitOf w.toNat b == 1))
  let marked := (r.words.filter (fun w => (w.toNat &&& 0xF0) != 0)).length
  flag r.ovf * 2 ^ 23 + has 5 * 2 ^ 22 + has 4 * 2 ^ 21 + has 6 * 2 ^ 20 + has 7 * 2 ^ 19 + min 65535 marked

/-- The work buffer of an input stream. -/
def Core.workOf (c : Core) (i : Nat) : Rx := FMap.get (fun _ => ⟨[], false⟩) c.work i

/-- A peripheral register read (R216). -/
def Core.perRead (c : Core) (a : Nat) : Nat :=
  let i := a % 8
  let work (b0 b1 : Nat) := if 1 - c.phase = 0 then b0 else b1
  if a < 8 then (match c.inPort i with | some p => flag p.y * 0x8000 + work p.base0 p.base1 | none => 0)
  else if a < 0x10 then (match c.inPort i with | some _ => (c.workOf i).words.length | none => 0)
  else if a < 0x18 then (match c.inPort i with | some _ => sumOf (c.workOf i) | none => 0)
  else if a < 0x20 then
    (match c.inPort i with
     | some p => if p.flagged then 2 ^ 23 + flag p.y * 0x8000 + work p.f0 p.f1 else 0
     | none => 0)
  else if 0x40 ≤ a ∧ a < 0x48 then FMap.get (fun _ => 0) c.src i
  else if 0x48 ≤ a ∧ a < 0x50 then FMap.get (fun _ => 0) c.fsrc i
  else if 0x58 ≤ a ∧ a < 0x60 then
    let o := c.outOf i
    flag o.busy.isSome * 2 ^ 23 + flag o.excess * 2 ^ 22 + min 65535 o.posted
  else match a with
    | 0x60 => c.runTick % 0x1000000
    | 0x61 => min 0xFFFFFF c.cycles
    | 0x62 => min 4 c.pend.length * 0x100 + flag c.first * 2 + flag c.replay
    | 0x63 => c.timer
    | 0x64 => c.irqStat
    | 0x65 => c.irqEn
    | _ => 0

/-- A peripheral register written (R213, R216): a post while its stream is BUSY waits; a bit of IRQ_STAT that hardware sets in the same cycle
stays (R12). -/
def Core.perWrite (c : Core) (a v : Nat) : Did :=
  let i := a % 8
  let d (c : Core) : Did := { c.did with cyc := 2 }
  if 0x40 ≤ a ∧ a < 0x48 then d { c with src := FMap.set (fun _ => 0) c.src i (v % 0x10000) }
  else if 0x48 ≤ a ∧ a < 0x50 then d { c with fsrc := FMap.set (fun _ => 0) c.fsrc i (v % 0x10000) }
  else if 0x50 ≤ a ∧ a < 0x58 then
    if (c.outOf i).busy.isSome then { c.did with wait := true }
    else
      let src := FMap.get (fun _ => 0) c.src i
      let fs := FMap.get (fun _ => 0) c.fsrc i
      let fl := bitOf v 23 * 0x80 + bitOf v 22 * 0x40 + bitOf v 21 * 0x10
      if v % 0x10000 = 0 then d c
      else { d c with post := some (i, ⟨bitOf src 15 == 1, src % 0x8000, bitOf fs 15 == 1, fs % 0x8000, fl, bitOf v 20 == 1,
        v % 0x10000, c.cycles⟩) }
  else match a with
    | 0x63 => d { c with timer := v }
    | 0x64 => d { c with irqStat := c.irqStat - (c.irqStat &&& (v % 4 - (v % 4 &&& c.irqJust))) }
    | 0x65 => d { c with irqEn := v % 4 }
    | _ => d c

/-- NOP (R235): its parallel moves only -/
def opNop : Op := fun o c w => let _ := (o, w); c.did

/-- NOP, as a command. -/
def execNop (n : Nat) (e : Ecc) (s : State) : Result := s.instruction n 0x0 e opNop

/-- MOVE (R237, R247): ACCm to ACCn copies all 56 bits -/
def opMove : Op := fun o c w => 
  let src := ibits w 39 34
  let dst := ibits w 33 28
  if 8 ≤ src ∧ src < 12 ∧ 8 ≤ dst ∧ dst < 12 then (c.setAcc (dst - 8) (o.accn (src - 8))).did
  else c.moveTo dst (o.readReg src).1 (o.readReg src).2

/-- MOVE, as a command. -/
def execMove (n : Nat) (e : Ecc) (s : State) : Result := s.instruction n 0x21 e opMove

/-- LDI (R247) -/
def opLdi : Op := fun o c w => let _ := o; c.moveTo (ibits w 39 34) (extOf w) false

/-- LDI, as a command. -/
def execLdi (n : Nat) (e : Ecc) (s : State) : Result := s.instruction n 0x40 e opLdi

/-- LDX (R247, R248) -/
def opLdx : Op := fun o c w => c.moveTo (ibits w 39 34) (o.mem false (o.ea w)).toNat false

/-- LDX, as a command. -/
def execLdx (n : Nat) (e : Ecc) (s : State) : Result := s.instruction n 0x41 e opLdx

/-- LDY (R247, R248) -/
def opLdy : Op := fun o c w => c.moveTo (ibits w 39 34) (o.mem true (o.ea w)).toNat false

/-- LDY, as a command. -/
def execLdy (n : Nat) (e : Ecc) (s : State) : Result := s.instruction n 0x42 e opLdy

/-- STX (R247, R248) -/
def opStx : Op := fun o c w => Core.storeTo o c false w

/-- STX, as a command. -/
def execStx (n : Nat) (e : Ecc) (s : State) : Result := s.instruction n 0x43 e opStx

/-- STY (R247, R248) -/
def opSty : Op := fun o c w => Core.storeTo o c true w

/-- STY, as a command. -/
def execSty (n : Nat) (e : Ecc) (s : State) : Result := s.instruction n 0x44 e opSty

/-- MOVEP PER:a,dst (R247) -/
def opMovepRead : Op := fun o c w => 
  let d := c.moveTo (ibits w 39 34) (o.perRead (ibits w 6 0)) false
  { d with cyc := d.cyc + 1 }

/-- MOVEP PER, as a command. -/
def execMovepRead (n : Nat) (e : Ecc) (s : State) : Result := s.instruction n 0x48 e opMovepRead

/-- MOVEP src,PER:a (R247, R258) -/
def opMovepWrite : Op := fun o c w => 
  let (v, lim) := o.readReg (ibits w 39 34)
  (if lim then c.setSrg 6 true else c).perWrite (ibits w 6 0) v

/-- MOVEP src,PER, as a command. -/
def execMovepWrite (n : Nat) (e : Ecc) (s : State) : Result := s.instruction n 0x49 e opMovepWrite

end Sys2Proof.Machine
end

