-- ==== Sys2Proof/Machine/DspControl.lean ====
section
/-! DEFINITION. The control and loop instructions of the DSP cores (R249–R254). -/

namespace Sys2Proof.Machine

/-- An operation of two cycles. -/
def Core.did2 (c : Core) : Did := { c.did with cyc := 2 }

/-- A transfer of control (R249). -/
def Core.branch (c : Core) (a : Nat) : Did := { c.did2 with jump := some (a % 0x4000) }

/-- A loop started (R209, R252): `n` times, to the exit address; the full stack is tested whatever the count. -/
def Core.loop (o c : Core) (w : IWord) (n : Nat) : Did :=
  let x := ibits w 13 0
  let a := (o.pc + 1) % 0x4000
  if 4 ≤ o.stack.length then c.faults 3
  else if n = 0 then c.branch x
  else { { c with stack := ⟨o.lc, o.la, o.ls⟩ :: o.stack, lc := n, la := x, ls := a, lcWait := [], laWait := [] }.did2 with
         jump := some a }

/-- Bcc (R241, R249) -/
def opBcc : Op := fun o c w => if o.cond (ibits w 39 36) then c.branch (ibits w 13 0) else c.did2

/-- Bcc, as a command. -/
def execBcc (n : Nat) (e : Ecc) (s : State) : Result := s.instruction n 0x50 e opBcc

/-- JSR (R249) -/
def opJsr : Op := fun o c w => (c.setD (ibits w 39 37) ((o.pc + 1) % 0x4000 : Nat)).branch (ibits w 13 0)

/-- JSR, as a command. -/
def execJsr (n : Nat) (e : Ecc) (s : State) : Result := s.instruction n 0x51 e opJsr

/-- JMPcc (R241, R249) -/
def opJmpcc : Op := fun o c w => if o.cond (ibits w 39 36) then c.branch (o.du (ibits w 35 33)) else c.did2

/-- JMPcc, as a command. -/
def execJmpcc (n : Nat) (e : Ecc) (s : State) : Result := s.instruction n 0x52 e opJmpcc

/-- HALT (R217, R250) -/
def opHalt : Op := fun o c w => let _ := (o, w); { c.did2 with halt := true }

/-- HALT, as a command. -/
def execHalt (n : Nat) (e : Ecc) (s : State) : Result := s.instruction n 0x53 e opHalt

/-- RTI (R222, R224): after HALT it returns the core to idle -/
def opRti : Op := fun o c w => let _ := w
  if !o.inIsr then c.faults 5
  else if o.ended then { { c.swap with inIsr := false, shadow := c.bank }.did2 with halt := true, jump := some o.ret }
  else { { c.swap with inIsr := false }.did2 with jump := some o.ret }

/-- RTI, as a command. -/
def execRti (n : Nat) (e : Ecc) (s : State) : Result := s.instruction n 0x54 e opRti

/-- ANDS (R249) -/
def opAnds : Op := fun o c w => (c.writeSrg (o.bank.srg.toNat &&& extOf w)).did

/-- ANDS, as a command. -/
def execAnds (n : Nat) (e : Ecc) (s : State) : Result := s.instruction n 0x55 e opAnds

/-- ORS (R249) -/
def opOrs : Op := fun o c w => (c.writeSrg (o.bank.srg.toNat ||| extOf w)).did

/-- ORS, as a command. -/
def execOrs (n : Nat) (e : Ecc) (s : State) : Result := s.instruction n 0x56 e opOrs

/-- DO (R209, R252) -/
def opDoImm : Op := fun o c w => Core.loop o c w (ibits w 39 24)

/-- DO, as a command. -/
def execDoImm (n : Nat) (e : Ecc) (s : State) : Result := s.instruction n 0x58 e opDoImm

/-- DOR (R209, R252) -/
def opDor : Op := fun o c w => Core.loop o c w (o.du (ibits w 39 37) % 0x10000)

/-- DOR, as a command. -/
def execDor (n : Nat) (e : Ecc) (s : State) : Result := s.instruction n 0x59 e opDor

/-- ENDDO (R209, R252) -/
def opEnddo : Op := fun o c w => let _ := w
  match o.stack with
  | [] => c.faults 4
  | f :: rest => { { c with lc := f.lc, la := f.la, ls := f.ls, stack := rest, lcWait := [], laWait := [] }.did2 with
      jump := some ((o.pc + 1) % 0x4000) }

/-- ENDDO, as a command. -/
def execEnddo (n : Nat) (e : Ecc) (s : State) : Result := s.instruction n 0x5A e opEnddo

/-- The operation of a repeatable opcode (R254). -/
def opOf (opc : Nat) : Op :=
  match opc with
  | 0x01 => opMpy | 0x02 => opMpyn | 0x03 => opMac | 0x04 => opMsc | 0x05 => opMacr | 0x06 => opMpyi
  | 0x07 => opMaci | 0x08 => opMacsu | 0x09 => opMacuu | 0x0A => opAdd | 0x0B => opSub | 0x0C => opCmp
  | 0x0D => opTfr | 0x0E => opNeg | 0x0F => opAbs | 0x10 => opClr | 0x11 => opRnd | 0x12 => opAsl
  | 0x13 => opAsr | 0x14 => opShv | 0x15 => opCls | 0x16 => opDivs | 0x18 => opAndD | 0x19 => opOrD
  | 0x1A => opXorD | 0x1B => opNotD | 0x1C => opLsl | 0x1D => opLsr | 0x1E => opAsrd | 0x1F => opAddd
  | 0x20 => opSubd | 0x21 => opMove | 0x40 => opLdi | 0x41 => opLdx | 0x42 => opLdy | 0x43 => opStx
  | 0x44 => opSty | 0x55 => opAnds | 0x56 => opOrs | _ => opNop

/-- Whether the REP column of a listed instruction reads Yes: not to Mn, and no multi-cycle instruction (R208, R254). -/
def repeatable (w : IWord) : Bool :=
  let opc := opcOf w
  let toMn := match movedTo w with | some r => decide (32 ≤ r ∧ r < 40) | none => false
  !toMn && (decide (opc < 0x48) || opc == 0x55 || opc == 0x56)

/-- One instruction gone by for the writes of LC and LA that wait (R256). -/
def Core.aged (c : Core) : Core := { c with lcWait := ageWrites c.lcWait, laWait := ageWrites c.laWait }

/-- `k` repetitions of an operation: no stall between them, and each an instruction of its own to the writes of LC and LA that wait (R254,
R256). -/
def repeatOp (op : Op) (w : IWord) : Nat → Core → Core
  | 0, c => c
  | k + 1, c => repeatOp op w k (op.apply c.aged w).c

/-- REP and the instruction it repeats, as one unit (R208, R253, R254). -/
def State.runRepeat (s : State) (n k : Nat) : State :=
  let c := s.core n
  let a := (c.pc + 1) % 0x4000
  let w := c.fetch a
  if listed (opcOf w) && !repeatable w then s.programFault n 2 c.pc
  else if k = 0 then s.setCore n ({ c.spend 2 with hazP := [], hazD := [] }.advance a)
  else if reserved w a then s.programFault n 1 a
  else s.complete n a w (repeatOp (opOf (opcOf w)) w k c).did (1 + k)

/-- REP (R208, R252). -/
def execRep (n : Nat) (e : Ecc) (s : State) : Result :=
  .next (s.execute n 0x5B e (fun s w => s.runRepeat n (ibits w 35 24)))

/-- REPR (R208, R252). -/
def execRepr (n : Nat) (e : Ecc) (s : State) : Result :=
  .next (s.execute n 0x5C e (fun s w => s.runRepeat n ((s.core n).du (ibits w 39 37) % 0x1000)))

end Sys2Proof.Machine
end

