-- ==== Sys2Proof/Machine/Dispatch.lean ====
section
/-! DEFINITION. One arm per command: the direct call of its meaning. -/

namespace Sys2Proof.Machine

/-- The command's effect on everything but the queue. -/
def exec (i : Instr) (s : State) : Host.Outcome State Fault Refusal :=
  match i with
  | .systemPllLock => Sys2Proof.Machine.execSystemPllLock s
  | .tickBoundary => Sys2Proof.Machine.execTickBoundary s
  | .tickDivWrite f v => Sys2Proof.Machine.execTickDivWrite f v s
  | .tickLoRead f => Sys2Proof.Machine.execTickLoRead f s
  | .syncCtrlWrite f v => Sys2Proof.Machine.execSyncCtrlWrite f v s
  | .syncEdge => Sys2Proof.Machine.execSyncEdge s
  | .syncOffsetCheck => Sys2Proof.Machine.execSyncOffsetCheck s
  | .syncReset => Sys2Proof.Machine.execSyncReset s
  | .clkrefLost => Sys2Proof.Machine.execClkrefLost s
  | .clkrefQualified ppm => Sys2Proof.Machine.execClkrefQualified ppm s
  | .relockGo f v => Sys2Proof.Machine.execRelockGo f v s
  | .relockComplete => Sys2Proof.Machine.execRelockComplete s
  | .quadPllUnlock q => Sys2Proof.Machine.execQuadPllUnlock q s
  | .quadPllRelock q => Sys2Proof.Machine.execQuadPllRelock q s
  | .settlingWindowEnd q k => Sys2Proof.Machine.execSettlingWindowEnd q k s
  | .overloadTrip q k => Sys2Proof.Machine.execOverloadTrip q k s
  | .overloadRelease q k => Sys2Proof.Machine.execOverloadRelease q k s
  | .cabComparatorRise q b => Sys2Proof.Machine.execCabComparatorRise q b s
  | .cabComparatorFall q b => Sys2Proof.Machine.execCabComparatorFall q b s
  | .rstGo f q b v => Sys2Proof.Machine.execRstGo f q b v s
  | .cabClip q b => Sys2Proof.Machine.execCabClip q b s
  | .connect f q v => Sys2Proof.Machine.execConnect f q v s
  | .disconnect f q v => Sys2Proof.Machine.execDisconnect f q v s
  | .clearWire f q v => Sys2Proof.Machine.execClearWire f q v s
  | .dacStreamSample q x => Sys2Proof.Machine.execDacStreamSample q x s
  | .dacUnderrun q => Sys2Proof.Machine.execDacUnderrun q s
  | .refbufEnable f q v => Sys2Proof.Machine.execRefbufEnable f q v s
  | .refbufReady q => Sys2Proof.Machine.execRefbufReady q s
  | .sliceStartupEnd q ix => Sys2Proof.Machine.execSliceStartupEnd q ix s
  | .sliceBlockEnd q ix st => Sys2Proof.Machine.execSliceBlockEnd q ix st s
  | .injReq f q v => Sys2Proof.Machine.execInjReq f q v s
  | .injectedConversionDone q val => Sys2Proof.Machine.execInjectedConversionDone q val s
  | .injectedConversionTimeout q => Sys2Proof.Machine.execInjectedConversionTimeout q s
  | .calConeWrite f v => Sys2Proof.Machine.execCalConeWrite f v s
  | .standbyRunStep q sums => Sys2Proof.Machine.execStandbyRunStep q sums s
  | .foregroundRunStep q sum => Sys2Proof.Machine.execForegroundRunStep q sum s
  | .pilotRunResult q amp => Sys2Proof.Machine.execPilotRunResult q amp s
  | .chCalReq f q k v => Sys2Proof.Machine.execChCalReq f q k v s
  | .calRetryHoldoffEnd q k => Sys2Proof.Machine.execCalRetryHoldoffEnd q k s
  | .storeIntervalExpiry => Sys2Proof.Machine.execStoreIntervalExpiry s
  | .save f v => Sys2Proof.Machine.execSave f v s
  | .storeWriteDone ok => Sys2Proof.Machine.execStoreWriteDone ok s
  | .chainStart f n v => Sys2Proof.Machine.execChainStart f n v s
  | .chainStop f n v => Sys2Proof.Machine.execChainStop f n v s
  | .chainStopped n => Sys2Proof.Machine.execChainStopped n s
  | .switchGo f n v => Sys2Proof.Machine.execSwitchGo f n v s
  | .chainInputSample n xs => Sys2Proof.Machine.execChainInputSample n xs s
  | .chainPacketClose n => Sys2Proof.Machine.execChainPacketClose n s
  | .sourceLost n => Sys2Proof.Machine.execSourceLost n s
  | .pcanConverged n => Sys2Proof.Machine.execPcanConverged n s
  | .nop n e => Sys2Proof.Machine.execNop n e s
  | .mpy n e => Sys2Proof.Machine.execMpy n e s
  | .mpyn n e => Sys2Proof.Machine.execMpyn n e s
  | .mac n e => Sys2Proof.Machine.execMac n e s
  | .msc n e => Sys2Proof.Machine.execMsc n e s
  | .macr n e => Sys2Proof.Machine.execMacr n e s
  | .mpyi n e => Sys2Proof.Machine.execMpyi n e s
  | .maci n e => Sys2Proof.Machine.execMaci n e s
  | .macsu n e => Sys2Proof.Machine.execMacsu n e s
  | .macuu n e => Sys2Proof.Machine.execMacuu n e s
  | .add n e => Sys2Proof.Machine.execAdd n e s
  | .sub n e => Sys2Proof.Machine.execSub n e s
  | .cmp n e => Sys2Proof.Machine.execCmp n e s
  | .tfr n e => Sys2Proof.Machine.execTfr n e s
  | .neg n e => Sys2Proof.Machine.execNeg n e s
  | .abs n e => Sys2Proof.Machine.execAbs n e s
  | .clr n e => Sys2Proof.Machine.execClr n e s
  | .rnd n e => Sys2Proof.Machine.execRnd n e s
  | .asl n e => Sys2Proof.Machine.execAsl n e s
  | .asr n e => Sys2Proof.Machine.execAsr n e s
  | .shv n e => Sys2Proof.Machine.execShv n e s
  | .cls n e => Sys2Proof.Machine.execCls n e s
  | .divs n e => Sys2Proof.Machine.execDivs n e s
  | .andD n e => Sys2Proof.Machine.execAndD n e s
  | .orD n e => Sys2Proof.Machine.execOrD n e s
  | .xorD n e => Sys2Proof.Machine.execXorD n e s
  | .notD n e => Sys2Proof.Machine.execNotD n e s
  | .lsl n e => Sys2Proof.Machine.execLsl n e s
  | .lsr n e => Sys2Proof.Machine.execLsr n e s
  | .asrd n e => Sys2Proof.Machine.execAsrd n e s
  | .addd n e => Sys2Proof.Machine.execAddd n e s
  | .subd n e => Sys2Proof.Machine.execSubd n e s
  | .move n e => Sys2Proof.Machine.execMove n e s
  | .ldi n e => Sys2Proof.Machine.execLdi n e s
  | .ldx n e => Sys2Proof.Machine.execLdx n e s
  | .ldy n e => Sys2Proof.Machine.execLdy n e s
  | .stx n e => Sys2Proof.Machine.execStx n e s
  | .sty n e => Sys2Proof.Machine.execSty n e s
  | .movepRead n e => Sys2Proof.Machine.execMovepRead n e s
  | .movepWrite n e => Sys2Proof.Machine.execMovepWrite n e s
  | .bcc n e => Sys2Proof.Machine.execBcc n e s
  | .jsr n e => Sys2Proof.Machine.execJsr n e s
  | .jmpcc n e => Sys2Proof.Machine.execJmpcc n e s
  | .halt n e => Sys2Proof.Machine.execHalt n e s
  | .rti n e => Sys2Proof.Machine.execRti n e s
  | .ands n e => Sys2Proof.Machine.execAnds n e s
  | .ors n e => Sys2Proof.Machine.execOrs n e s
  | .doImm n e => Sys2Proof.Machine.execDoImm n e s
  | .dor n e => Sys2Proof.Machine.execDor n e s
  | .enddo n e => Sys2Proof.Machine.execEnddo n e s
  | .rep n e => Sys2Proof.Machine.execRep n e s
  | .repr n e => Sys2Proof.Machine.execRepr n e s
  | .dspTimerExpiry n => Sys2Proof.Machine.execDspTimerExpiry n s
  | .interruptEntry n => Sys2Proof.Machine.execInterruptEntry n s
  | .inputWordArrival n ix w => Sys2Proof.Machine.execInputWordArrival n ix w s
  | .outputPostDone n j => Sys2Proof.Machine.execOutputPostDone n j s
  | .watchdogTimeout n => Sys2Proof.Machine.execWatchdogTimeout n s
  | .spareSelfTest n pass => Sys2Proof.Machine.execSpareSelfTest n pass s
  | .spareLoadDone n => Sys2Proof.Machine.execSpareLoadDone n s
  | .replayRunAbort n => Sys2Proof.Machine.execReplayRunAbort n s
  | .graphSubmit f b => Sys2Proof.Machine.execGraphSubmit f b s
  | .graphChange f b => Sys2Proof.Machine.execGraphChange f b s
  | .graphStop f => Sys2Proof.Machine.execGraphStop f s
  | .mapRead f => Sys2Proof.Machine.execMapRead f s
  | .wheelConfig f => Sys2Proof.Machine.execWheelConfig f s
  | .coreLoadDone n => Sys2Proof.Machine.execCoreLoadDone n s
  | .heatMoveCopyDone n => Sys2Proof.Machine.execHeatMoveCopyDone n s
  | .reroute => Sys2Proof.Machine.execReroute s
  | .restart f g v => Sys2Proof.Machine.execRestart f g v s
  | .restartHoldRelease g net => Sys2Proof.Machine.execRestartHoldRelease g net s
  | .capArm f g v => Sys2Proof.Machine.execCapArm f g v s
  | .capCancel f g v => Sys2Proof.Machine.execCapCancel f g v s
  | .captureEdge g plane => Sys2Proof.Machine.execCaptureEdge g plane s
  | .capDataRead f g => Sys2Proof.Machine.execCapDataRead f g s
  | .fabricInputWord g p w pops => Sys2Proof.Machine.execFabricInputWord g p w pops s
  | .push g p w full => Sys2Proof.Machine.execPush g p w full s
  | .eventLineRise g ix d => Sys2Proof.Machine.execEventLineRise g ix d s
  | .fabricPllUnlock p => Sys2Proof.Machine.execFabricPllUnlock p s
  | .fabricPllRelock p => Sys2Proof.Machine.execFabricPllRelock p s
  | .saggerPowerDown g => Sys2Proof.Machine.execSaggerPowerDown g s
  | .imageHeader => Sys2Proof.Machine.execImageHeader s
  | .saggerPowered => Sys2Proof.Machine.execSaggerPowered s
  | .clearingDone => Sys2Proof.Machine.execClearingDone s
  | .frame => Sys2Proof.Machine.execFrame s
  | .trailer => Sys2Proof.Machine.execTrailer s
  | .tagVerified => Sys2Proof.Machine.execTagVerified s
  | .idleTimeout => Sys2Proof.Machine.execIdleTimeout s
  | .startupStep => Sys2Proof.Machine.execStartupStep s
  | .waitLock => Sys2Proof.Machine.execWaitLock s
  | .lockTimeout => Sys2Proof.Machine.execLockTimeout s
  | .flashGo f v => Sys2Proof.Machine.execFlashGo f v s
  | .cancel f v => Sys2Proof.Machine.execCancel f v s
  | .flashReadError => Sys2Proof.Machine.execFlashReadError s
  | .routerHeader r p => Sys2Proof.Machine.execRouterHeader r p s
  | .linkUnitReceived k ok resent lost => Sys2Proof.Machine.execLinkUnitReceived k ok resent lost s
  | .linkIdleTimeout k lost => Sys2Proof.Machine.execLinkIdleTimeout k lost s
  | .stream p => Sys2Proof.Machine.execStream p s
  | .write p => Sys2Proof.Machine.execWrite p s
  | .writeAck p => Sys2Proof.Machine.execWriteAck p s
  | .read p => Sys2Proof.Machine.execRead p s
  | .cfgFrame p => Sys2Proof.Machine.execCfgFrame p s
  | .ack p => Sys2Proof.Machine.execAck p s
  | .readData p => Sys2Proof.Machine.execReadData p s
  | .credit p => Sys2Proof.Machine.execCredit p s
  | .err p => Sys2Proof.Machine.execErr p s
  | .requestTimeout n => Sys2Proof.Machine.execRequestTimeout n s
  | .niDrainDone n => Sys2Proof.Machine.execNiDrainDone n s
  | .niAwake n => Sys2Proof.Machine.execNiAwake n s
  | .portDrainDone r p => Sys2Proof.Machine.execPortDrainDone r p s
  | .xlEnable f l v => Sys2Proof.Machine.execXlEnable f l v s
  | .xlTrained l => Sys2Proof.Machine.execXlTrained l s
  | .xlControlUnit l pos div sync => Sys2Proof.Machine.execXlControlUnit l pos div sync s
  | .captureTrigger c => Sys2Proof.Machine.execCaptureTrigger c s
  | .freezeGo f c v => Sys2Proof.Machine.execFreezeGo f c v s
  | .segmentMapW0Read f e => Sys2Proof.Machine.execSegmentMapW0Read f e s
  | .bar2Read f a n flaws => Sys2Proof.Machine.execBar2Read f a n flaws s
  | .bar2Write f a b => Sys2Proof.Machine.execBar2Write f a b s
  | .doorbellReadDone f line slots => Sys2Proof.Machine.execDoorbellReadDone f line slots s
  | .wakeGo f v => Sys2Proof.Machine.execWakeGo f v s
  | .nopCommand f => Sys2Proof.Machine.execNopCommand f s
  | .cfgData f b => Sys2Proof.Machine.execCfgData f b s
  | .segFree f => Sys2Proof.Machine.execSegFree f s
  | .segCopy f flaws => Sys2Proof.Machine.execSegCopy f flaws s
  | .fwInstall f b => Sys2Proof.Machine.execFwInstall f b s
  | .slotWrite f b => Sys2Proof.Machine.execSlotWrite f b s
  | .flashWriteDone ok => Sys2Proof.Machine.execFlashWriteDone ok s
  | .dataBuf f j => Sys2Proof.Machine.execDataBuf f j s
  | .dataBufDeadline f j => Sys2Proof.Machine.execDataBufDeadline f j s
  | .descriptorDeadline f => Sys2Proof.Machine.execDescriptorDeadline f s
  | .hostReadFailure f what => Sys2Proof.Machine.execHostReadFailure f what s
  | .ringEnable f g v => Sys2Proof.Machine.execRingEnable f g v s
  | .ringDisable f g v => Sys2Proof.Machine.execRingDisable f g v s
  | .functionLevelReset f => Sys2Proof.Machine.execFunctionLevelReset f s
  | .linkDown => Sys2Proof.Machine.execLinkDown s
  | .d3hotEntry f => Sys2Proof.Machine.execD3hotEntry f s
  | .d0Return f => Sys2Proof.Machine.execD0Return f s
  | .linkRetrain => Sys2Proof.Machine.execLinkRetrain s
  | .eventRecordWrite f => Sys2Proof.Machine.execEventRecordWrite f s
  | .msixUnmask f vec => Sys2Proof.Machine.execMsixUnmask f vec s
  | .holdoffExpiry f vec => Sys2Proof.Machine.execHoldoffExpiry f vec s
  | .faultlogAck f v => Sys2Proof.Machine.execFaultlogAck f v s
  | .chOwnerWrite f ix v => Sys2Proof.Machine.execChOwnerWrite f ix v s
  | .pinOwnerWrite f ix v => Sys2Proof.Machine.execPinOwnerWrite f ix v s
  | .pinFunctionSwitch p => Sys2Proof.Machine.execPinFunctionSwitch p s
  | .dataSet f b v => Sys2Proof.Machine.execDataSet f b v s
  | .dataClr f b v => Sys2Proof.Machine.execDataClr f b v s
  | .gpioBankWrite f a v => Sys2Proof.Machine.execGpioBankWrite f a v s
  | .debounceAccept p l => Sys2Proof.Machine.execDebounceAccept p l s
  | .tmrCtrlWrite f t v => Sys2Proof.Machine.execTmrCtrlWrite f t v s
  | .tmrCompare t => Sys2Proof.Machine.execTmrCompare t s
  | .vccioLow b => Sys2Proof.Machine.execVccioLow b s
  | .vccioOk b => Sys2Proof.Machine.execVccioOk b s
  | .spiTxdata f u v => Sys2Proof.Machine.execSpiTxdata f u v s
  | .spiRxdataRead f u => Sys2Proof.Machine.execSpiRxdataRead f u s
  | .spiDone u rx => Sys2Proof.Machine.execSpiDone u rx s
  | .i2cCmd f u v => Sys2Proof.Machine.execI2cCmd f u v s
  | .i2cDataWrite f u v => Sys2Proof.Machine.execI2cDataWrite f u v s
  | .i2cDataRead f u => Sys2Proof.Machine.execI2cDataRead f u s
  | .i2cDone u rx => Sys2Proof.Machine.execI2cDone u rx s
  | .i2cError u arb => Sys2Proof.Machine.execI2cError u arb s
  | .uartTxdata f u v => Sys2Proof.Machine.execUartTxdata f u v s
  | .uartRxdataRead f u => Sys2Proof.Machine.execUartRxdataRead f u s
  | .uartByteReceived u b frameOk parityOk => Sys2Proof.Machine.execUartByteReceived u b frameOk parityOk s
  | .uartRxIdle u => Sys2Proof.Machine.execUartRxIdle u s
  | .triggerLineEdge t l => Sys2Proof.Machine.execTriggerLineEdge t l s
  | .powerOnReset => Sys2Proof.Machine.execPowerOnReset s
  | .perstN l => Sys2Proof.Machine.execPerstN l s
  | .devReset f v => Sys2Proof.Machine.execDevReset f v s
  | .warmResetStart => Sys2Proof.Machine.execWarmResetStart s
  | .otpReadDone ok => Sys2Proof.Machine.execOtpReadDone ok s
  | .firmwareStarted => Sys2Proof.Machine.execFirmwareStarted s
  | .firmwareStartTimeout => Sys2Proof.Machine.execFirmwareStartTimeout s
  | .refWait => Sys2Proof.Machine.execRefWait s
  | .selfTestsDone slices cores => Sys2Proof.Machine.execSelfTestsDone slices cores s
  | .bisqueLoadStart => Sys2Proof.Machine.execBisqueLoadStart s
  | .bisqueChWrite f q v => Sys2Proof.Machine.execBisqueChWrite f q v s
  | .laneDisagree l => Sys2Proof.Machine.execLaneDisagree l s
  | .laneResyncDone => Sys2Proof.Machine.execLaneResyncDone s
  | .supplyWarn r => Sys2Proof.Machine.execSupplyWarn r s
  | .supplyOk r => Sys2Proof.Machine.execSupplyOk r s
  | .thermClear => Sys2Proof.Machine.execThermClear s
  | .thermalTrip d v => Sys2Proof.Machine.execThermalTrip d v s
  | .registerWrite f a n be v => Sys2Proof.Machine.execRegisterWrite f a n be v s
  | .bar0Read f a n be pads => Sys2Proof.Machine.execBar0Read f a n be pads s
  | .starInEdge l => Sys2Proof.Machine.execStarInEdge l s
  | .ptiEdge k l => Sys2Proof.Machine.execPtiEdge k l s
  | .saggerTriggerOutputEdge g ix l => Sys2Proof.Machine.execSaggerTriggerOutputEdge g ix l s
  | .tmrPulseEnd t => Sys2Proof.Machine.execTmrPulseEnd t s

end Sys2Proof.Machine
end

