-- ==== Sys2Proof/Machine/Step.lean ====
section
/-! DEFINITION. One step: the command at the front of the queue, or, where none waits, the passing of 500 ps up to the last instant
before the next boundary (DESIGN CHOICE, log entry 1). -/

namespace Sys2Proof.Machine

/-- A step on an empty queue: time goes on by one sub-tick period, with the edges of the saggers' clocks and of the pin clock that fall there,
and waits just before a boundary, which only TICK_BOUNDARY or SYNC_RESET carries out. -/
def State.idle (s : State) : State :=
  if s.nextInstant.any (fun a => decide (a ≤ s.time.now + 1)) then s else s.passPeriod

/-- One step. -/
def step (s : State) : Host.Outcome State Fault Refusal :=
  match s.pending with
  | [] => .next s.idle
  | c :: rest => exec c { s with pending := rest }

/-- The state with the command that a word spells put before those that wait; unchanged where it spells none. -/
def State.withFetchWord (s : State) (nbits w : Nat) : State :=
  match decodeTableWord nbits w with
  | some c => { s with pending := c :: s.pending }
  | none => s

end Sys2Proof.Machine
end

