-- ==== Sys2Proof/Safety.lean ====
section
/-! DEFINITION. What the statements call a sound state. -/

namespace Sys2Proof.Machine

open Regs

/-- Capture memory in its canonical form (R399): places rise, and no listed byte is one that an unwritten place reads as. -/
def MemSt.wf (m : MemSt) : Bool := FMap.wf (fun _ => (0 : Byte)) m.data

/-- The register file in its canonical form. -/
def State.regsWf (s : State) : Bool := FMap.wf Regs.reset s.regs

/-- The timestamp's sub-tick count lies within the tick (R35). -/
def State.subWf (s : State) : Bool := s.time.clock == .running || s.time.sub == 0

/-- What a register reads where a list gives some registers new words: the word of its first entry, else what it held. -/
def wordAt (u : State) : List (Nat × Word) → Nat → Word
  | [], o => u.reg o
  | (a, w) :: ws, o => if o = a then w else wordAt u ws o

/-- `t` is `u` but for the record of what hardware has set at the present instant (R12). -/
def Same (u t : State) : Prop := { t with hwAt := u.hwAt, hwSet := u.hwSet } = u

/-- `t` is `u` but for the registers listed, which hold the words listed (R545). -/
def Sets (u : State) (ws : List (Nat × Word)) (t : State) : Prop :=
  (∀ o, t.reg o = wordAt u ws o) ∧ Same u { t with regs := u.regs }

/-- `t` is `u` but for the registers listed, which hold the words listed, and for one event (R458–R463): every function that it
is for and that has its source enabled finds it in its queue, and no other queue changes. -/
def Tells (u : State) (ws : List (Nat × Word)) (src rsn : Nat) (args : List Nat) (whom : Nat) (t : State) : Prop :=
  (∀ o, t.reg o = wordAt u ws o) ∧ Same u { t with regs := u.regs, events := u.events }
    ∧ ∀ f, t.queueOf f =
        if (t.recipients src rsn (args.getD 0 0) whom).contains f && t.enabled f src
        then insertEvent (t.eventOf src rsn args whom none) (u.queueOf f) else u.queueOf f

/-- R69: the rules that the wires of a quad keep: a wire has at most four loads, and a load terminal is on one wire at most. -/
def WiresOk (ws : List Wire) : Prop :=
  (∀ i, loadCount (ws.getD i (0, 0)) ≤ 4) ∧
  (∀ i j b, bitOf (wireLoads (ws.getD i (0, 0))) b = 1 → bitOf (wireLoads (ws.getD j (0, 0))) b = 1 → i = j)

/-! ### DSP cores -/

/-- Core `n` is about to execute the word `w` of opcode `opc`, which is no reserved encoding where it stands (R235, R253). -/
def DspReady (s : State) (n opc : Nat) (w : IWord) : Prop :=
  s.executing n = true ∧ (s.core n).fetch (s.core n).pc = w ∧ opcOf w = opc ∧ reserved w (s.core n).pc = false
    ∧ (s.core n).badPlace w = false

/-- What an instruction of `k` cycles leaves as it was: every other core, every register but the RUN code of core `n`, all else
outside the cores, and of core `n` all but its registers, its memories, its place in the program and its cycle counters. -/
def DspQuiet (s t : State) (n k : Nat) : Prop :=
  (∀ m, m ≠ n → t.core m = s.core m) ∧ (∀ o, o ≠ dspState n → t.reg o = s.reg o)
    ∧ { t with regs := s.regs, cores := s.cores } = s ∧ (t.core n).cycles = (s.core n).cycles + k
    ∧ (let c := s.core n
       let d := t.core n
       d.task = c.task ∧ d.shadow = c.shadow ∧ d.prog = c.prog ∧ d.ret = c.ret ∧ d.inIsr = c.inIsr ∧ d.running = c.running
         ∧ d.ended = c.ended ∧ d.runTick = c.runTick ∧ d.replay = c.replay ∧ d.irqStat = c.irqStat ∧ d.irqEn = c.irqEn
         ∧ d.src = c.src ∧ d.fsrc = c.fsrc ∧ d.out = c.out ∧ d.work = c.work ∧ d.rx = c.rx ∧ d.pend = c.pend)

/-- Outside a loop the core goes on with the next word; steps, moduli and loop registers stay (R252). -/
def DspNext (s t : State) (n : Nat) : Prop :=
  let c := s.core n
  let d := t.core n
  d.s = c.s ∧ d.m = c.m ∧ (c.stack = [] → d.pc = (c.pc + 1) % 0x4000 ∧ d.lc = c.lc ∧ d.la = c.la ∧ d.ls = c.ls ∧ d.stack = [])

/-- Core `d` is core `b` in every data register, accumulator, pointer, SRG bit and memory word, but for those listed. -/
def DspSame (b d : Core) (ds accs bits : List Nat) : Prop :=
  (∀ i, i ∉ ds → vget d.bank.d i = vget b.bank.d i) ∧ (∀ i, i ∉ accs → vget d.bank.acc i = vget b.bank.acc i)
    ∧ (∀ i, vget d.bank.p i = vget b.bank.p i) ∧ (∀ k, k ∉ bits → d.srgBit k = b.srgBit k) ∧ d.x = b.x ∧ d.y = b.y

/-- An exact result `v` put into accumulator `i` of `d`, with V, W, N and Z (R203, R242); `b` is the core without it. -/
def AccHolds (b d : Core) (i : Nat) (v : Int) : Prop :=
  (-(2 ^ 55) ≤ v ∧ v < 2 ^ 55 → d.accn i = v ∧ d.srgBit 7 = b.srgBit 7)
    ∧ (v < -(2 ^ 55) ∨ 2 ^ 55 ≤ v → d.srgBit 7 = true ∧
        (b.om = true → d.accn i = if v < 0 then -(2 ^ 55) else 2 ^ 55 - 1) ∧ (b.om = false → (d.accn i - v) % 2 ^ 56 = 0))
    ∧ d.srgBit 4 = decide (d.accn i < 0) ∧ d.srgBit 3 = decide (d.accn i = 0)
    ∧ d.srgBit 5 = decide (d.accn i < -(2 ^ 47) ∨ 2 ^ 47 ≤ d.accn i)

/-- A move has put the 24-bit value `v` into the register of code `r` of `d` (R236, R237); `b` is the core without it. -/
def RegHolds (b d : Core) (r v : Nat) : Prop :=
  (∀ i, i < 8 → vget d.bank.d i = if r = i then BitVec.ofNat 24 v else vget b.bank.d i) ∧
  (∀ i, i < 4 → d.accu i =
    if r = 8 + i then ux 56 (sx 24 v * 2 ^ 24)
    else if r = 44 + i then b.accu i % 2 ^ 48 + v % 2 ^ 8 * 2 ^ 48
    else if r = 48 + i then b.accu i / 2 ^ 48 * 2 ^ 48 + v % 2 ^ 24 * 2 ^ 24 + b.accu i % 2 ^ 24
    else if r = 52 + i then b.accu i / 2 ^ 24 * 2 ^ 24 + v % 2 ^ 24 else b.accu i) ∧
  (∀ j, j < 8 → r < 32 ∨ 40 ≤ r → d.pn j = if r = 16 + j then v % 2 ^ 15 else b.pn j) ∧
  (∀ j, j < 8 → vget d.s j = if r = 24 + j then BitVec.ofNat 16 v else vget b.s j) ∧
  (∀ j, j < 8 → vget d.m j = if r = 32 + j then BitVec.ofNat 24 v else vget b.m j) ∧
  (b.stack = [] → d.lc = (if r = 40 then v % 2 ^ 16 else b.lc) ∧ d.la = (if r = 41 then v % 2 ^ 14 else b.la)) ∧
  (∀ k, k ≠ 6 → d.srgBit k = if r = 42 ∧ k ∈ [7, 16, 17, 18, 19] then v.testBit k else b.srgBit k) ∧
  (r = 42 → d.srgBit 6 = v.testBit 6) ∧ d.x = b.x ∧ d.y = b.y

/-- Every function that an event is for, and that has its source enabled, has it in its queue (R461, R463). -/
def Heard (t : State) (src rsn a0 whom : Nat) : Prop :=
  ∀ f, (t.recipients src rsn a0 whom).contains f = true → t.enabled f src = true →
    ∃ e ∈ t.queueOf f, e.source = src ∧ e.reason = rsn ∧ e.arg0 = a0 ∧ e.tick = t.time.tick ∧ e.sub = t.time.sub

/-- The instruction commands of a core with their opcodes (R235). -/
def dspCommands : List ((Nat → Ecc → Instr) × Nat) :=
  [(.nop, 0x00), (.mpy, 0x01), (.mpyn, 0x02), (.mac, 0x03), (.msc, 0x04), (.macr, 0x05), (.mpyi, 0x06), (.maci, 0x07),
   (.macsu, 0x08), (.macuu, 0x09), (.add, 0x0A), (.sub, 0x0B), (.cmp, 0x0C), (.tfr, 0x0D), (.neg, 0x0E), (.abs, 0x0F),
   (.clr, 0x10), (.rnd, 0x11), (.asl, 0x12), (.asr, 0x13), (.shv, 0x14), (.cls, 0x15), (.divs, 0x16)] ++
  [(.andD, 0x18), (.orD, 0x19), (.xorD, 0x1A), (.notD, 0x1B), (.lsl, 0x1C), (.lsr, 0x1D), (.asrd, 0x1E), (.addd, 0x1F),
   (.subd, 0x20), (.move, 0x21), (.ldi, 0x40), (.ldx, 0x41), (.ldy, 0x42), (.stx, 0x43), (.sty, 0x44), (.movepRead, 0x48),
   (.movepWrite, 0x49), (.bcc, 0x50), (.jsr, 0x51), (.jmpcc, 0x52), (.halt, 0x53), (.rti, 0x54), (.ands, 0x55), (.ors, 0x56),
   (.doImm, 0x58), (.dor, 0x59), (.enddo, 0x5A), (.rep, 0x5B), (.repr, 0x5C)]

/-! ### Host commands -/

/-- Function `f` reaches host memory (R427, R429) and has a descriptor `d` of a code as its next command of that kind, which passes the common
rules (R433, R436–R438, R525). -/
def CommandReady (s : State) (f code : Nat) (d : HostDesc) : Prop :=
  f < 8 ∧ (s.fn f).silent = false ∧ s.nextDesc f code = some d ∧ (s.romAlone = true → romAccepts code = true) ∧ d.judge f = 0

/-- The descriptor `d` of function `f` has left those that wait, its completion has been written (R435), and where it fails or asks
for it the event has been raised (R437, R451). -/
def Completed (s t : State) (f : Nat) (d : HostDesc) (status result detail xfer tick : Nat) : Prop :=
  (t.fn f).cmds = (s.fn f).cmds.erase d
    ∧ Out.hostWrite f (d.addr + 0x30) (completion status result detail xfer tick) ∈ t.out
    ∧ (status ≠ 0 → Heard t (832 + 2 * f) 2 d.tag (f + 1))
    ∧ (status = 0 → d.ie = true → d.ring = 0 → Heard t (832 + 2 * f) 1 d.tag (f + 1))
    ∧ (d.ie = true → d.ring ≠ 0 → Heard t (833 + 2 * f) 1 (d.ring - 1) (f + 1))

end Sys2Proof.Machine
end

