-- ==== Sys2Proof/Certificates/Slice0/Obligations.lean ====
section
/-! DEFINITION. The statements for the provers. -/

open Sys2Proof Sys2Proof.Machine Sys2Proof.Machine.Regs

/-! ### Time (R31–R52) -/

/-- R31, R48–R50: lock, loss and return of the clock reference, and the end of relock. R51: a quad's PLL loses lock and locks again,
which its bit of QPLL_LOCK and QUADS_LOCKED follow. -/
def Obligations.ClockReference : Prop := (∀ s : State,
  (s.time.clock = .held → s.boot.held = false →
    ∃ t, exec .systemPllLock s = .next t ∧
      Sets { s with time := { s.time with clock := .locked (s.time.now + 80) } }
        [(timeStatus, timeStatus_REF_PRESENT.put (timeStatus_QUADS_LOCKED.put (timeStatus_SYS_LOCK.put (s.reg timeStatus) 1) 1) 1),
         (qpllLock, qpllLock_LOCK.put (s.reg qpllLock) (2 ^ s.part.quads - 1))] t) ∧
  (s.bit timeStatus timeStatus_REF_PRESENT = true → s.time.clock ≠ .held →
    ∃ t, exec .clkrefLost s = .next t ∧
      Tells s
        [(timeStatus, timeStatus_ALIGNED.put (timeStatus_SYS_LOCK.put (timeStatus_RELOCKING.put (timeStatus_HOLDOVER.put
            (timeStatus_REF_PRESENT.put (s.reg timeStatus) 0) 1) 0) 0) 0),
         (holdTickLo, BitVec.ofNat 32 s.time.tick), (holdTickHi, BitVec.ofNat 32 (s.time.tick / 2 ^ 32))] 856 5 [] 15 t) ∧
  (∀ ppm : Int, ∃ t, exec (.clkrefQualified ppm) s = .next t ∧
      Sets s [(timeStatus, timeStatus_REF_PRESENT.put (s.reg timeStatus) 1), (clkrefPpm, BitVec.ofInt 32 ppm)] t) ∧
  (s.bit timeStatus timeStatus_RELOCKING = true →
    ∃ t, exec .relockComplete s = .next t ∧
      Tells s [(timeStatus, timeStatus_SYS_LOCK.put (timeStatus_HOLDOVER.put (timeStatus_RELOCKING.put (s.reg timeStatus) 0) 0) 1)]
        856 6 [] 15 t)) ∧
  (∀ (s : State) (q : Nat), q < s.part.quads →
    let all (w : Word) : Nat := flag (w.toNat == 2 ^ s.part.quads - 1)
    (bitOf (s.reg qpllLock).toNat q = 1 →
      ∃ t, exec (.quadPllUnlock q) s = .next t ∧
        Tells (s.upset q) [(qpllLock, Fld.put ⟨q, q⟩ (s.reg qpllLock) 0), (timeStatus, timeStatus_QUADS_LOCKED.put (s.reg timeStatus) 0)]
          (728 + q) 0xD [] 15 t) ∧
    (bitOf (s.reg qpllLock).toNat q = 0 → s.time.clock ≠ .held →
      ∃ t, exec (.quadPllRelock q) s = .next t ∧
        Sets { s with time := { s.time with realign := s.time.realign ++ [q] } }
          [(qpllLock, Fld.put ⟨q, q⟩ (s.reg qpllLock) 1),
           (timeStatus, timeStatus_QUADS_LOCKED.put (s.reg timeStatus) (all (Fld.put ⟨q, q⟩ (s.reg qpllLock) 1)))] t))

/-- R32, R34, R43, R49: writes of F0 to TICK_CTRL, SYNC_CTRL and REF_CTRL. An accepted word reads at once; the tick length in
force stays until a boundary. R36: a read of TICK_LO completes with the tick's lower half and latches its upper half and the
sub-tick count for the function that reads, and for no other. -/
def Obligations.TickSettings : Prop := (∀ (s : State) (v : Word), s.open_ = true →
  (s.badTickDiv (tickCtrl_TICK_DIV.get v) = false →
    ∃ t, exec (.tickDivWrite 0 v) s = .next t ∧ t.fld tickCtrl tickCtrl_TICK_DIV = tickCtrl_TICK_DIV.get v
      ∧ t.tickDiv = s.tickDiv ∧ Sets { s with rwtOld := t.rwtOld } [(tickCtrl, tickCtrlDesc.write (s.reg tickCtrl) v)] t) ∧
  (s.badTickDiv (tickCtrl_TICK_DIV.get v) = true →
    ∃ t, exec (.tickDivWrite 0 v) s = .next t ∧
      Tells s [(timeStatus, timeStatus_DIV_REFUSED.put (s.reg timeStatus) 1)] 856 1 [tickCtrl_TICK_DIV.get v] 15 t) ∧
  (syncCtrl_MODE.get v ≤ 2 → (syncCtrl_MODE.get v = 2 → s.graphs = []) →
    ∃ t, exec (.syncCtrlWrite 0 v) s = .next t ∧ t.fld syncCtrl syncCtrl_MODE = syncCtrl_MODE.get v
      ∧ t.fld syncCtrl syncCtrl_DELAY = syncCtrl_DELAY.get v ∧ Sets s [(syncCtrl, t.reg syncCtrl)] t) ∧
  (syncCtrl_MODE.get v = 3 ∨ syncCtrl_MODE.get v = 2 ∧ s.graphs ≠ [] →
    ∃ t, exec (.syncCtrlWrite 0 v) s = .next t ∧
      Tells s [(timeStatus, timeStatus_ARM_REFUSED.put (s.reg timeStatus) 1)] 856 3 [] 15 t) ∧
  (refCtrl_RELOCK_GO.get v = 1 → refCtrl_RELOCK.get v = 1 → s.bit timeStatus timeStatus_HOLDOVER = true →
    s.bit timeStatus timeStatus_REF_PRESENT = true →
    ∃ t, exec (.relockGo 0 v) s = .next t ∧ t.fld refCtrl refCtrl_RELOCK = 1 ∧
      Sets { s with time := { s.time with relockGo := true } } [(refCtrl, t.reg refCtrl)] t)) ∧
  (∀ (s : State) (f : Nat), s.open_ = true →
    ∃ t, exec (.tickLoRead f) s = .next t ∧ t.out = .readData f (BitVec.ofNat 32 s.time.tick) :: s.out
      ∧ (∀ g, FMap.get (fun _ => 0) t.time.latHi g =
          if g = f then BitVec.ofNat 32 (s.time.tick / 2 ^ 32) else FMap.get (fun _ => 0) s.time.latHi g)
      ∧ (∀ g, FMap.get (fun _ => 0) t.time.latSub g =
          if g = f then BitVec.ofNat 32 s.time.sub else FMap.get (fun _ => 0) s.time.latSub g)
      ∧ { t with out := s.out, time := { t.time with latHi := s.time.latHi, latSub := s.time.latSub } } = s)

/-- R42, R44, R46: a sync edge is ignored, compared 4 + DELAY CLKREF periods after the next CLKREF edge, the earlier of two such instants
first, or commits the load of SYNC_LOAD; and the comparison writes the signed distance to the nearest boundary, regular or forced, which is
kept with the instant where a boundary has come between. -/
def Obligations.SyncEdges : Prop := ∀ s : State,
  let due := s.time.now + (20 - s.time.sub % 20) % 20 + 20 * (4 + s.fld syncCtrl syncCtrl_DELAY)
  (s.fld syncCtrl syncCtrl_MODE = 0 → exec .syncEdge s = .next s) ∧
  (s.fld syncCtrl syncCtrl_MODE = 1 →
    let earlier (x : Nat × Option Int) : Bool := decide (x.1 ≤ due)
    exec .syncEdge s = .next { s with time := { s.time with
      checks := s.time.checks.takeWhile earlier ++ (due, none) :: s.time.checks.dropWhile earlier } }) ∧
  (s.fld syncCtrl syncCtrl_MODE = 2 →
    ∃ t, exec .syncEdge s = .next t ∧
      Sets { s with time := { s.time with syncs := s.time.syncs ++ [⟨due, s.pair syncLoadLo syncLoadHi⟩] } }
        [(syncCtrl, syncCtrl_MODE.put (s.reg syncCtrl) 1)] t) ∧
  (∀ t0 o rest a b, s.time.checks = (t0, o) :: rest → t0 ≤ s.time.now → s.nextInstant = some b →
    (o = some a ∨
      o = none ∧ s.time.clock = .running ∧ s.tickStart ≤ t0 ∧ t0 ≤ b ∧ (t0 - s.tickStart) % 20 = 0 ∧ (b - t0) % 20 = 0 ∧
      a = (if (t0 - s.tickStart) / 20 ≤ (b - t0) / 20 then (((t0 - s.tickStart) / 20 : Nat) : Int) else -(((b - t0) / 20 : Nat) : Int))) →
    (a = 0 → ∃ t, exec .syncOffsetCheck s = .next t ∧
      Sets { s with time := { s.time with checks := rest } } [(syncOffset, 0)] t) ∧
    (a ≠ 0 → ∃ t, exec .syncOffsetCheck s = .next t ∧
      Tells { s with time := { s.time with checks := rest } }
        [(syncOffset, BitVec.ofInt 32 a),
         (timeStatus, timeStatus_ALIGNED.put (timeStatus_SYNC_ERR.put (s.reg timeStatus) 1) 0)] 856 4 [ux 32 a] 15 t))

/-- R31, R37, R44: at a regular boundary the tick counter advances by one, or starts at 0, and at a forced one it takes SYNC_LOAD;
the sub-tick count is 0 there. -/
def Obligations.Boundaries : Prop := ∀ s : State,
  (s.syncFirst = none → s.time.clock = .running →
    ∃ t, exec .tickBoundary s = .next t ∧ t.time.tick = s.time.tick + 1 ∧ t.time.sub = 0
      ∧ t.time.now = s.tickStart + s.tickLength ∧ t.time.clock = .running) ∧
  (∀ a, s.time.clock = .locked a →
    ∃ t, exec .tickBoundary s = .next t ∧ t.time.tick = 0 ∧ t.time.sub = 0 ∧ t.time.now = max a s.time.now
      ∧ t.time.clock = .running) ∧
  (∀ y, s.syncFirst = some y →
    (∃ t, exec .syncReset s = .next t ∧ t.time.tick = y.load ∧ t.time.sub = 0 ∧ t.time.now = max y.due s.time.now
      ∧ t.time.origin = t.time.now) ∧ exec .tickBoundary s = exec .syncReset s) ∧
  (s.time.clock = .held → exec .tickBoundary s = .next s)

/-! ### Analogue inputs, blocks and the switch matrix (R53–R88) -/

/-- R60, R63–R67: overload, comparators and clipping; samples carry C from a trip to 8 ns after the release, CMP_OUT reads a change of the
output two pin clocks late, a trip raises an event where OVLD_IE as it is in force asks for it, and a rise triggers the
capture streams that select it (R411). R57, R63: the end of a settling
window, and an integrator reset by its owner. -/
def Obligations.AnalogueEvents : Prop := (∀ (s : State) (q : Nat), q < s.part.quads →
  (∀ k, k < 4 →
    (∀ w, w = chStatus_OVLD.put (chStatus_OVLD_NOW.put (s.reg (chStatus q k)) 1) 1 →
      ∃ t, exec (.overloadTrip q k) s = .next t ∧
        (∀ j, j ≠ 4 * q + k → t.overSpans j = s.overSpans j) ∧
        ((∀ x ∈ s.overSpans (4 * q + k), x.1 ≤ s.time.now) → ∀ at_, s.time.now ≤ at_ → t.overloadAt q k at_ = true) ∧
        (s.ovldIe q k = true →
          Tells { s with ana := { s.ana with ovldSpans := t.ana.ovldSpans } } [(chStatus q k, w)] (448 + 2 * (4 * q + k)) 1 [] 15 t) ∧
        (s.ovldIe q k = false → Sets { s with ana := { s.ana with ovldSpans := t.ana.ovldSpans } } [(chStatus q k, w)] t)) ∧
    (s.fld (chStatus q k) chStatus_OVLD_NOW = 1 → ∃ t, exec (.overloadRelease q k) s = .next t ∧
      (∀ j, j ≠ 4 * q + k → t.overSpans j = s.overSpans j) ∧
      (∀ at_, at_ < s.time.now + 16 → t.overloadAt q k at_ = s.overloadAt q k at_) ∧
      ((∀ x ∈ s.overSpans (4 * q + k), ∀ e, x.2 = some e → e ≤ s.time.now + 16) → ∀ at_, s.time.now + 16 ≤ at_ →
        t.overloadAt q k at_ = false) ∧
      Sets { s with ana := { s.ana with ovldSpans := t.ana.ovldSpans } } [(chStatus q k, chStatus_OVLD_NOW.put (s.reg (chStatus q k)) 0)] t)) ∧
  (∀ b, b < 8 →
    (1 ≤ s.cur (cabFunc q b) cabFunc_FUNC → s.cur (cabFunc q b) cabFunc_FUNC ≤ 4 →
      ∃ t, exec (.cabClip q b) s = .next t ∧ Sets s [(cabStatus q b, cabStatus_CLIP.put (s.reg (cabStatus q b)) 1)] t) ∧
    (∃ t, exec (.cabComparatorFall q b) s = .next t ∧
      Sets { s with ana := { s.ana with cmp := t.ana.cmp } } [(cabStatus q b, cabStatus_CMP_OUT.put (s.reg (cabStatus q b)) 0)] t) ∧
    (s.compares q b = true → s.cabSettling q b = false → s.bit (cabStatus q b) cabStatus_CMP_OUT = false →
      ∃ t, exec (.cabComparatorRise q b) s = .next (s.riseTriggers t (8 * q + b)) ∧
        (∀ n, ({ t with time := { t.time with now := s.time.now + n } } : State).cmpRead q b =
          if n < 20 then ({ s with time := { s.time with now := s.time.now + n } } : State).cmpRead q b else true) ∧
        (∀ j, FMap.get (fun _ => 0) t.ana.intHold j =
          if j = 8 * q + b ∧ s.integrator q b 2 = true then s.time.now + 40 else FMap.get (fun _ => 0) s.ana.intHold j) ∧
        (s.bit (cabCmp q b) cabCmp_CMP_IE = true →
          Tells { s with ana := { s.ana with intHold := t.ana.intHold, cmp := t.ana.cmp } }
            [(cabStatus q b, cabStatus_CMP_OUT.put (s.reg (cabStatus q b)) 1)] (728 + q) 1 [b] 15 t) ∧
        (s.bit (cabCmp q b) cabCmp_CMP_IE = false →
          Sets { s with ana := { s.ana with intHold := t.ana.intHold, cmp := t.ana.cmp } }
            [(cabStatus q b, cabStatus_CMP_OUT.put (s.reg (cabStatus q b)) 1)] t)))) ∧
  (∀ (s : State) (q : Nat), q < s.part.quads →
    (∀ k e, k < 12 → FMap.get (fun _ => none) s.ana.win (12 * q + k) = some e → e ≤ s.time.now →
      ∃ t, exec (.settlingWindowEnd q k) s = .next t ∧
        (∀ j, FMap.get (fun _ => none) t.ana.win j = if j = 12 * q + k then none else FMap.get (fun _ => none) s.ana.win j) ∧
        { t with ana := { t.ana with win := s.ana.win } } = s) ∧
    (∀ f b v, b < 8 → s.open_ = true → s.mayCab f q b = true → cabFunc_RST_GO.get v = 1 →
      cabRefusal v (s.reg (cabRes q b)) (s.reg (cabCap q b)) none = 0 → s.integrator q b 3 = true →
      ∃ t, exec (.rstGo f q b v) s = .next t ∧
        (∀ j, FMap.get (fun _ => 0) t.ana.intHold j =
          if j = 8 * q + b then s.time.now + 40 else FMap.get (fun _ => 0) s.ana.intHold j) ∧
        Sets { s with ana := { s.ana with intHold := t.ana.intHold }, rwtOld := t.rwtOld }
          [(cabFunc q b, cabFuncDesc.write (s.reg (cabFunc q b)) v)] t ∧
        t.oldReg (cabFunc q b) = s.oldReg (cabFunc q b)))

/-- R72, R84: a matrix command of a function that may write its wire and terminal is queued where it passes its checks, and is
recorded in MX_STATUS and raised where it does not. R69, R74: a command that its checks let pass keeps the rules of the wires. -/
def Obligations.MatrixCommands : Prop := (∀ (s : State) (f q : Nat) (v : Word) (op : Nat), q < s.part.quads → s.open_ = true → op < 3 →
  let cmd : Instr := if op = 0 then .connect f q v else if op = 1 then .disconnect f q v else .clearWire f q v
  let c : MxCmd := ⟨op, mxCmd_WIRE.get v, mxCmd_TERM.get v⟩
  s.userMay f (fun g => g.usesWire q c.wire) = true → (op = 2 ∨ s.mayTerm f q c.term = true) →
  (s.mxError q c = 0 → ∃ t, exec cmd s = .next t ∧
    (∀ p, t.mxQueue p = if p = q then s.mxQueue q ++ [c] else s.mxQueue p) ∧
    { t with ana := { t.ana with queue := s.ana.queue } } = s) ∧
  (s.mxError q c ≠ 0 → ∃ t w, exec cmd s = .next t ∧
    w = mxStatus_ERR_TERM.put (mxStatus_ERR_WIRE.put (mxStatus_ERR.put (mxStatus_REFUSED.put (s.reg (mxStatus q)) 1)
      (s.mxError q c)) c.wire) c.term ∧
    Tells s [(mxStatus q, w)] (728 + q) 2 [(mxStatus_PENDING.put w (s.mxQueue q).length).toNat] (f + 1) t)) ∧
  (∀ (ws : List Wire) (c : MxCmd), ws.length = 32 → c.wire < 32 → c.op < 3 →
    (c.op ≠ 2 → termReserved c.term = false ∧ c.term < 64) → WiresOk ws → connectError ws c = 0 → WiresOk (wiresDo ws [c]))

/-- R79, R80, R82, R83: a DAC in STREAM mode takes a sample, which goes out when the one before it has been held for its time, or
runs dry; the reference buffer is switched and becomes READY, and CALREF is zero until it is. -/
def Obligations.DacAndReference : Prop := ∀ (s : State) (q : Nat), q < s.part.quads →
  (s.boot.trip = false → s.cur (dacCtrl q) dacCtrl_SRC = 3 →
    let queue := FMap.get (fun _ => []) s.ana.dacQueue q
    let hold := 4 * 2 ^ s.cur (dacCtrl q) dacCtrl_STREAM_RATE
    (∀ x, ∃ t a, exec (.dacStreamSample q x) s = .next t ∧ a = (queue.getLast?.map (fun y => max s.time.now (y.1 + hold))).getD s.time.now
      ∧ (FMap.get (fun _ => []) t.ana.dacQueue q).getLast? = some (a, x % 2 ^ 16)
      ∧ t.dacHeld q = (if a ≤ s.time.now then x % 2 ^ 16 else s.dacHeld q)
      ∧ (∀ j, j ≠ q → FMap.get (fun _ => []) t.ana.dacQueue j = FMap.get (fun _ => []) s.ana.dacQueue j)
      ∧ { t with ana := { t.ana with dacQueue := s.ana.dacQueue } } = s) ∧
    ((∀ y ∈ queue, y.1 + hold ≤ s.time.now) → ∃ t, exec (.dacUnderrun q) s = .next t ∧
      Tells s [(dacStatus q, dacStatus_UNDERRUN.put (s.reg (dacStatus q)) 1)] (728 + q) 4 [] 15 t)) ∧
  (s.bit (refbufStatus q) refbufStatus_READY = false → (s.calrefVolt q).1 = 0) ∧
  (∀ f v, s.open_ = true → (f = 0 ∨ f ∈ s.quadFunctions q) →
    (refbufCtrl_EN.get v = 1 → s.bit (refbufCtrl q) refbufCtrl_EN = false → ∃ t, exec (.refbufEnable f q v) s = .next t ∧
      FMap.get (fun _ => 0) t.ana.refOn q = s.time.now ∧
      Sets { s with ana := { s.ana with refOn := t.ana.refOn } }
        [(refbufCtrl q, refbufCtrl_EN.put (s.reg (refbufCtrl q)) 1),
         (refbufStatus q, refbufStatus_READY.put (refbufStatus_ON.put (s.reg (refbufStatus q)) 1) 0)] t) ∧
    (refbufCtrl_EN.get v = 0 → s.bit (refbufCtrl q) refbufCtrl_EN = true →
      ((s.anyActive q || s.quadUsed q) = true → ∃ t, exec (.refbufEnable f q v) s = .next t ∧
        Sets s [(refbufStatus q, refbufStatus_DIS_REFUSED.put (s.reg (refbufStatus q)) 1)] t) ∧
      ((s.anyActive q || s.quadUsed q) = false → ∃ t, exec (.refbufEnable f q v) s = .next t ∧
        Sets (s.upset q) [(refbufCtrl q, refbufCtrl_EN.put (s.reg (refbufCtrl q)) 0),
          (refbufStatus q, refbufStatus_READY.put (refbufStatus_ON.put (s.reg (refbufStatus q)) 0) 0)] t))) ∧
  (s.bit (refbufCtrl q) refbufCtrl_EN = true → FMap.get (fun _ => 0) s.ana.refOn q + 20 * 20000 ≤ s.time.now →
    ∃ t, exec (.refbufReady q) s = .next t ∧ Sets s [(refbufStatus q, refbufStatus_READY.put (s.reg (refbufStatus q)) 1)] t)
/-! ### Converter slices, injected conversions and calibration (R89–R158) -/

/-- R96, R97, R113, R114: 400 ns after a slice left RESERVE its start-up ends, and it serves what it was woken for: samples of an
added position from then on carry no S for it. -/
def Obligations.SliceStartUp : Prop := ∀ (s : State) (q i : Nat) (w : Wake), q < s.part.quads → i < 36 → s.wakeOf q i = some w →
  s.boot.trip = false → w.until_ ≤ s.time.now →
  ∃ t, exec (.sliceStartupEnd q i) s = .next t ∧ t.wakeOf q i = none ∧
    (∀ p j, p < 16 → j < 36 → (p, j) ≠ (q, i) → t.wakeOf p j = s.wakeOf p j) ∧
    t.reg (slice q i) = (match w.why with
      | .graph => s.reg (slice q i)
      | .standby => slice_STATE.put (s.reg (slice q i)) 3
      | .added => slice_STATE.put (s.reg (slice q i)) 2
      | .replacing => slice_STATE.put (s.reg (slice q i)) 2) ∧
    (∀ p, FMap.get (fun _ => 0) t.pool.injFree p =
      if p = q ∧ w.why = .standby then w.until_ else FMap.get (fun _ => 0) s.pool.injFree p) ∧
    (∀ p, FMap.get (fun _ => 0) t.pool.woke p =
      if p = 36 * q + i ∧ w.why = .added then w.until_ else FMap.get (fun _ => 0) s.pool.woke p) ∧
    (w.why = .added → ∀ at_ : Int, t.wakingAt q i at_ = decide (at_ < (w.until_ : Int))) ∧
    Sets { s with pool := { s.pool with wake := t.pool.wake, woke := t.pool.woke, injFree := t.pool.injFree } }
      [(slice q i, t.reg (slice q i)), (poolStatus q,
        if w.why = .standby then poolStatus_ROT_STOPPED.put (s.reg (poolStatus q)) 0 else s.reg (poolStatus q))] t

/-- R110, R111: 4,096 conversions of 8 ns after a block began it ends, and the next begins. A block that passes clears the slice's count
of failures, a failing one advances it, and the third in a row retires the slice, whose position is filled 128 ns later; a block in which a
sample carries S or C, or that was cut into by a start-up, is not judged and leaves the slice as it was. The figures of other slices count
where these served the channel through the whole block, and not on a channel of one slice. -/
def Obligations.SliceBlocks : Prop := ∀ (s : State) (q i b : Nat) (cold : Bool) (st : BlockStats), q < s.part.quads → i < 36 →
  s.boot.trip = false → s.fld (slice q i) slice_STATE = 2 → FMap.get (fun _ => none) s.pool.block (36 * q + i) = some (b, cold) →
  b + 8 * 2 * 4096 ≤ s.time.now →
  ∃ t, exec (.sliceBlockEnd q i st) s = .next t ∧
  (∀ j, FMap.get (fun _ => none) t.pool.block j = if j = 36 * q + i then some (b + 65536, false) else FMap.get (fun _ => none) s.pool.block j) ∧
  let u := { s with pool := { s.pool with block := t.pool.block } }
  let k := s.fld (slice q i) slice_CHAN
  let cause := blockCause st (if s.chanCount q k < 2 then [] else (st.others.filter (fun o => s.countsFor q i b o.1)).map (·.2))
  (cold = true ∨ st.limited = true ∨ s.blockMarked q k b = true → Sets u [] t) ∧
  (cold = false → st.limited = false → s.blockMarked q k b = false →
    (cause = 0 → Sets u [(slice q i, slice_FAILS.put (s.reg (slice q i)) 0)] t) ∧
    (cause ≠ 0 → s.fld (slice q i) slice_FAILS < 2 →
      Sets u [(slice q i, slice_FAILS.put (s.reg (slice q i)) (s.fld (slice q i) slice_FAILS + 1))] t) ∧
    (cause ≠ 0 → 2 ≤ s.fld (slice q i) slice_FAILS →
      t.fld (slice q i) slice_STATE = 4 ∧ t.fld (slice q i) slice_CAUSE = cause % 16 ∧
      (∀ at_ : Int, (s.time.now : Int) ≤ at_ → t.filledAt q k (s.fld (slice q i) slice_POS) at_ = decide ((s.time.now + 256 : Nat) ≤ at_)) ∧
      (∀ (p c j : Nat) (at_ : Int), (s.time.now : Int) - 0x20000 ≤ at_ →
        (at_ < s.time.now ∨ (p, c, j) ≠ (q, k, s.fld (slice q i) slice_POS)) → t.filledAt p c j at_ = s.filledAt p c j at_) ∧
      t.pool.retired = s.pool.retired ++
        [⟨q, i, s.fld (slice q i) slice_CHAN, s.fld (slice q i) slice_POS, cause, s.time.tick, false⟩] ∧
      Sets { s with pool := { s.pool with block := t.pool.block, retired := t.pool.retired, filled := t.pool.filled } }
        [(slice q i, slice_CAUSE.put (slice_STATE.put (s.reg (slice q i)) 4) cause),
         (poolStatus q, poolStatus_RETIRE.put (s.reg (poolStatus q)) 1)] t))

/-- R119–R123: a request for an injected conversion is queued or refused with its code, and completes with its value, or after two
boundaries without one; where it ends in the very cycle of the second, its value is taken (R39). -/
def Obligations.InjectedConversions : Prop := ∀ (s : State) (q : Nat), q < s.part.quads →
  (∀ f v, s.open_ = true → s.mayInj f q (injReq_MON.get v) = true →
    (s.injError q (injReq_MON.get v) = 0 → ∃ t, exec (.injReq f q v) s = .next t ∧
      (∀ p, t.injOf p = if p = q
        then s.injOf q ++ [⟨injReq_MON.get v, injReq_TAG.get v, injReq_IE.get v == 1, f + 1, s.time.bounds⟩] else s.injOf p) ∧
      (∀ p, FMap.get (fun _ => 0) t.pool.injCount p = FMap.get (fun _ => 0) s.pool.injCount p + flag (p == q)) ∧
      { t with pool := { t.pool with inj := s.pool.inj, injCount := s.pool.injCount } } = s) ∧
    (s.injError q (injReq_MON.get v) ≠ 0 → ∃ t, exec (.injReq f q v) s = .next t ∧
      Tells s [(injStatus q, injStatus_ERR.put (injStatus_REFUSED.put (s.reg (injStatus q)) 1) (s.injError q (injReq_MON.get v)))]
        (728 + q) 6 [s.injError q (injReq_MON.get v)] (f + 1) t)) ∧
  (∀ r rest w, s.injOf q = r :: rest → r.by_ ≠ 0 →
    (s.time.bounds = r.at_ + 1 ∧ s.injDue q r ≤ s.time.now ∨
        s.time.bounds = r.at_ + 2 ∧ s.time.sub = 0 ∧ s.injDue q r = s.time.now → s.boot.trip = false → (s.standby q).isSome = true → ∀ val,
      w = injResult_VALUE.put (injResult_TAG.put (injResult_STAT.put (injResult_COUNT.put (s.reg (injResult q r.mon))
        (s.fld (injResult q r.mon) injResult_COUNT + 1)) 1) r.tag) val →
      ∃ t, exec (.injectedConversionDone q val) s = .next t ∧ (∀ p, t.injOf p = if p = q then rest else s.injOf p) ∧
        (∀ p, FMap.get (fun _ => 0) t.pool.injFree p = if p = q then s.injDue q r else FMap.get (fun _ => 0) s.pool.injFree p) ∧
        (r.ie = true → Tells { s with pool := { s.pool with inj := t.pool.inj, injFree := t.pool.injFree } } [(injResult q r.mon, w)]
          (728 + q) 5 [w.toNat, r.mon] r.by_ t) ∧
        (r.ie = false → Sets { s with pool := { s.pool with inj := t.pool.inj, injFree := t.pool.injFree } } [(injResult q r.mon, w)] t)) ∧
    (r.at_ + 2 ≤ s.time.bounds → s.injAtLast q r = false →
      w = injResult_VALUE.put (injResult_TAG.put (injResult_STAT.put (injResult_COUNT.put (s.reg (injResult q r.mon))
        (s.fld (injResult q r.mon) injResult_COUNT + 1)) 2) r.tag) 0 →
      ∃ t, exec (.injectedConversionTimeout q) s = .next t ∧ (∀ p, t.injOf p = if p = q then rest else s.injOf p) ∧
        (r.ie = true → Tells { s with pool := { s.pool with inj := t.pool.inj } } [(injResult q r.mon, w)] (728 + q) 5
          [w.toNat, r.mon] r.by_ t) ∧
        (r.ie = false → Sets { s with pool := { s.pool with inj := t.pool.inj } } [(injResult q r.mon, w)] t)))

/-- R130, R131: the last tick of a REF step of a standby run takes the step's sum of codes; the third gives the offset and gain that
R131 forms from them. -/
def Obligations.StandbySteps : Prop := ∀ (s : State) (q : Nat) (r : Run) (sb : Nat) (m : Int), s.runOf q = some r →
  s.standby q = some sb → s.boot.trip = false → s.deogen = true → r.done = false → r.left = 1 → r.own = true →
  1 ≤ r.step → r.step ≤ 3 → (r.step = 3 → r.target ≠ none) →
  ∃ t r', exec (.standbyRunStep q (.ref m)) s = .next t ∧ (∀ p, t.runOf p = if p = q then some r' else s.runOf p) ∧
    { t with cal := { t.cal with run := s.cal.run } } = s ∧ r'.done = true ∧ r'.complete = r.complete ∧ r'.step = r.step ∧
    r'.m0 = (if r.step = 1 then m else r.m0) ∧ r'.mp = (if r.step = 2 then m else r.mp) ∧
    (r.step = 3 → r'.mn = m ∧
      (2 * (40960 * r'.ofs - 4 * (10 * r.m0 - 4096 * s.cal.otp.e0Of q))).natAbs ≤ 40960 ∧
      (m < r.mp → (2 * (10 * (r.mp - m) * r'.gain - 131072 * 4096 * (s.cal.otp.epOf q - s.cal.otp.enOf q))).natAbs
        ≤ (10 * (r.mp - m)).natAbs))

/-- R132–R135, R147, R148: a run is judged after its TRACK step, or after its third REF step where it has no target. One whose offset or
gain fails its limits makes no exchange, sets RUN_FAIL, is counted and raised, and the third failure in a row retires the standby; one
that passes is counted as completed, and waits for its exchange where it has a target, with a skew and tap within their limits or none. -/
def Obligations.StandbyRunsEnd : Prop := ∀ (s : State) (q : Nat) (r : Run) (sb : Nat) (x : RunSums) (ofs gain : Int),
  s.runOf q = some r → q < s.part.quads → s.standby q = some sb → s.boot.trip = false → s.deogen = true → r.done = false → r.left = 1 →
  r.own = true →
  ((∃ pts i, x = .track pts ∧ r.step = 4 ∧ r.target = some i) ∧ ofs = r.ofs ∧ gain = r.gain ∨
    ∃ m, x = .ref m ∧ r.step = 3 ∧ r.target = none ∧ ofs = refOffset r.m0 (s.cal.otp.e0Of q)
      ∧ gain = refGain r.mp m (s.cal.otp.epOf q) (s.cal.otp.enOf q)) →
  let first := s.bit (sliceCal q sb) sliceCal_FIRST
  let bad := judgeSlice first ofs (sx 13 (s.fld (sOfs q sb) sOfs_OFS)) gain (s.fld (sGain q sb) sGain_GAIN)
  (bad = 0 → ∃ t, exec (.standbyRunStep q x) s = .next t ∧ t.reg (calRuns q) = s.reg (calRuns q) + 1 ∧
    t.fld (sliceCal q sb) sliceCal_FAILS = 0 ∧ t.fld (sliceCal q sb) sliceCal_FIRST = 0 ∧ t.reg (slice q sb) = s.reg (slice q sb) ∧
    FMap.get (fun _ => 0) t.pool.lastRun (36 * q + sb) = s.pool.runs + 1 ∧
    { t.pool with lastRun := s.pool.lastRun, runs := s.pool.runs } = s.pool ∧
    (r.target = none → t.runOf q = none) ∧
    (r.target ≠ none → ∃ r', t.runOf q = some r' ∧ r'.complete = true ∧ r'.done = true ∧ r'.ofs = ofs ∧ r'.gain = gain ∧
      ∀ skew tap, r'.track = some (skew, tap) → judgeTrack first skew (sx 11 (s.fld (sSkew q sb) sSkew_SKEW)) tap
        (sx 16 (s.fld (sBw q sb) sBw_HM)) (sx 16 (s.fld (sBw q sb) sBw_HP)) = 0)) ∧
  (bad ≠ 0 → ∃ t, exec (.standbyRunStep q x) s = .next t ∧ t.runOf q = none ∧
    t.reg (calRunFails q) = s.reg (calRunFails q) + 1 ∧ t.reg (calRuns q) = s.reg (calRuns q) ∧
    t.fld (calQstatus q) calQstatus_RUN_FAIL = 1 ∧ t.fld (calQstatus q) calQstatus_TARGET = 0x3F ∧
    (s.fld (sliceCal q sb) sliceCal_FAILS < 2 → t.reg (slice q sb) = s.reg (slice q sb) ∧
      t.fld (sliceCal q sb) sliceCal_FAILS = s.fld (sliceCal q sb) sliceCal_FAILS + 1) ∧
    (2 ≤ s.fld (sliceCal q sb) sliceCal_FAILS → t.fld (slice q sb) slice_STATE = 4 ∧ t.fld (slice q sb) slice_CAUSE = 5))

/-- R137, R140, R145: a foreground level takes its sum; a pilot run notes its amplitude and its temperature whatever comes of it, and the
first one of a setting does no more; a channel is made due on request, and its hold-off ends. -/
def Obligations.ChannelRuns : Prop := ∀ (s : State) (q : Nat), q < s.part.quads →
  (∀ r sum, s.fgOf q = some r → r.begun = true → r.done = false → r.left = 1 → r.own = true → s.boot.trip = false →
    s.deogen = true → ∃ t r', exec (.foregroundRunStep q sum) s = .next t ∧
      (∀ p, t.fgOf p = if p = q then some r' else s.fgOf p) ∧ { t with cal := { t.cal with fg := s.cal.fg } } = s ∧
      r'.m0 = (if r.level = 0 then sum else r.m0) ∧ r'.mp = (if r.level = 1 then sum else r.mp) ∧
      r'.mn = (if 2 ≤ r.level then sum else r.mn) ∧ r'.done = true ∧
      { r' with m0 := r.m0, mp := r.mp, mn := r.mn, done := r.done } = r) ∧
  (∀ r amp, s.pilotOf q = some r → r.chan < 4 → s.boot.trip = false → s.deogen = true →
    r.from_ + 2 ^ 20 * (16 / max 1 (s.chanCount q r.chan)) ≤ s.time.now →
    ∃ t, exec (.pilotRunResult q amp) s = .next t ∧ t.pilotOf q = none ∧
      (∀ k, FMap.get (fun _ => none) t.cal.aPrev k =
        if k = s.setting q r.chan then some (amp, r.temp) else FMap.get (fun _ => none) s.cal.aPrev k) ∧
      t.fld (pilotStatus q) pilotStatus_RUNNING = 0 ∧ t.fld (chCalStatus q r.chan) chCalStatus_RUNNING = 0 ∧
      (FMap.get (fun _ => none) s.cal.aPrev (s.setting q r.chan) = none →
        t.reg (cGain q r.chan) = s.reg (cGain q r.chan) ∧ t.reg (cOfs q r.chan) = s.reg (cOfs q r.chan) ∧
        t.fld (chCalStatus q r.chan) chCalStatus_DUE = 0 ∧ t.fld (chCalStatus q r.chan) chCalStatus_LAST_RESULT = 5)) ∧
  (∀ f k v, k < 4 → s.open_ = true → s.ownChan (4 * q + k) = f + 1 → chCalCtrl_REQ.get v = 1 →
    ∃ t, exec (.chCalReq f q k v) s = .next t ∧ t.fld (chCalStatus q k) chCalStatus_DUE = 1 ∧
      FMap.get (fun _ => 0) t.cal.holdoff (4 * q + k) = 0 ∧
      (∀ o, o ≠ chCalStatus q k → o ≠ chCalCtrl q k → t.reg o = s.reg o) ∧
      { t with regs := s.regs, rwtOld := s.rwtOld, cal := { t.cal with holdoff := s.cal.holdoff } } = s) ∧
  (∀ k, k < 4 →
    (FMap.get (fun _ => 0) s.cal.holdoff (4 * q + k) ≤ s.time.bounds → ∃ t, exec (.calRetryHoldoffEnd q k) s = .next t ∧
      (∀ c, FMap.get (fun _ => 0) t.cal.holdoff c = if c = 4 * q + k then 0 else FMap.get (fun _ => 0) s.cal.holdoff c) ∧
      { t with cal := { t.cal with holdoff := s.cal.holdoff } } = s) ∧
    (s.time.bounds < FMap.get (fun _ => 0) s.cal.holdoff (4 * q + k) → exec (.calRetryHoldoffEnd q k) s = .next s))

/-- R129, R153, R155, R156: a cone below 2 is refused; a write of the store falls due with the coefficients as they stand, on request or
when STORE_INTERVAL has passed, and its read-back leaves the new generation in the flash, in the copy that does not hold the newest. -/
def Obligations.CalibrationStore : Prop := ∀ s : State,
  (∀ v, s.open_ = true → calCtrl_CAL_CONE.get v < 2 → ∃ t, exec (.calConeWrite 0 v) s = .next t ∧
    Tells s [(calStatus, calStatus_CONE_REFUSED.put (s.reg calStatus) 1)] 857 1 [calCtrl_CAL_CONE.get v] 15 t) ∧
  (∀ v, s.open_ = true → 2 ≤ calCtrl_CAL_CONE.get v → ∃ t, exec (.calConeWrite 0 v) s = .next t ∧
    t.fld calCtrl calCtrl_CAL_CONE = calCtrl_CAL_CONE.get v ∧ t.cur calCtrl calCtrl_CAL_CONE = s.cur calCtrl calCtrl_CAL_CONE ∧
    Sets { s with rwtOld := t.rwtOld } [(calCtrl, t.reg calCtrl)] t) ∧
  (s.cal.image = none → s.deogen = true → s.romAlone = false →
    (∀ v, s.open_ = true → storeCmd_SAVE.get v = 1 → ∃ t, exec (.save 0 v) s = .next t ∧
      Sets { s with cal := { s.cal with image := some s.storeImage, changed := false } } [(calStatus, calStatus_STORE_BUSY.put (s.reg calStatus) 1)] t) ∧
    (s.bit calCtrl calCtrl_STORE_EN = true → s.cal.changed = true → s.fld storeInterval storeInterval_SECONDS ≠ 0 →
      max s.cal.savedAt s.boot.t0 + 2000000000 * s.fld storeInterval storeInterval_SECONDS ≤ s.time.now →
      ∃ t, exec .storeIntervalExpiry s = .next t ∧
      Sets { s with cal := { s.cal with image := some s.storeImage, changed := false } } [(calStatus, calStatus_STORE_BUSY.put (s.reg calStatus) 1)] t)) ∧
  (∀ im, s.cal.image = some im → s.deogen = true → s.flashBusy = false → s.cal.saveAgain = false →
    let base := storeBase (if s.storeOk 1 = true ∧ s.storeGenOf 1 = s.newestGen then 2 else 1)
    let bytes := im.body ++ leBytes 4 (crc32c im.body)
    (∃ t, exec (.storeWriteDone true) s = .next t ∧
      (∀ i, i < 0x4024 → t.flashByte (base + i) = bytes.getD i 0) ∧
      (∀ a, a < base ∨ base + 0x4024 ≤ a → t.flashByte a = s.flashByte a) ∧
      { t.loader with flash := s.loader.flash } = s.loader ∧
      Sets { s with loader := t.loader, cal := { s.cal with image := none, savedAt := s.time.now } }
        [(calStatus, calStatus_STORE_BUSY.put (s.reg calStatus) 0), (storeGen, BitVec.ofNat 32 im.gen)] t) ∧
    (∃ t, exec (.storeWriteDone false) s = .next t ∧
      (∀ a, a < base ∨ base + 0x4024 ≤ a → t.flashByte a = s.flashByte a) ∧ { t.loader with flash := s.loader.flash } = s.loader ∧
      Tells { s with loader := t.loader, cal := { s.cal with image := none, savedAt := s.time.now, changed := true } }
        [(calStatus, calStatus_STORE_FAIL.put (calStatus_STORE_BUSY.put (s.reg calStatus) 0) 1)] 857 3 [base] 15 t))

/-! ### Chains (R159–R190) -/

/-- R180, R182, R185: the owner's commands to a chain, and the end of its stop. -/
def Obligations.ChainCommands : Prop := ∀ (s : State) (n : Nat), n < s.part.chains →
  (∀ f v, s.open_ = true → s.ownChain n = f + 1 →
    (chainCmd_STOP.get v = 0 → s.fld (chainStatus n) chainStatus_STATE = 0 → ∃ t, exec (.chainStart f n v) s = .next t ∧
      Sets s [(chainStatus n, chainStatus_STATE.put (s.reg (chainStatus n)) 1)] t) ∧
    (chainCmd_STOP.get v = 0 → s.fld (chainStatus n) chainStatus_STATE ≠ 0 → ∃ t, exec (.chainStart f n v) s = .next t ∧
      Tells s [(chainStatus n, chainStatus_REFUSED.put (s.reg (chainStatus n)) 1)] (648 + n) 2 [] 15 t) ∧
    (chainCmd_START.get v = 0 → s.fld (chainStatus n) chainStatus_STATE = 1 → ∃ t, exec (.chainStop f n v) s = .next t ∧
      Sets s [(chainStatus n, chainStatus_STATE.put (s.reg (chainStatus n)) 0)] t) ∧
    (chainCmd_START.get v = 0 → s.fld (chainStatus n) chainStatus_STATE = 2 → ∃ t, exec (.chainStop f n v) s = .next t ∧
      (∀ m, t.chain m = if m = n then { s.chain n with stop := true } else s.chain m) ∧ { t with chains := s.chains } = s) ∧
    (∃ t, exec (.switchGo f n v) s = .next t ∧ t.fld (chainSwitch n) chainSwitch_PARTNER = chainSwitch_PARTNER.get v ∧
      (∀ m, t.chain m = if m = n then { s.chain n with switch := some (chainSwitch_PARTNER.get v) } else s.chain m) ∧
      Sets { s with chains := t.chains } [(chainSwitch n, t.reg (chainSwitch n))] t)) ∧
  (s.fld (chainStatus n) chainStatus_STATE = 3 → (s.chain n).stopAt + 400 ≤ s.time.now →
    ∃ t, exec (.chainStopped n) s = .next t ∧ (∀ m, m ≠ n → t.chain m = s.chain m) ∧
      (t.chain n).pkt = (s.chain n).pkt ∧ (t.chain n).pktTo = (s.chain n).pktTo ∧ (t.chain n).switch = (s.chain n).switch ∧ (t.chain n).cic = [] ∧ (t.chain n).fir = [] ∧
      Tells { s with chains := t.chains } [(chainStatus n, chainStatus_STATE.put (s.reg (chainStatus n)) 0)] (648 + n) 5 [] 15 t)

/-- R161, R163, R184, R188: a running chain takes the next sample of its source, and a rise of its coarse comparator triggers the capture
streams that select it (R411); it closes its packet 200 ns after a boundary, and the packet leaves or waits for credits (R380); it says
that its source is lost after a tick without input, and its canceller has converged after 131,072 inputs. -/
def Obligations.ChainInputs : Prop := ∀ (s : State) (n : Nat), n < s.part.chains →
  (∀ xs c i, s.fld (chainStatus n) chainStatus_STATE = 2 → c = s.cur (chainSrc n) chainSrc_CH → s.chanStep c ≠ 0 →
    s.time.clock = .running → s.boot.trip = false → s.powerOf (c / 4) = .on →
    i = max (s.chain n).next (s.baseIndex c + s.time.sub / s.chanStep c) → (i - s.baseIndex c) * s.chanStep c < s.tickLength →
    ∃ t, exec (.chainInputSample n xs) s = .next (s.riseTriggers t (0x80 + n)) ∧ (t.chain n).next = i + 1 ∧ (t.chain n).lastIn = some s.time.bounds ∧
      (t.chain n).lost = false ∧ (∀ m, m ≠ n → t.chain m = s.chain m) ∧
      (∀ o, o ≠ chainStatus n → o ≠ coarse n → (o < 0x30000 ∨ 0x31000 ≤ o) → (o < 0x402000 ∨ 0x404000 ≤ o) → t.reg o = s.reg o) ∧
      (∀ d, d ≠ c → FMap.get (fun _ => none) t.pool.last d = FMap.get (fun _ => none) s.pool.last d) ∧
      Same s { t with regs := s.regs, chains := s.chains, events := s.events, net := s.net, noc := s.noc, freeCtr := s.freeCtr,
                      logFullSaid := s.logFullSaid, pool := { t.pool with last := s.pool.last } }) ∧
  (s.time.clock = .running → 400 ≤ s.time.sub →
    let gone := (s.chain n).pkt.filter (fun w => decide (w.1 ≤ s.tickStart + 400))
    ∃ t, exec (.chainPacketClose n) s = .next t ∧
      (t.chain n).pkt = (s.chain n).pkt.filter (fun w => decide (s.tickStart + 400 < w.1)) ∧ (∀ m, m ≠ n → t.chain m = s.chain m) ∧
      let mine (p : Packet) : Prop := p.cmd = 1 ∧ p.tick = (s.chain n).pktTick % 2 ^ 32 ∧ p.sub = (s.chain n).pktSub ∧
        p.data = wordBytes (gone.map (·.2))
      (∃ ps ws, t.net = s.net ++ ps ∧ t.noc.waiting = s.noc.waiting ++ ws ∧ (∀ p ∈ ps, mine p) ∧ (∀ w ∈ ws, mine w.2) ∧
        (gone = [] → ps = [] ∧ ws = []) ∧
        ((∀ e ∈ (s.chain n).pktTo, (s.routeEntry (s.streamNow e).src (s.streamNow e).entry).isSome = true) →
          (gone ≠ [] → ps.length + ws.length = (s.chain n).pktTo.length) ∧ { t with chains := s.chains, net := s.net, noc := s.noc } = s))) ∧
  (s.fld (chainStatus n) chainStatus_STATE = 2 → (s.chain n).lost = false → (s.chain n).started < s.time.bounds →
    (∀ k, (s.chain n).lastIn = some k → k + 1 < s.time.bounds) →
    ∃ t, exec (.sourceLost n) s = .next t ∧ (∀ m, t.chain m = if m = n then { s.chain n with lost := true, last := none } else s.chain m) ∧
      Tells { s with chains := t.chains } [] (648 + n) 6 [] 15 t) ∧
  (s.fld (pcan n) pcan_EN = 1 → 131072 ≤ (s.chain n).pcanIn → ∃ t, exec (.pcanConverged n) s = .next t ∧
    Sets s [(pcan n, pcan_CONV.put (s.reg (pcan n)) 1)] t)
/-! ### DSP cores (R192–R258) -/

/-- R238–R240: NOP executes the two parallel moves of its word: each loads or stores one word of its memory at its pointer, both
with the registers as they were, and then updates its pointer. -/
def Obligations.ParallelMoves : Prop := ∀ (s : State) (n : Nat) (w : IWord), DspReady s n 0 w →
  let c := s.core n
  let xm := xmOf w
  let ym := ymOf w
  let at_ (mv : Mv) : Nat := c.pn mv.ptr
  ∃ t, exec (.nop n .clean) s = .next t ∧ DspQuiet s t n (1 + c.stall w) ∧ DspNext s t n ∧
    (∀ a, a < 0x8000 → (t.core n).mem false a =
      if xm.type = 2 ∧ a = at_ xm then BitVec.ofNat 24 (c.readReg xm.reg).1 else c.mem false a) ∧
    (∀ a, a < 0x8000 → (t.core n).mem true a =
      if ym.type = 2 ∧ a = at_ ym then BitVec.ofNat 24 (c.readReg ym.reg).1 else c.mem true a) ∧
    (∀ i, i < 8 → vget (t.core n).bank.d i =
      if xm.type = 1 ∧ xm.reg = i then c.mem false (at_ xm) else if ym.type = 1 ∧ ym.reg = i then c.mem true (at_ ym)
      else vget c.bank.d i) ∧
    (∀ i, i < 4 → (t.core n).accn i =
      if xm.type = 1 ∧ xm.reg = 8 + i then (c.mem false (at_ xm)).toInt * 2 ^ 24
      else if ym.type = 1 ∧ ym.reg = 8 + i then (c.mem true (at_ ym)).toInt * 2 ^ 24 else c.accn i) ∧
    (∀ j, j < 8 → ¬(xm.type ≠ 0 ∧ ym.type ≠ 0 ∧ xm.ptr = ym.ptr) → (t.core n).pn j =
      if xm.type ≠ 0 ∧ xm.upd ≠ 0 ∧ xm.ptr = j then stepped (governing c.m.toList j) (c.pn j) (c.updStep xm) % 0x8000
      else if ym.type ≠ 0 ∧ ym.upd ≠ 0 ∧ ym.ptr = j then stepped (governing c.m.toList j) (c.pn j) (c.updStep ym) % 0x8000
      else c.pn j) ∧
    (∀ j, xm.type ≠ 0 → ym.type ≠ 0 → xm.ptr = j → ym.ptr = j →
      let q := if xm.upd = 0 then c.pn j else stepped (governing c.m.toList j) (c.pn j) (c.updStep xm) % 0x8000
      (t.core n).pn j = if ym.upd = 0 then q else stepped (governing c.m.toList j) q (c.updStep ym) % 0x8000) ∧
    (∀ k, (t.core n).srgBit k = (c.srgBit k ||
      (k == 6 && ((xm.type == 2 && (c.readReg xm.reg).2) || (ym.type == 2 && (c.readReg ym.reg).2)))))

/-- R203, R242, R243: the multiply instructions put the exact product, or the accumulator with it, and set C to the carry or
borrow of the 56-bit patterns, or clear it; their parallel moves are those of NOP. -/
def Obligations.Multiplies : Prop := ∀ (s : State) (n : Nat) (w : IWord),
  let c := s.core n
  let i := ibits w 39 36 - 8
  let x := c.dn (ibits w 35 32)
  let y := c.dn (ibits w 31 28)
  let xu : Int := c.du (ibits w 35 32)
  let yu : Int := c.du (ibits w 31 28)
  let a := c.accn i
  let carry (b : Int) : Bool := decide ((2 : Int) ^ 56 ≤ a % 2 ^ 56 + b % 2 ^ 56)
  (∀ at_, 1 ≤ opcOf w → opcOf w ≤ 9 → ibits w 27 24 ≠ 0 → reserved w at_ = true) ∧
  (1 ≤ opcOf w → opcOf w ≤ 9 → repeatable w = true) ∧
  ∀ p ∈ [(Instr.mpy n .clean, 0x01, 2 * x * y, false), (.mpyn n .clean, 0x02, -(2 * x * y), false),
      (.mac n .clean, 0x03, a + 2 * x * y, carry (2 * x * y)),
      (.msc n .clean, 0x04, a - 2 * x * y, decide (a % 2 ^ 56 < (2 * x * y) % 2 ^ 56)),
      (.macr n .clean, 0x05, roundEven (a + 2 * x * y) (2 ^ 24) * 2 ^ 24, carry (2 * x * y)),
      (.mpyi n .clean, 0x06, x * y, false), (.maci n .clean, 0x07, a + x * y, carry (x * y)),
      (.macsu n .clean, 0x08, a + x * yu, carry (x * yu)), (.macuu n .clean, 0x09, a + xu * yu, carry (xu * yu))],
    DspReady s n p.2.1 w → ∃ t, exec p.1 s = .next t ∧ AccHolds c (t.core n) i p.2.2.1 ∧ (t.core n).srgBit 2 = p.2.2.2 ∧
      DspSame (c.moves w) (t.core n) [] [i] [2, 3, 4, 5, 7] ∧ DspQuiet s t n (1 + c.stall w) ∧ DspNext s t n

/-- R202, R203, R242, R244: accumulator sums, transfers, negation, magnitude, rounding and shifts. -/
def Obligations.AccumulatorResults : Prop := ∀ (s : State) (n : Nat) (w : IWord),
  let c := s.core n
  let i := ibits w 39 36 - 8
  let r := ibits w 35 32
  let a := c.accn i
  let src : Int := if r < 8 then c.dn r * 2 ^ 24 else c.accn (r - 8)
  let k := ibits w 29 24
  let j : Int := sx 7 (c.du r)
  ∀ p ∈ [(Instr.add n .clean, 0x0A, a + src, decide ((2 : Int) ^ 56 ≤ a % 2 ^ 56 + src % 2 ^ 56)),
      (.sub n .clean, 0x0B, a - src, decide (a % 2 ^ 56 < src % 2 ^ 56)), (.tfr n .clean, 0x0D, src, false),
      (.neg n .clean, 0x0E, -a, decide (a ≠ 0)), (.abs n .clean, 0x0F, (a.natAbs : Int), false), (.clr n .clean, 0x10, 0, false),
      (.rnd n .clean, 0x11, roundEven a (2 ^ 24) * 2 ^ 24, false),
      (.asl n .clean, 0x12, a * 2 ^ k, (vget c.bank.acc i).getLsbD (56 - k)),
      (.asr n .clean, 0x13, a / 2 ^ k, (vget c.bank.acc i).getLsbD (k - 1)),
      (.shv n .clean, 0x14, if 0 ≤ j then a * 2 ^ j.toNat else a / 2 ^ (-j).toNat, false)],
    DspReady s n p.2.1 w → ∃ t, exec p.1 s = .next t ∧ AccHolds c (t.core n) i p.2.2.1 ∧ (t.core n).srgBit 2 = p.2.2.2 ∧
      DspSame (c.moves w) (t.core n) [] [i] [2, 3, 4, 5, 7] ∧ DspQuiet s t n (1 + c.stall w) ∧ DspNext s t n

/-- R244, R245: CMP completes with the flags of the wrapped difference and stores nothing; CLS completes with the count of redundant sign
bits less 8 in its data register, and no flag; DIVS completes with the accumulator doubled, the divisor added or subtracted, the exact
sum judged, and the quotient bit added; W, N and Z stay. -/
def Obligations.ComparesAndDivides : Prop := ∀ (s : State) (n : Nat) (w : IWord),
  let c := s.core n
  let i := ibits w 39 36 - 8
  let r := ibits w 35 32
  let a := c.accn i
  let src : Int := if r < 8 then c.dn r * 2 ^ 24 else c.accn (r - 8)
  let low (x : Int) : Int := (x + 2 ^ 55) % 2 ^ 56 - 2 ^ 55
  (DspReady s n 0x0C w → ∃ t, exec (.cmp n .clean) s = .next t ∧ let v := low (a - src)
    (t.core n).srgBit 4 = decide (v < 0) ∧ (t.core n).srgBit 3 = decide (v = 0) ∧
    (t.core n).srgBit 5 = decide (v < -(2 ^ 47) ∨ 2 ^ 47 ≤ v) ∧ (t.core n).srgBit 2 = decide (a % 2 ^ 56 < src % 2 ^ 56) ∧
    DspSame (c.moves w) (t.core n) [] [] [2, 3, 4, 5] ∧ DspQuiet s t n (1 + c.stall w) ∧ DspNext s t n) ∧
  (DspReady s n 0x15 w → ∃ t, exec (.cls n .clean) s = .next t ∧
    -8 ≤ (t.core n).dn r ∧ (t.core n).dn r ≤ 47 ∧
    (∀ k : Nat, k ≤ 55 → ((k : Int) ≤ (t.core n).dn r + 8 ↔
      ∀ j, j < k → (vget c.bank.acc i).getLsbD (54 - j) = (vget c.bank.acc i).getLsbD 55)) ∧
    DspSame (c.moves w) (t.core n) [r] [] [] ∧ DspQuiet s t n (1 + c.stall w) ∧ DspNext s t n) ∧
  (DspReady s n 0x16 w → ∃ t, exec (.divs n .clean) s = .next t ∧
    let v := if (a < 0) = (c.dn r < 0) then 2 * a - c.dn r * 2 ^ 24 else 2 * a + c.dn r * 2 ^ 24
    let past := v < -(2 ^ 55) ∨ 2 ^ 55 ≤ v
    let m := if past ∧ c.om = true then (if v < 0 then -(2 ^ 55) else 2 ^ 55 - 1) else low v
    let q : Int := if (m < 0) = (c.dn r < 0) then 1 else 0
    (t.core n).accn i = low (m + q) ∧ (t.core n).srgBit 2 = decide (q = 1) ∧ (t.core n).srgBit 7 = (c.srgBit 7 || decide past) ∧
    DspSame (c.moves w) (t.core n) [] [i] [2, 7] ∧ DspQuiet s t n (1 + c.stall w) ∧ DspNext s t n)

/-- R246: the data-register operations; N is bit 23 of the result, Z says that it is zero, W is 0, and C is the carry, the borrow or
the last bit shifted out. A shift of 0 or of more than 23 places is a reserved encoding. -/
def Obligations.DataResults : Prop := ∀ (s : State) (n : Nat) (w : IWord),
  let c := s.core n
  let i := ibits w 39 36
  let a := vget c.bank.d i
  let b := vget c.bank.d (ibits w 35 32)
  let k := ibits w 28 24
  (∀ at_, 0x1C ≤ opcOf w → opcOf w ≤ 0x1E → (k = 0 ∨ 23 < k) → reserved w at_ = true) ∧
  (0x18 ≤ opcOf w → opcOf w ≤ 0x20 → repeatable w = true) ∧
  ∀ p ∈ [(Instr.andD n .clean, 0x18, a &&& b, false), (.orD n .clean, 0x19, a ||| b, false), (.xorD n .clean, 0x1A, a ^^^ b, false),
      (.notD n .clean, 0x1B, ~~~ a, false), (.lsl n .clean, 0x1C, a <<< k, a.getLsbD (24 - k)),
      (.lsr n .clean, 0x1D, a >>> k, a.getLsbD (k - 1)), (.asrd n .clean, 0x1E, a.sshiftRight k, a.getLsbD (k - 1)),
      (.addd n .clean, 0x1F, a + b, decide (2 ^ 24 ≤ a.toNat + b.toNat)), (.subd n .clean, 0x20, a - b, decide (a.toNat < b.toNat))],
    DspReady s n p.2.1 w → ∃ t, exec p.1 s = .next t ∧ vget (t.core n).bank.d i = p.2.2.1 ∧ (t.core n).srgBit 2 = p.2.2.2 ∧
      (t.core n).srgBit 4 = p.2.2.1.msb ∧ (t.core n).srgBit 3 = decide (p.2.2.1 = 0) ∧ (t.core n).srgBit 5 = false ∧
      DspSame (c.moves w) (t.core n) [i] [] [2, 3, 4, 5] ∧ DspQuiet s t n (1 + c.stall w) ∧ DspNext s t n

/-- R206, R207, R237, R247, R248: MOVE, LDI, LDX, LDY and a peripheral read put a value into a register; a reserved modulus is a
program fault of code 6 instead. -/
def Obligations.RegisterMoves : Prop := ∀ (s : State) (n : Nat) (w : IWord),
  let c := s.core n
  let src := ibits w 39 34
  ∀ p ∈ [(Instr.move n .clean, 0x21, c.moves w, ibits w 33 28, (c.readReg src).1, 1),
      (.ldi n .clean, 0x40, c, src, ibits w 23 0, 1), (.ldx n .clean, 0x41, c, src, (c.mem false (c.ea w)).toNat, 1),
      (.ldy n .clean, 0x42, c, src, (c.mem true (c.ea w)).toNat, 1),
      (.movepRead n .clean, 0x48, c, src, c.perRead (ibits w 6 0), 2)],
    DspReady s n p.2.1 w →
      let dst := p.2.2.2.1
      let v := p.2.2.2.2.1
      (¬(32 ≤ dst ∧ dst < 40) → ¬(p.2.1 = 0x21 ∧ 8 ≤ src ∧ src < 12 ∧ 8 ≤ dst ∧ dst < 12) →
        ∃ t, exec p.1 s = .next t ∧ RegHolds p.2.2.1 (t.core n) dst v ∧ DspQuiet s t n (p.2.2.2.2.2 + c.stall w) ∧
          (dst ≠ 42 → (t.core n).srgBit 6 = (p.2.2.1.srgBit 6 || (p.2.1 == 0x21 && (c.readReg src).2)))) ∧
      (32 ≤ dst → dst < 40 → modReserved v = false → ∃ t k, exec p.1 s = .next t ∧ RegHolds p.2.2.1 (t.core n) dst v ∧
        DspQuiet s t n (p.2.2.2.2.2 + 2 * k + c.stall w) ∧ k ≤ 8) ∧
      (32 ≤ dst → dst < 40 → modReserved v = true → c.replay = false → ∃ t, exec p.1 s = .next t ∧
        t.reg (pfaultInfo n) = pfaultInfo_PC.put (pfaultInfo_CODE.put 0 6) c.pc ∧ (t.core n).running = false) ∧
      (p.2.1 = 0x21 → 8 ≤ src → src < 12 → 8 ≤ dst → dst < 12 → ∃ t, exec p.1 s = .next t ∧
        (∀ i, i < 4 → vget (t.core n).bank.acc i = if dst = 8 + i then vget c.bank.acc (src - 8) else vget (c.moves w).bank.acc i) ∧
        DspSame (c.moves w) (t.core n) [] [0, 1, 2, 3] [] ∧ DspQuiet s t n (1 + c.stall w) ∧ DspNext s t n)

/-- R201, R247, R248: STX and STY store a register at the address that the word gives, and nothing else. -/
def Obligations.RegisterStores : Prop := ∀ (s : State) (n : Nat) (w : IWord),
  let c := s.core n
  ∀ p ∈ [(Instr.stx n .clean, 0x43, false), (.sty n .clean, 0x44, true)],
    DspReady s n p.2.1 w → ∃ t, exec p.1 s = .next t ∧
      (∀ a, a < 0x8000 → (t.core n).mem p.2.2 a =
        if a = c.ea w then BitVec.ofNat 24 (c.readReg (ibits w 39 34)).1 else c.mem p.2.2 a) ∧
      (∀ a, (t.core n).mem (!p.2.2) a = c.mem (!p.2.2) a) ∧ (t.core n).bank.d = c.bank.d ∧ (t.core n).bank.acc = c.bank.acc ∧
      (t.core n).bank.p = c.bank.p ∧
      (∀ k, (t.core n).srgBit k = (c.srgBit k || (k == 6 && (c.readReg (ibits w 39 34)).2))) ∧
      DspQuiet s t n (1 + c.stall w) ∧ DspNext s t n

/-- R213, R216, R258: a write of OUT_SRC or OUT_FSRC sets it; a post gives its stream the words that still fit, and waits while the
stream is BUSY; IRQ_EN takes its value, and bits of IRQ_STAT that hardware has not set in the same cycle are cleared (R12). -/
def Obligations.PeripheralWrites : Prop := ∀ (s : State) (n : Nat) (w : IWord) (a v j : Nat), DspReady s n 0x49 w →
  a = ibits w 6 0 → v = ((s.core n).readReg (ibits w 39 34)).1 → j < 8 →
  let c := s.core n
  ∃ t, exec (.movepWrite n .clean) s = .next t ∧ (∀ m, m ≠ n → t.core m = s.core m) ∧
    (t.core n).bank.d = c.bank.d ∧ (t.core n).bank.acc = c.bank.acc ∧ (t.core n).bank.p = c.bank.p ∧
    (t.core n).x = c.x ∧ (t.core n).y = c.y ∧
    (∀ i, i < 8 → FMap.get (fun _ => 0) (t.core n).src i = if a = 0x40 + i then v % 2 ^ 16 else FMap.get (fun _ => 0) c.src i) ∧
    (∀ i, i < 8 → FMap.get (fun _ => 0) (t.core n).fsrc i = if a = 0x48 + i then v % 2 ^ 16 else FMap.get (fun _ => 0) c.fsrc i) ∧
    (t.core n).irqEn = (if a = 0x65 then v % 4 else c.irqEn) ∧
    (t.core n).irqStat = (if a = 0x64 then c.irqStat - (c.irqStat &&& (v % 4 - (v % 4 &&& c.irqJust))) else c.irqStat) ∧
    (a ≠ 0x50 + j → (t.core n).outOf j = c.outOf j) ∧
    (a = 0x50 + j → (c.outOf j).busy.isSome = true → (t.core n).pc = c.pc ∧ (t.core n).cycles = c.cycles + 1 ∧
      (t.core n).outOf j = c.outOf j) ∧
    (a = 0x50 + j → (c.outOf j).busy = none → (t.core n).cycles = c.cycles + 2 + c.stall w ∧
      ∀ op, c.outPort j = some op → 0 < v % 2 ^ 16 → ∃ k, k = (if (c.outOf j).closed then 0 else min (v % 2 ^ 16) (op.w - (c.outOf j).posted)) ∧
        ((t.core n).outOf j).posted = (c.outOf j).posted + k ∧
        ((t.core n).outOf j).busy.map (fun p => (p.count, p.addr, p.y)) = (if k = 0 then none else
          some (k, FMap.get (fun _ => 0) c.src j % 2 ^ 15, (FMap.get (fun _ => 0) c.src j).testBit 15)) ∧
        ((t.core n).outOf j).excess = ((c.outOf j).excess || decide (k < v % 2 ^ 16)))

/-- R241, R249: branches, the subroutine call and the writes of SRG. -/
def Obligations.ControlTransfers : Prop := ∀ (s : State) (n : Nat) (w : IWord),
  let c := s.core n
  let b := c.srgBit
  let holds (k : Nat) : Bool := [true, b 3, !b 3, b 4, !b 4, !b 4 && !b 3, b 4 || b 3, b 2, !b 2, b 5, !b 5, b 7, !b 7, b 6, !b 6].getD k false
  (DspReady s n 0x50 w → ∃ t, exec (.bcc n .clean) s = .next t ∧ DspSame c (t.core n) [] [] [] ∧ DspQuiet s t n (2 + c.stall w) ∧
    (if holds (ibits w 39 36) then (t.core n).pc = ibits w 13 0 ∧ (t.core n).stack = c.stack else DspNext s t n)) ∧
  (DspReady s n 0x52 w → ∃ t, exec (.jmpcc n .clean) s = .next t ∧ DspSame c (t.core n) [] [] [] ∧ DspQuiet s t n (2 + c.stall w) ∧
    (if holds (ibits w 39 36) then (t.core n).pc = c.du (ibits w 35 33) % 2 ^ 14 ∧ (t.core n).stack = c.stack else DspNext s t n)) ∧
  (DspReady s n 0x51 w → ∃ t, exec (.jsr n .clean) s = .next t ∧ DspSame c (t.core n) [ibits w 39 37] [] [] ∧
    (t.core n).du (ibits w 39 37) = (c.pc + 1) % 2 ^ 14 ∧ (t.core n).pc = ibits w 13 0 ∧ (t.core n).stack = c.stack ∧
    DspQuiet s t n (2 + c.stall w)) ∧
  (∀ p ∈ [(Instr.ands n .clean, 0x55, fun k => b k && (ibits w 23 0).testBit k), (.ors n .clean, 0x56, fun k => b k || (ibits w 23 0).testBit k)],
    DspReady s n p.2.1 w → ∃ t, exec p.1 s = .next t ∧
      (∀ k, (t.core n).srgBit k = if k ∈ [6, 7, 16, 17, 18, 19] then p.2.2 k else b k) ∧
      DspSame c (t.core n) [] [] [6, 7, 16, 17, 18, 19] ∧ DspQuiet s t n (1 + c.stall w) ∧ DspNext s t n)

/-- R209, R252: a loop instruction pushes the loop registers and sets them, goes to the exit address for a count of 0, and is a
program fault of code 3 where four loops are open; ENDDO pops them, and is one of code 4 where none is; the last instruction of a
body goes back to its start while LC is above 1, and pops at 1. -/
def Obligations.HardwareLoops : Prop := ∀ (s : State) (n : Nat) (w : IWord),
  let c := s.core n
  (∀ p ∈ [(Instr.doImm n .clean, 0x58, ibits w 39 24), (.dor n .clean, 0x59, c.du (ibits w 39 37) % 2 ^ 16)],
    DspReady s n p.2.1 w →
    (c.stack.length < 4 → ∃ t, exec p.1 s = .next t ∧ DspSame c (t.core n) [] [] [] ∧ DspQuiet s t n (2 + c.stall w) ∧
      (if p.2.2 = 0 then (t.core n).pc = ibits w 13 0 ∧ (t.core n).stack = c.stack
       else (t.core n).pc = (c.pc + 1) % 0x4000 ∧ (t.core n).lc = p.2.2 ∧ (t.core n).la = ibits w 13 0 ∧
         (t.core n).ls = (c.pc + 1) % 0x4000 ∧ (t.core n).stack = ⟨c.lc, c.la, c.ls⟩ :: c.stack)) ∧
    (4 ≤ c.stack.length → c.replay = false → ∃ t, exec p.1 s = .next t ∧ (t.core n).running = false ∧
      t.reg (pfaultInfo n) = pfaultInfo_PC.put (pfaultInfo_CODE.put 0 3) c.pc)) ∧
  (DspReady s n 0x5A w →
    (∀ l rest, c.stack = l :: rest → ∃ t, exec (.enddo n .clean) s = .next t ∧ DspSame c (t.core n) [] [] [] ∧
      DspQuiet s t n (2 + c.stall w) ∧ (t.core n).pc = (c.pc + 1) % 0x4000 ∧ (t.core n).lc = l.lc ∧ (t.core n).la = l.la ∧
      (t.core n).ls = l.ls ∧ (t.core n).stack = rest) ∧
    (c.stack = [] → c.replay = false → ∃ t, exec (.enddo n .clean) s = .next t ∧ (t.core n).running = false ∧
      t.reg (pfaultInfo n) = pfaultInfo_PC.put (pfaultInfo_CODE.put 0 4) c.pc)) ∧
  (∀ l rest, DspReady s n 0 w → c.stack = l :: rest → c.lcWait = [] → c.laWait = [] → c.pc < 0x4000 → (c.pc + 1) % 0x4000 = c.la →
    ∃ t, exec (.nop n .clean) s = .next t ∧
      (if 1 < c.lc then (t.core n).pc = c.ls ∧ (t.core n).lc = c.lc - 1 ∧ (t.core n).stack = c.stack
       else (t.core n).pc = c.la ∧ (t.core n).lc = l.lc ∧ (t.core n).la = l.la ∧ (t.core n).ls = l.ls ∧ (t.core n).stack = rest))

/-- R208, R253, R254: REP and REPR complete as one unit with the word that follows: it is executed so many times, as if it had been written
so often, or skipped for a count of 0; a word that may not be repeated, and one that is a reserved encoding, is a program fault. -/
def Obligations.Repeats : Prop := ∀ (s : State) (n : Nat) (w : IWord),
  let c := s.core n
  let at_ := (c.pc + 1) % 0x4000
  let w2 := c.fetch at_
  ∀ p ∈ [(Instr.rep n .clean, 0x5B, ibits w 35 24), (.repr n .clean, 0x5C, c.du (ibits w 39 37) % 2 ^ 12)],
    DspReady s n p.2.1 w →
    (listed (opcOf w2) = false ∨ repeatable w2 = true → p.2.2 = 0 →
      ∃ t, exec p.1 s = .next t ∧ DspSame c (t.core n) [] [] [] ∧ DspQuiet s t n 2 ∧
        (c.stack = [] → (t.core n).pc = (c.pc + 2) % 0x4000)) ∧
    (listed (opcOf w2) = true → repeatable w2 = true → 0 < p.2.2 → reserved w2 at_ = false →
      ∃ t, exec p.1 s = .next t ∧ DspSame (repeatOp (opOf (opcOf w2)) w2 p.2.2 c) (t.core n) [] [] [] ∧
        DspQuiet s t n (1 + p.2.2) ∧ (c.stack = [] → (t.core n).pc = (c.pc + 2) % 0x4000)) ∧
    (listed (opcOf w2) = true → repeatable w2 = false → c.replay = false → ∃ t, exec p.1 s = .next t ∧ (t.core n).running = false ∧
      t.reg (pfaultInfo n) = pfaultInfo_PC.put (pfaultInfo_CODE.put 0 2) c.pc) ∧
    (listed (opcOf w2) = false ∨ repeatable w2 = true → 0 < p.2.2 → reserved w2 at_ = true → c.replay = false →
      ∃ t, exec p.1 s = .next t ∧ (t.core n).running = false ∧
        t.reg (pfaultInfo n) = pfaultInfo_PC.put (pfaultInfo_CODE.put 0 1) at_)

/-- R217, R222, R224, R250, R257: HALT ends the run and counts its cycles, and in a handler leaves it first; RTI swaps the banks back
and goes on where the program was; an interrupt that may be taken swaps them and enters its handler, unless the word that stands next is a reserved
encoding; TIMER reaches 0. -/
def Obligations.RunsAndHandlers : Prop := ∀ (s : State) (n : Nat) (w : IWord),
  let c := s.core n
  (DspReady s n 0x53 w → c.replay = true → c.ended = false → ∃ t, exec (.halt n .clean) s = .next t ∧
    (t.core n).pend = c.pend.drop 1 ∧ (c.pend.length ≤ 1 → (t.core n).running = false)) ∧
  (DspReady s n 0x53 w → c.replay = false →
    ∃ t, exec (.halt n .clean) s = .next t ∧ (t.core n).running = false ∧ (t.core n).ended = true ∧ (t.core n).inIsr = false ∧
      t.reg (cyclesLast n) = BitVec.ofNat 32 (c.cycles + 2 + c.stall w) ∧ t.fld (dspState n) dspState_RUN = 0 ∧
      (t.core n).bank = (if c.inIsr then c.shadow else c.bank) ∧ (t.core n).x = c.x ∧ (t.core n).y = c.y ∧
      (∀ m, m ≠ n → t.core m = s.core m)) ∧
  (DspReady s n 0x54 w → c.inIsr = true → c.ended = false →
    ∃ t, exec (.rti n .clean) s = .next t ∧ (t.core n).pc = c.ret % 0x4000 ∧ (t.core n).inIsr = false ∧ (t.core n).bank = c.shadow ∧
      (t.core n).shadow = c.bank ∧ (t.core n).x = c.x ∧ (t.core n).y = c.y ∧ (t.core n).running = true ∧ (t.core n).stack = c.stack ∧
      (t.core n).cycles = c.cycles + 2 + c.stall w ∧ (∀ m, m ≠ n → t.core m = s.core m)) ∧
  (DspReady s n 0x54 w → c.inIsr = true → c.ended = true →
    ∃ t, exec (.rti n .clean) s = .next t ∧ (t.core n).running = false ∧ (t.core n).inIsr = false ∧ (t.core n).bank = c.shadow ∧
      t.fld (dspState n) dspState_RUN = 0 ∧ t.reg (cyclesLast n) = BitVec.ofNat 32 (c.cycles + 2 + c.stall w)) ∧
  (DspReady s n 0x54 w → c.inIsr = false → c.replay = false → ∃ t, exec (.rti n .clean) s = .next t ∧ (t.core n).running = false ∧
    t.reg (pfaultInfo n) = pfaultInfo_PC.put (pfaultInfo_CODE.put 0 5) c.pc) ∧
  (s.takeable_ n = true → (c.running = false ∨ reserved (c.fetch c.pc) c.pc = false ∧ c.badPlace (c.fetch c.pc) = false) → ∃ t, exec (.interruptEntry n) s = .next t ∧ (t.core n).inIsr = true ∧ (t.core n).ret = c.pc ∧
    (t.core n).pc = (if (c.irqStat &&& c.irqEn).testBit 0 then 0x10 else 0x20) ∧ (t.core n).bank = c.shadow ∧
    (t.core n).shadow = c.bank ∧ (t.core n).x = c.x ∧ (t.core n).y = c.y ∧ (t.core n).cycles = c.cycles + 3 ∧
    t.fld (dspState n) dspState_RUN = 2 ∧ (∀ m, m ≠ n → t.core m = s.core m) ∧ { t with regs := s.regs, cores := s.cores } = s) ∧
  (s.takeable_ n = true → c.running = true → c.replay = false → reserved (c.fetch c.pc) c.pc = true ∨ c.badPlace (c.fetch c.pc) = true →
    ∃ t, exec (.interruptEntry n) s = .next t ∧ (t.core n).running = false ∧
      t.reg (pfaultInfo n) = pfaultInfo_PC.put (pfaultInfo_CODE.put 0 1) c.pc) ∧
  (n < s.part.cores → s.boot.trip = false → c.timer ≠ 0 → ∃ t, exec (.dspTimerExpiry n) s = .next t ∧ (t.core n).timer = 0 ∧
    (t.core n).irqStat = c.irqStat ||| 1 ∧ (t.core n).irqJust = c.irqJust ||| 1 ∧
    { t.core n with timer := c.timer, irqStat := c.irqStat, irqSet := c.irqSet, irqAt := c.irqAt } = c ∧
    (∀ m, m ≠ n → t.core m = s.core m) ∧ { t with cores := s.cores } = s)

/-- R197, R220, R235, R259: a command that is not the core's next instruction changes nothing; a reserved encoding is a program fault
of code 1, which ends the run; a double-bit error retires the core before any effect; corrected words are counted, raised once, and
change nothing else. -/
def Obligations.InstructionFaults : Prop := ∀ p ∈ dspCommands, ∀ (s : State) (n : Nat) (w : IWord),
  w = (s.core n).fetch (s.core n).pc →
  (s.executing n = false ∨ (opcOf w ≠ p.2 ∧ (p.2 = 0 → listed (opcOf w) = true)) → ∀ e, exec (p.1 n e) s = .next s) ∧
  (s.executing n = true → opcOf w = p.2 ∨ (p.2 = 0 ∧ listed (opcOf w) = false) →
    ((reserved w (s.core n).pc || (s.core n).badPlace w) = true → (s.core n).replay = false → ∃ t, exec (p.1 n .clean) s = .next t ∧
      (t.core n).running = false ∧ (t.core n).ended = true ∧ t.reg (pfaults n) = s.reg (pfaults n) + 1 ∧
      t.reg (pfaultInfo n) = pfaultInfo_PC.put (pfaultInfo_CODE.put 0 1) (s.core n).pc ∧ t.fld (dspStatus n) dspStatus_PFAULT = 1 ∧
      (t.core n).x = (s.core n).x ∧ (t.core n).y = (s.core n).y ∧ (t.core n).bank = (s.core n).bank ∧
      (∀ m, m ≠ n → t.core m = s.core m) ∧ Heard t (576 + n) 2 0 (s.core n).fnCode) ∧
    (∃ t, exec (p.1 n .double) s = .next t ∧ t.fld (dspState n) dspState_STATE = 4 ∧ t.fld (dspState n) dspState_CAUSE = 1 ∧
      (t.core n).running = false ∧ (t.core n).x = (s.core n).x ∧ (t.core n).y = (s.core n).y ∧ (t.core n).bank = (s.core n).bank ∧
      (∀ m, m ≠ n → t.core m = s.core m)) ∧
    (∀ k, 0 < k → ∃ u, exec (p.1 n (.single k)) s = exec (p.1 n .clean) u ∧ u.cores = s.cores ∧
      u.reg (eccCount n) = s.reg (eccCount n) + BitVec.ofNat 32 k ∧
      u.fld (dspStatus n) dspStatus_ECC_CORR = 1 ∧ (∀ o, o ≠ eccCount n → o ≠ dspStatus n → u.reg o = s.reg o) ∧
      Same s { u with regs := s.regs, events := s.events } ∧
      (s.bit (dspStatus n) dspStatus_ECC_CORR = true → u.events = s.events) ∧
      (s.bit (dspStatus n) dspStatus_ECC_CORR = false → Heard u (576 + n) 8 0 (s.core n).fnCode)))

/-- R210–R213, R221, R225–R228: the happenings at a core that no instruction brings about. -/
def Obligations.CoreEvents : Prop := ∀ (s : State) (n : Nat), n < s.part.cores →
  let c := s.core n
  (∀ i p w r, i < 8 → (s.coreState n = 3 ∨ s.coreState n = 2 ∧ c.home.isSome = true) → c.inPort i = some p → r = FMap.get (fun _ => ⟨[], false⟩) c.rx i →
    (r.words.length < p.len → ∃ t, exec (.inputWordArrival n i w) s = .next t ∧
      FMap.get (fun _ => ⟨[], false⟩) (t.core n).rx i = { r with words := r.words ++ [w] } ∧
      (p.flagged = false → s.coreState n = 3 → ∀ a, a < 0x8000 → (t.core n).mem p.y a =
        if a = ((if c.phase = 0 then p.base0 else p.base1) + r.words.length) % 0x8000 then BitVec.ofNat 24 (w.toNat / 2 ^ 8)
        else c.mem p.y a) ∧ (t.core n).bank = c.bank ∧ (∀ m, m ≠ n → t.core m = s.core m) ∧ { t with cores := s.cores } = s) ∧
    (p.len ≤ r.words.length → ∃ t, exec (.inputWordArrival n i w) s = .next t ∧
      FMap.get (fun _ => ⟨[], false⟩) (t.core n).rx i = { r with ovf := true } ∧ (t.core n).x = c.x ∧ (t.core n).y = c.y ∧
      Heard t (576 + n) 9 0 c.fnCode)) ∧
  (∀ j p, j < 8 → s.boot.trip = false → (c.outOf j).busy = some p → c.ended = false →
    ∃ t, exec (.outputPostDone n ⟨j, .clean⟩) s = .next t ∧ ((t.core n).outOf j).busy = none ∧
      ((t.core n).outOf j).formed = (c.outOf j).formed + p.count ∧ (t.core n).bank = c.bank ∧ (t.core n).x = c.x ∧
      (t.core n).y = c.y ∧ (t.core n).pc = c.pc ∧
      (t.core n).irqStat = (if (List.range 8).any (fun i => i != j && (c.outOf i).busy.isSome) then c.irqStat else c.irqStat ||| 2) ∧
      (∀ m, m ≠ n → t.core m = s.core m) ∧
      ∃ u, exec (.outputPostDone n ⟨j, .double⟩) s = .next u ∧ u.fld (dspState n) dspState_STATE = 4 ∧
        u.fld (dspState n) dspState_CAUSE = 1 ∧ (u.core n).running = false) ∧
  (s.coreState n = 3 ∨ (s.coreState n = 2 ∧ c.home ≠ none) → ∃ t, exec (.watchdogTimeout n) s = .next t ∧ t.fld (dspState n) dspState_STATE = 4 ∧
    t.fld (dspState n) dspState_CAUSE = 2 ∧ (t.core n).running = false ∧ (∀ m, m ≠ n → t.core m = s.core m)) ∧
  (s.coreState n = 1 ∨ (s.coreState n = 3 ∧ s.mayTest n = true) → ∃ t, exec (.spareSelfTest n false) s = .next t ∧ t.fld (dspState n) dspState_STATE = 4 ∧
    t.fld (dspState n) dspState_CAUSE = 3 ∧ (∀ m, m ≠ n → t.core m = s.core m)) ∧
  (exec (.spareSelfTest n true) s = .next s) ∧
  (s.coreState n = 2 → c.home ≠ none → ∃ t, exec (.spareLoadDone n) s = .next t ∧ t.core n = { c with loaded := true } ∧
    (∀ m, m ≠ n → t.core m = s.core m) ∧ { t with cores := s.cores } = s) ∧
  (s.boot.trip = false → c.running = true → c.ended = false → c.replay = true → s.budget ≤ c.cycles → c.pend.length ≤ 1 →
    ∃ t, exec (.replayRunAbort n) s = .next t ∧ t.reg (overruns n) = s.reg (overruns n) + 1 ∧
      t.fld (dspStatus n) dspStatus_OVERRUN = 1 ∧ (t.core n).pend = [] ∧ (t.core n).running = false ∧
      t.reg (cyclesLast n) = BitVec.ofNat 32 s.budget ∧ (∀ m, m ≠ n → t.core m = s.core m))
/-! ### Host rings, the Wheel and the logic fabric (R260–R330, R425–R453) -/

/-- R433, R435–R438: a command that passes the common rules is carried out and completed, and one that fails them completes with the
status that they give; a graph command also waits for its turn, and is said to be refused (R267; that a rejected one names no item and no
check is the model's choice, log entry 79). NO_OPERATION does nothing else. While the function reaches no host memory its completion waits
(R427). A descriptor whose deadline has come before its decision completes with TIMEOUT. -/
def Obligations.CommandRules : Prop := ∀ (s : State) (f : Nat) (d : HostDesc),
  (CommandReady s f 0 d → ∃ t, exec (.nopCommand f) s = .next t ∧ Completed s t f d 0 0 0 0 s.time.tick ∧
    (∀ g, g ≠ f → t.fn g = s.fn g) ∧ { t with fns := s.fns, out := s.out, events := s.events } = s) ∧
  (f < 8 → (s.fn f).silent = true → s.nextDesc f 0 = some d → d.judge f = 0 → ∃ t, exec (.nopCommand f) s = .next t ∧
    (t.fn f).cmds = (s.fn f).cmds.erase d ∧ (t.fn f).later = (s.fn f).later ++ [(d, 0, 0, 0, 0, s.time.tick)] ∧
    (∀ g, g ≠ f → t.fn g = s.fn g) ∧ { t with fns := s.fns } = s) ∧
  (∀ b, ∀ p ∈ [(Instr.nopCommand f, 0, 0), (.graphSubmit f b, 1, noItem), (.graphChange f b, 2, noItem), (.graphStop f, 3, noItem),
      (.mapRead f, 4, 0), (.wheelConfig f, 5, 0)],
    f < 8 → (s.fn f).silent = false → s.nextDesc f p.2.1 = some d → s.romAlone = false → (s.wheelTurn f d = true ∨ p.2.1 = 0 ∨ p.2.1 = 5) → d.judge f ≠ 0 →
    ∃ t, exec p.1 s = .next t ∧ Completed s t f d (d.judge f) 0 p.2.2 0 s.time.tick ∧ t.wheel = s.wheel ∧
      (p.2.2 = noItem → Heard t 858 2 (d.param 0 % 2 ^ 8) (f + 1))) ∧
  (f < 8 → (s.fn f).silent = false → (s.fn f).cmds.find? (fun d => d.expiry.any (fun e => decide (e ≤ s.time.bounds))) = some d →
    ∃ t, exec (.descriptorDeadline f) s = .next t ∧ Completed s t f d 6 0 0 0 s.time.tick ∧ t.wheel = s.wheel)

/-- R445: a posted buffer waits at the end of its ring's list, one that is too short or malformed completes with its status, and one
whose deadline comes completes with what it holds. -/
def Obligations.DataBuffers : Prop := ∀ (s : State) (f j : Nat) (d : HostDesc), f < 8 → j < 16 → (s.fn f).silent = false →
  ((s.fn f).cmds.find? (fun d => d.ring == j + 1) = some d →
    (d.malformed = false → 2080 ≤ d.length → ∃ t, exec (.dataBuf f j) s = .next t ∧ (t.fn f).cmds = (s.fn f).cmds.erase d ∧
      (∀ k, t.bufsOf f k = if k = j then s.bufsOf f j ++ [d] else s.bufsOf f k) ∧ (∀ g, g ≠ f → t.fn g = s.fn g) ∧
      { t with fns := s.fns } = s) ∧
    (d.malformed = true → ∃ t, exec (.dataBuf f j) s = .next t ∧ Completed s t f d 2 0 0 0 s.time.tick) ∧
    (d.malformed = false → d.length < 2080 → ∃ t, exec (.dataBuf f j) s = .next t ∧ Completed s t f d 3 0 0 0 s.time.tick)) ∧
  (∀ rest e x, s.bufsOf f j = d :: rest → x = s.fillOf f j → x.expiry = some e → e ≤ s.time.bounds →
    ∃ t, exec (.dataBufDeadline f j) s = .next t ∧ t.bufsOf f j = rest ∧ t.fillOf f j = noFill ∧
      Out.hostWrite f (d.addr + 0x30) (completion 0 2 x.chunks x.bytes x.tick) ∈ t.out ∧
      { t with fns := s.fns, out := s.out, events := s.events } = s)

/-- R429, R431–R433, R442: WAKE issues a doorbell read unless one is outstanding; a read that is over takes the producer index of the
command ring and reads the descriptors that it shows; EN starts a ring and stops it. -/
def Obligations.Doorbells : Prop := ∀ (s : State) (f : Nat), f < 8 →
  (∀ v, s.open_ = true → wake_GO.get v = 1 → s.wantsDoorbell f = true →
    ((s.fn f).reading = none → ∃ t, exec (.wakeGo f v) s = .next t ∧ t.out = .doorbellRead f :: s.out ∧
      (t.fn f).reading = some (s.time.bounds + 1) ∧ (∀ g, g ≠ f → t.fn g = s.fn g) ∧ { t with fns := s.fns, out := s.out } = s) ∧
    ((s.fn f).reading ≠ none → (s.fn f).again = false → ∃ t, exec (.wakeGo f v) s = .next t ∧
      (∀ g, t.fn g = if g = f then { s.fn f with again := true, againAt := s.time.bounds + 1 } else s.fn g) ∧
      { t with fns := s.fns } = s) ∧
    ((s.fn f).reading ≠ none → (s.fn f).again = true → exec (.wakeGo f v) s = .next s)) ∧
  (∀ a line slots p r, (s.fn f).reading = some a → (s.fn f).again = false → (s.fn f).silent = false → s.ready = true →
    (s.fn f).ignore = [] → s.ringRuns f 0 = true → p = leAt line 0 2 → r = s.fld (cmdCtrl f) cmdCtrl_RIDX →
    (p + 2 ^ 16 - r) % 2 ^ 16 ≤ 2 ^ s.fld (cmdCtrl f) cmdCtrl_SIZE →
    ∃ t, exec (.doorbellReadDone f line slots) s = .next t ∧ (t.fn f).reading = none ∧ FMap.get (fun _ => 0) (t.fn f).prod 0 = p ∧
      t.fld (cmdCtrl f) cmdCtrl_RIDX =
        (r + min (min 64 ((p + 2 ^ 16 - r) % 2 ^ 16)) (slots.filter (fun x => x.ring == 0)).length) % 2 ^ 16 ∧
      (∀ g, g ≠ f → t.fn g = s.fn g)) ∧
  (∀ v, s.open_ = true → s.fld (cmdCtrl f) cmdCtrl_EN = 0 → cmdCtrl_EN.get v = 1 →
    (4 ≤ cmdCtrl_SIZE.get v → ∃ t, exec (.ringEnable f 0 v) s = .next t ∧ t.fld (cmdCtrl f) cmdCtrl_EN = 1 ∧
      t.fld (cmdCtrl f) cmdCtrl_SIZE = cmdCtrl_SIZE.get v ∧ t.fld (cmdCtrl f) cmdCtrl_HALTED = 0 ∧
      Sets s [(cmdCtrl f, t.reg (cmdCtrl f))] t) ∧
    (cmdCtrl_SIZE.get v < 4 → ∃ t, exec (.ringEnable f 0 v) s = .next t ∧
      Sets s [(hostStatus f, hostStatus_SETUP_REFUSED.put (s.reg (hostStatus f)) 1)] t)) ∧
  (∀ v, s.open_ = true → s.fld (cmdCtrl f) cmdCtrl_EN = 1 → cmdCtrl_EN.get v = 0 →
    cmdCtrl_SIZE.get v = s.fld (cmdCtrl f) cmdCtrl_SIZE → ∃ t, exec (.ringDisable f 0 v) s = .next t ∧
      t.fld (cmdCtrl f) cmdCtrl_EN = 0 ∧ (t.fn f).cmds = (s.fn f).cmds ∧
      (t.fn f).ignore = (if (s.fn f).reading.isSome then 0 :: (s.fn f).ignore else (s.fn f).ignore) ∧
      Sets { s with fns := t.fns } [(cmdCtrl f, t.reg (cmdCtrl f))] t)

/-- R447–R449, R458, R463: the oldest event of a function is written as its next record, or counted as lost, and announced on the vector
of its source: at once, or at the end of the vector's interval, or when its mask clears. That a record due while the ring is disabled counts
in no overflow record is the model's reading (log entry 93). -/
def Obligations.EventRecords : Prop := ∀ (s : State) (f : Nat), f < 8 →
  (∀ e rest v, s.queueOf f = e :: rest → (s.fn f).silent = false → s.open_ = true → v = s.vectorOf f e.source →
    (s.evtRoom f = true → (s.fn f).lostNow = 0 → ∃ t, exec (.eventRecordWrite f) s = .next t ∧ t.queueOf f = rest ∧
      (∀ g, g ≠ f → t.queueOf g = s.queueOf g) ∧ t.reg (evSeqNext f) = s.reg (evSeqNext f) + 1 ∧
      t.fld (evtCtrl f) evtCtrl_WIDX = (s.fld (evtCtrl f) evtCtrl_WIDX + 1) % 2 ^ 16 ∧
      Out.hostWrite f (s.pair (evtBaseLo f) (evtBaseHi f)
          + 32 * (s.fld (evtCtrl f) evtCtrl_WIDX % 2 ^ s.fld (evtCtrl f) evtCtrl_SIZE))
        (recordBytes e (s.reg (evSeqNext f)).toNat false) ∈ t.out ∧
      ((s.fn f).mayMsix v = true → (s.fn f).holding.contains v = false ∨ s.fld (evtCtrl f) evtCtrl_HOLDOFF = 0 → Out.msix f v ∈ t.out) ∧
      ((s.fn f).mayMsix v = false → v ∈ (t.fn f).msixPend)) ∧
    (s.evtRoom f = false → ∃ t, exec (.eventRecordWrite f) s = .next t ∧ t.queueOf f = rest ∧ t.out = s.out ∧
      t.reg (evSeqNext f) = s.reg (evSeqNext f) + 1 ∧ t.reg (evtLost f) = s.reg (evtLost f) + 1 ∧
      (t.fn f).lostNow = (s.fn f).lostNow + s.fld (evtCtrl f) evtCtrl_EN)) ∧
  (∀ v, v ∈ (s.fn f).holding → (s.fn f).mayMsix v = true → (s.fn f).silent = false → FMap.get (fun _ => 0) (s.fn f).holdEnd v ≤ s.time.now → ∃ t, exec (.holdoffExpiry f v) s = .next t ∧
    (v ∈ (s.fn f).owed → t.out = .msix f v :: s.out) ∧
    (v ∉ (s.fn f).owed → t.out = s.out ∧ v ∉ (t.fn f).holding) ∧ v ∉ (t.fn f).owed ∧ { t with fns := s.fns, out := s.out } = s) ∧
  (∀ v, v < 64 → (s.fn f).silent = false → (s.fn f).msixOn = true → (s.fn f).msixMask = false → (s.fn f).msixPend = [v] → (s.fn f).holding.contains v = false →
    ∃ t, exec (.msixUnmask f (some v)) s = .next t ∧ t.out = .msix f v :: s.out ∧ (t.fn f).msixPend = [] ∧
      { t with fns := s.fns, out := s.out } = s)

/-- R265–R269, R277, R280, R293: a graph that passes the admission checks is admitted with its start tick, and a new version of one with
its change tick; one that fails a check is refused with its code and item, and no graph is touched. -/
def Obligations.GraphAdmission : Prop := ∀ (s : State) (f : Nat) (b : List Byte) (d : HostDesc) (h len : Nat) (file : GraphFile),
  h = d.param 0 % 2 ^ 8 → len = leAt b 12 4 → graphFits d b = true → s.wheelTurn f d = true → s.boot.hold = false →
  parseGraph b = .inr file →
  (CommandReady s f 1 d → h ≠ 0 → s.graphAt f h = none → (s.graphs.filter (fun g => g.fn == f)).length < 4 →
    ∀ bid, bid = (s.judgeGraph ⟨f, h, file, [], [], [], [], [], []⟩ true false).2 →
    (∀ code item, bid.verdict = some (code, item) → ∃ t, exec (.graphSubmit f b) s = .next t ∧ t.wheel = s.wheel ∧
      Completed s t f d 7 code item len 0 ∧ Heard t 858 2 h (f + 1)) ∧
    (bid.verdict = none → bid.handle = h → bid.fn = f → d.tick = 0 ∨ s.earliest bid ≤ d.tick →
      ∃ t g, exec (.graphSubmit f b) s = .next t ∧ t.graphAt f h = some g ∧ g.phase = .admitted ∧ g.elems = bid.elems ∧
        g.edges = bid.edges ∧ g.start = max (s.earliest bid) d.tick ∧ Heard t 858 1 h (f + 1))) ∧
  (CommandReady s f 2 d → ∀ g bid, s.graphAt f h = some g →
    bid = (s.judgeGraph ⟨f, h, file, g.elems, g.edges, [], [], [], []⟩ false (g.change.isSome || g.phase == .stopping)).2 →
    (∀ code item, bid.verdict = some (code, item) → ∃ t, exec (.graphChange f b) s = .next t ∧ t.wheel = s.wheel ∧
      Completed s t f d 7 code item len 0 ∧ Heard t 858 2 h (f + 1)) ∧
    (bid.verdict = none → bid.handle = h → bid.fn = f → d.tick = 0 ∨ s.earliest bid ≤ d.tick →
      ∃ t g' c, exec (.graphChange f b) s = .next t ∧ t.graphAt f h = some g' ∧ g'.change = some c ∧ c.elems = bid.elems ∧
        c.edges = bid.edges ∧ c.at_ = max (s.earliest bid) d.tick ∧ g'.elems = g.elems ∧ Heard t 858 1 h (f + 1)))

/-- R283–R285, R291: a running graph is given its stop tick, two ticks on where none is asked for; the heat policy waits for the next
boundary and is refused outside its ranges; the placement map of a graph is written to the host. -/
def Obligations.WheelCommands : Prop := ∀ (s : State) (f : Nat) (d : HostDesc) (h : Nat), h = d.param 0 % 2 ^ 8 →
  (CommandReady s f 3 d → s.wheelTurn f d = true → ∀ g, s.graphAt f h = some g → g.phase = .running → g.stopAt = none → g.change = none →
    (d.tick = 0 ∨ s.time.tick + 2 ≤ d.tick) → ∃ t g' n, exec (.graphStop f) s = .next t ∧
      n = (if d.tick = 0 then s.time.tick + 2 else d.tick) ∧ t.graphAt f h = some g' ∧ g' = { g with stopAt := some n } ∧
      Completed s t f d 0 0 noItem 0 n ∧ Heard t 858 1 h (f + 1) ∧
      { t with wheel := { t.wheel with graphs := s.wheel.graphs }, fns := s.fns, out := s.out, events := s.events } = s) ∧
  (CommandReady s f 5 d → ∀ hot hyst, hot = (d.param 0 / 2 ^ 8) % 2 ^ 8 → hyst = (d.param 0 / 2 ^ 16) % 2 ^ 8 →
    (60 ≤ hot → hot ≤ 110 → 2 ≤ hyst → hyst ≤ 20 → ∃ t, exec (.wheelConfig f) s = .next t ∧
      t.wheel.setNext = some (d.param 0 % 2, hot, hyst) ∧ t.wheel.hot = s.wheel.hot ∧ t.wheel.graphs = s.wheel.graphs ∧
      Completed s t f d 0 0 0 0 (s.time.tick + 1)) ∧
    (hot < 60 ∨ 110 < hot ∨ hyst < 2 ∨ 20 < hyst → ∃ t, exec (.wheelConfig f) s = .next t ∧ t.wheel = s.wheel ∧
      Completed s t f d 2 0 0 0 s.time.tick)) ∧
  (CommandReady s f 4 d → s.wheelTurn f d = true → ∀ g n, s.wheel.graphs.find? (fun g => g.fn == f && g.handle == h) = some g →
    n = 32 * (1 + g.elems.length + g.edges.length) → n ≤ d.length → ∃ t, exec (.mapRead f) s = .next t ∧
      Out.hostWrite f d.buffer (s.mapBytes g) ∈ t.out ∧ Completed s t f d 0 0 (g.elems.length + g.edges.length) n s.time.tick ∧
      { t with fns := s.fns, out := s.out, events := s.events } = s)

/-- R277, R286, R290: the ends of a core's load and of a heat move's copy, and the new routes that a failed port calls for. -/
def Obligations.WheelEvents : Prop := ∀ (s : State) (n : Nat),
  (n < s.part.cores → s.coreState n = 2 → (s.core n).home = none → ∃ t, exec (.coreLoadDone n) s = .next t ∧
    t.core n = { s.core n with loaded := true } ∧ (∀ m, m ≠ n → t.core m = s.core m) ∧ { t with cores := s.cores } = s) ∧
  (∀ m k r, s.wheel.moves.find? (fun m => m.begun && m.new == 0x4000 + n) = some m → (s.core n).task = some k →
    (s.core n).kept.getLast? = some r → ∃ t, exec (.heatMoveCopyDone n) s = .next t ∧ t.wheel.moves = s.wheel.moves.erase m ∧
      (t.core n).running = true ∧ (t.core n).ended = false ∧ (t.core n).runTick = r.tick ∧ (t.core n).pc = 0 ∧
      (t.core n).bank = zeroBank ∧ (∀ m, m ≠ n → t.core m = s.core m)) ∧
  (s.deogen = true → ∃ t, exec .reroute s = .next t ∧
    { t with wheel := { t.wheel with reroutes := s.wheel.reroutes } } = s ∧ (∃ l, t.wheel.reroutes = s.wheel.reroutes ++ l ∧
      (∀ r ∈ l, s.broken r.2.2.1 = true ∧ ∃ g ∈ s.graphs, r.1 = g.fn ∧ r.2.1 = g.handle ∧
        (r.2.2.1 ∈ g.edges ∨ ∃ c, g.change = some c ∧ r.2.2.1 ∈ c.edges))) ∧
    (∀ g e, g ∈ s.graphs → g.phase ≠ .stopping → e ∈ g.edges ∨ (∃ c, g.change = some c ∧ e ∈ c.edges) → s.broken e = true →
      ∃ r ∈ t.wheel.reroutes, r.1 = g.fn ∧ r.2.1 = g.handle ∧ r.2.2.1 = e))

/-- R311, R322, R323, R327: the commands to a sagger by F0 or its owner. -/
def Obligations.SaggerCommands : Prop := ∀ (s : State) (f g : Nat) (v : Word), g < s.part.saggers → s.open_ = true → s.maySag f g = true →
  (sagCmd_CAP_ARM.get v = 0 → sagCmd_CAP_CANCEL.get v = 0 → sagCmd_RESTART.get v = 1 → s.fired g = true →
    ∃ t, exec (.restart f g v) s = .next t ∧ (∀ h, t.sag h = if h = g then { s.sag g with restart := true } else s.sag h) ∧
      { t with sags := s.sags } = s) ∧
  (sagCmd_CAP_ARM.get v = 1 → sagCmd_CAP_CANCEL.get v = 0 → sagCmd_RESTART.get v = 0 →
    (s.armError g = 0 → ∃ t, exec (.capArm f g v) s = .next t ∧ (t.sag g).armed = true ∧ (t.sag g).armedAt = s.time.now ∧ (t.sag g).setting = s.reg (capCtrl g) ∧
      (t.sag g).want = s.pair (capTickLo g) (capTickHi g) ∧ (∀ h, h ≠ g → t.sag h = s.sag h) ∧
      Sets { s with sags := t.sags } [(capStatus g, capStatus_STATE.put (s.reg (capStatus g)) 1)] t) ∧
    (s.armError g ≠ 0 → ∃ t, exec (.capArm f g v) s = .next t ∧
      Tells s [(capStatus g, capStatus_REFUSED.put (capStatus_ERR.put (s.reg (capStatus g)) (s.armError g)) 1)] (744 + g) 3 [] 15 t)) ∧
  (sagCmd_CAP_ARM.get v = 0 → sagCmd_CAP_CANCEL.get v = 1 → sagCmd_RESTART.get v = 0 → (s.sag g).armed = true →
    ∃ t, exec (.capCancel f g v) s = .next t ∧ (t.sag g).armed = false ∧ (∀ h, h ≠ g → t.sag h = s.sag h) ∧
      Sets { s with sags := t.sags } [(capStatus g, capStatus_STATE.put (s.reg (capStatus g)) (s.sag g).was)] t) ∧
  (∀ a w, a = s.fld (capAddr g) capAddr_ADDR → w = (if a < 1344 then FMap.get (fun _ => 0) (s.sag g).plane a else 0) →
    ∃ t, exec (.capDataRead f g) s = .next t ∧ t.out = .readData f w :: s.out ∧
      Sets { s with out := t.out } [(capAddr g, capAddr_ADDR.put (s.reg (capAddr g)) (a + 1))] t)

/-- R300, R301, R304, R312–R315, R318, R324: what the design in a sagger brings about: a captured plane, words taken and pushed, event
lines, and the edges of its clock nets, on which alone a flip-flop changes, and no RAM while writes are blocked. -/
def Obligations.DesignEvents : Prop := ∀ (s : State) (g : Nat), g < s.part.saggers →
  (∀ plane : List Word, s.designRuns g = true → (s.sag g).armed = true → s.captureDue g = true →
    ∃ t, exec (.captureEdge g plane) s = .next t ∧
    (t.sag g).armed = false ∧ (∀ i, i < 1344 → FMap.get (fun _ => 0) (t.sag g).plane i = s.planeWord g plane i) ∧
    (∀ i b, i < 64 → b < 32 → s.netRises g ((s.fab g).num (.clock ((32 * i + b) / 16) ((32 * i + b) % 16)) 2) = false →
      (FMap.get (fun _ => 0) (t.sag g).plane i).getLsbD b = s.ffOf g (32 * i + b)) ∧
    (∀ h, h ≠ g → t.sag h = s.sag h) ∧
    Tells { s with sags := t.sags }
      [(capStatus g, capStatus_SEQ.put (capStatus_STATE.put (s.reg (capStatus g)) 2) (s.fld (capStatus g) capStatus_SEQ + 1)),
       (capStampLo g, BitVec.ofNat 32 s.time.tick), (capStampSub g, BitVec.ofNat 32 s.time.sub)] (744 + g) 1 [] 15 t) ∧
  (∀ nets, let t := s.clockDesign g nets
    (∀ x m, x < 128 → m < 16 → ((s.fab g).num (.clock x m) 2 ∉ nets → t.ffOf g (16 * x + m) = s.ffOf g (16 * x + m)) ∧
      ((s.fab g).num (.clock x m) 2 ∈ nets → s.designLive g = true → (s.fab g).cfg (.enableUsed x m) = false →
        (s.fab g).cfg (.setUsed x m) = false → t.ffOf g (16 * x + m) = (s.fab g).data x m)) ∧
    ((s.sag g).released.contains 3 = false → (t.sag g).ram = (s.sag g).ram) ∧ (∀ h, h ≠ g → t.sag h = s.sag h)) ∧
  (∀ p w pops q, p < 16 → s.fired g = true → s.inputBound g p = true → q = (s.inFifo g p).drop (pops - FMap.get (fun _ => 0) (s.sag g).popped p) →
    (q.length < 512 → ∃ t, exec (.fabricInputWord g p w pops) s = .next t ∧
      (∀ k, t.inFifo g k = if k = p then q ++ [w] else s.inFifo g k) ∧
      (∀ h, h ≠ g → t.sag h = s.sag h) ∧ { t with sags := s.sags } = s) ∧
    (512 ≤ q.length → ∃ t, exec (.fabricInputWord g p w pops) s = .next t ∧
      t.inFifo g p = q ∧ t.reg (sagPort g) = Fld.put ⟨p, p⟩ (s.reg (sagPort g)) 1 ∧
      (p ∉ (s.sag g).said → Heard t (744 + g) 4 p 15))) ∧
  (∀ p w n full, p < 16 → s.designRuns g = true → s.muted g p = false → n = FMap.get (fun _ => 0) (s.sag g).pushed p →
    (s.outFull g p = true → ∃ t, exec (.push g p w full) s = .next t ∧
      t.reg (sagPort g) = Fld.put ⟨16 + p, 16 + p⟩ (s.reg (sagPort g)) 1 ∧
      FMap.get (fun _ => 0) (t.sag g).pushed p = n ∧ (32 + p ∉ (s.sag g).said → Heard t (744 + g) 6 p 15)) ∧
    (s.streamsFrom (0x6000 + g) (16 + p) = [] → ∃ t, exec (.push g p w full) s = .next t ∧ t.net = s.net ∧ t.regs = s.regs ∧
      t.events = s.events) ∧
    (∀ e, s.outFull g p = false → s.streamsFrom (0x6000 + g) (16 + p) = [e] → e.words ≤ n → ∃ t, exec (.push g p w full) s = .next t ∧ t.net = s.net ∧
      t.reg (sagPort g) = Fld.put ⟨16 + p, 16 + p⟩ (s.reg (sagPort g)) 1 ∧ (16 + p ∉ (s.sag g).said → Heard t (744 + g) 5 p 15)) ∧
    (s.outFull g p = false → ∃ t, exec (.push g p w full) s = .next t ∧ FMap.get (fun _ => 0) (t.sag g).pushed p = n + 1 ∧
      (∀ e k, s.streamsFrom (0x6000 + g) (16 + p) = [e] → n < e.words → k = packetKey p e →
        (FMap.get (fun _ => []) (s.sag g).pkt k).length < 511 →
        FMap.get (fun _ => []) (t.sag g).pkt k = FMap.get (fun _ => []) (s.sag g).pkt k ++ [w] ∧ t.net = s.net) ∧
      (∀ h, h ≠ g → t.sag h = s.sag h))) ∧
  (∀ i d, i < 4 → s.outLive g = true → bitOf (s.fld (sagEvt g) sagEvt_EN) i = 1 →
    (i ∉ (s.sag g).lines → ∃ t, exec (.eventLineRise g i d) s = .next t ∧ i ∈ (t.sag g).lines ∧
      FMap.get (fun _ => 0) (t.sag g).rises i = 0 ∧
      Tells { s with sags := t.sags } [] (744 + g) 7 [i, d % 2 ^ 16, FMap.get (fun _ => 0) (s.sag g).rises i] 15 t) ∧
    (i ∈ (s.sag g).lines → ∃ t, exec (.eventLineRise g i d) s = .next t ∧
      FMap.get (fun _ => 0) (t.sag g).rises i = min 255 (FMap.get (fun _ => 0) (s.sag g).rises i + 1) ∧ { t with sags := s.sags } = s))

/-- R296, R308, R311, R355, R384: the release of a restart's holds, the loss and return of a fabric PLL, and the power-down of a sagger, which
waits for what its NIs still have to do. -/
def Obligations.FabricClocks : Prop := ∀ s : State,
  (∀ g net, g < s.part.saggers → s.designRuns g = true → net ∈ (s.sag g).held →
    s.holdOver g net = true →
    ∃ t, exec (.restartHoldRelease g net) s = .next t ∧ (∀ j, j ∈ (t.sag g).held ↔ j ∈ (s.sag g).held ∧ j ≠ net) ∧
      (∀ h, h ≠ g → t.sag h = s.sag h) ∧ ((t.sag g).held = [] → Tells { s with sags := t.sags } [] (744 + g) 8 [] 15 t) ∧
      ((t.sag g).held ≠ [] → { t with sags := s.sags } = s)) ∧
  (∀ p, p < 2 → s.fld (fpllStatus p) fpllStatus_LOCK = 1 → ∃ t, exec (.fabricPllUnlock p) s = .next t ∧
    t.fld (fpllStatus p) fpllStatus_LOCK = 0 ∧ (∀ g ∈ s.usersOfPll p, Heard t (744 + g) 9 0 15) ∧
    (∀ g, (t.sag g).armed = ((s.sag g).armed && !((s.usersOfPll p).contains g &&
      decide (s.netSource g (s.capNet g) = 4 + p))))) ∧
  (∀ p, p < 2 → s.fld (fpllStatus p) fpllStatus_FREQ ≠ 0 → ∃ t, exec (.fabricPllRelock p) s = .next t ∧
    Sets s [(fpllStatus p, fpllStatus_LOCK.put (s.reg (fpllStatus p)) 1)] t) ∧
  (∀ g a, g < s.part.saggers → FMap.get (fun _ => none) s.loader.abortAt g = some a → s.saggerState g = 1 → s.loader.load = none →
    a + 200000000 ≤ s.tickStart → s.powerOf (16 + g) = .on → (∃ r ∈ s.noc.reqs, r.ni = niSagger g 0) →
    ∃ t, exec (.saggerPowerDown g) s = .next t ∧ t.powerOf (16 + g) = .draining ∧ t.saggerState g = 1 ∧ (t.sag g) = s.sag g) ∧
  (∀ g a, g < s.part.saggers → FMap.get (fun _ => none) s.loader.abortAt g = some a → s.saggerState g = 1 → s.loader.load = none →
    a + 200000000 ≤ s.tickStart → s.powerOf (16 + g) = .on → (∀ r ∈ s.noc.reqs, niDomain r.ni ≠ 16 + g) →
    (∀ p ∈ s.net, niDomain p.dst ≠ 16 + g) → ∃ t, exec (.saggerPowerDown g) s = .next t ∧ t.saggerState g = 0 ∧
      t.fld (sagState g) sagState_POWERED = 0 ∧ t.powerOf (16 + g) = .off ∧
      t.loader.cells = s.loader.cells.filter (fun c => c.1 / 0x80000 != g + 1) ∧
      FMap.get (fun _ => none) t.loader.abortAt g = none)
/-! ### Pins, peripherals and trigger lines (R480–R509) -/

/-- R12, R483, R484, R488, R491, R492, R494, R495: writes of a bank change the bits of the pins that the function may write, and no
other, and reach the pads at the next pin-clock edge; a bit of IRQ_STAT that is set at the instant of its clearing stays, and a level
that still holds sets a cleared one again at that edge; a level is
accepted; a function switch passes its two edges; a bank's supply goes and comes. -/
def Obligations.PinCommands : Prop := ∀ s : State,
  let written (t : State) (o : Nat) : Prop := t.padReg o = s.padReg o ∧
    (∀ k, FMap.get (fun _ => none) t.pins.late k = if k = o then some (s.padReg o, s.nextPinEdge) else FMap.get (fun _ => none) s.pins.late k) ∧
    Sets { s with pins := { s.pins with late := t.pins.late } } [(o, t.reg o)] t
  (∀ f b v, b < 14 → s.open_ = true → (∃ i, i < 32 ∧ ownerMay f (s.ownPin (32 * b + i)) = true) →
    (∃ t, exec (.dataSet f b v) s = .next t ∧ (∀ i, i < 32 → bitOf (t.reg (dataOut b)).toNat i =
        if ownerMay f (s.ownPin (32 * b + i)) = true ∧ bitOf v.toNat i = 1 then 1 else bitOf (s.reg (dataOut b)).toNat i) ∧
      written t (dataOut b)) ∧
    (∃ t, exec (.dataClr f b v) s = .next t ∧ (∀ i, i < 32 → bitOf (t.reg (dataOut b)).toNat i =
        if ownerMay f (s.ownPin (32 * b + i)) = true ∧ bitOf v.toNat i = 1 then 0 else bitOf (s.reg (dataOut b)).toNat i) ∧
      written t (dataOut b)) ∧
    (∀ x ∈ [0, 0xC], ∃ t, exec (.gpioBankWrite f (0x600000 + 0x1000 * b + x) v) s = .next t ∧
      (∀ i, i < 32 → bitOf (t.reg (0x600000 + 0x1000 * b + x)).toNat i =
        if ownerMay f (s.ownPin (32 * b + i)) = true then bitOf v.toNat i else bitOf (s.reg (0x600000 + 0x1000 * b + x)).toNat i) ∧
      written t (0x600000 + 0x1000 * b + x)) ∧
    (∃ t, exec (.gpioBankWrite f (0x600000 + 0x1000 * b + 0x14) v) s = .next t ∧
      (∀ i, i < 32 → bitOf (t.reg (irqStat b)).toNat i =
        if ownerMay f (s.ownPin (32 * b + i)) = true ∧ bitOf v.toNat i = 1 ∧ bitOf (s.justSet (irqStat b)).toNat i = 0 then 0
        else bitOf (s.reg (irqStat b)).toNat i) ∧
      (∀ p, p ∈ t.pins.rearm ↔ p ∈ s.pins.rearm ∨ (p / 32 = b ∧ ownerMay f (s.ownPin p) = true ∧ bitOf v.toNat (p % 32) = 1)) ∧
      Sets { s with pins := { s.pins with rearm := t.pins.rearm, rearmAt := s.nextPinEdge } } [(irqStat b, t.reg (irqStat b))] t)) ∧
  (∀ p l c, p < 448 → s.pinLive p = true → c = s.padCfg p pinCfg_IRQ →
    ∃ t, exec (.debounceAccept p l) s = .next t ∧ (∀ k, t.pinLevel k = if k = p then l else s.pinLevel k) ∧
      (s.pinLevel p ≠ l → (c = 1 ∧ l = true) ∨ (c = 2 ∧ l = false) ∨ c = 3 →
        bitOf (t.reg (irqStat (p / 32))).toNat (p % 32) = 1 ∧
        (s.padCfg p pinCfg_IE = 1 → p ∉ s.pins.said →
          Heard t p 1 (FMap.get (fun _ => 0) s.pins.more p) 15)) ∧
      (s.pinLevel p = l ∨ c = 0 → ∀ b, t.reg (irqStat b) = s.reg (irqStat b)) ∧ t.time = s.time) ∧
  (∀ p x, p < 448 → s.switchOf p = some x → x.edge1 ≤ s.time.now →
    (s.time.now < x.edge2 → ∃ t, exec (.pinFunctionSwitch p) s = .next t ∧ t.switchOf p = some { x with dropped := true } ∧
      (∀ k, t.pinAlt k = s.pinAlt k) ∧ (x.dropped = false → bitOf (t.reg (irqStat (p / 32))).toNat (p % 32) = 0)) ∧
    (x.edge2 ≤ s.time.now → ∃ t w, exec (.pinFunctionSwitch p) s = .next t ∧ w = s.reg (pinCfg (p / 32) (p % 32)) ∧
      t.switchOf p = none ∧ t.pinAlt p = pinCfg_ALT.get w ∧ t.pinAnalog p = (pinCfg_ANALOG.get w == 1) ∧
      (∀ k, k ≠ p → t.switchOf k = s.switchOf k ∧ t.pinAlt k = s.pinAlt k ∧ t.pinAnalog k = s.pinAnalog k))) ∧
  (∀ b, b < 14 →
    (∃ t, exec (.vccioLow b) s = .next t ∧ t.fld (bankStatus b) bankStatus_VCCIO_OK = 0 ∧
      (∀ o, o ≠ bankStatus b → o ≠ trigLevel → t.reg o = s.reg o) ∧ { t with regs := s.regs, pins := s.pins } = s) ∧
    (∃ t, exec (.vccioOk b) s = .next t ∧
      Sets { s with pins := t.pins } [(bankStatus b, bankStatus_VCCIO_OK.put (s.reg (bankStatus b)) 1)] t))

/-- R498, R506, R509: the SPI and I²C controllers and the UARTs: their FIFOs, and the events of their transfers, on the lowest pin that
carries one of the unit's signals. -/
def Obligations.SerialUnits : Prop := ∀ (s : State) (u : Nat),
  let notes (t : State) (kind reason : Nat) : Prop := ∀ p, lowest 448 (s.carries kind u) = some p → Heard t p reason u 15
  (u < 4 → s.open_ = true →
    (∀ v, (s.spiNow u).queue.length < 16 → ∃ t, exec (.spiTxdata 0 u v) s = .next t ∧
      (t.spiTxOf u).sent + (t.spiTxOf u).queue.length = (s.spiNow u).sent + (s.spiNow u).queue.length + 1 ∧
      (s.bit (spiCtrl u) spiCtrl_EN = true → t.bit (spiStatus u) spiStatus_BUSY = true) ∧
      (s.bit (spiCtrl u) spiCtrl_EN = false → (t.spiTxOf u).queue.map (·.1)
        = (s.spiNow u).queue.map (·.1) ++ [v.toNat % 2 ^ (s.fld (spiCtrl u) spiCtrl_BITS + 1)]) ∧
      Sets { s with pins := t.pins } [(spiStatus u, t.reg (spiStatus u))] t) ∧
    (∀ v, 16 ≤ (s.spiNow u).queue.length → ∃ t, exec (.spiTxdata 0 u v) s = .next t ∧ (t.spiTxOf u) = s.spiNow u ∧
      Sets { s with pins := t.pins } [(spiStatus u, spiStatus_OVF.put (s.reg (spiStatus u)) 1)] t) ∧
    (∀ f, ∃ t, exec (.spiRxdataRead f u) s = .next t ∧ t.out = .readData f (BitVec.ofNat 32 ((s.spiRxOf u).headD 0)) :: s.out ∧
      (∀ k, t.spiRxOf k = if k = u then (s.spiRxOf u).tail else s.spiRxOf k) ∧
      { t with out := s.out, pins := { t.pins with spiRx := s.pins.spiRx } } = s) ∧
    (∀ v, s.bit (i2cCtrl u) i2cCtrl_EN = true → s.bit (i2cStatus u) i2cStatus_BUSY = false → i2cCmd_COUNT.get v ≤ 16 →
      ∃ t, exec (.i2cCmd 0 u v) s = .next t ∧
      (∀ k, t.i2cOf k = if k = u then { s.i2cOf u with cmd := some v } else s.i2cOf k) ∧
      Sets { s with pins := { s.pins with i2c := t.pins.i2c } } [(i2cStatus u, i2cStatus_BUSY.put (s.reg (i2cStatus u)) 1)] t) ∧
    (∀ v, ∃ t, exec (.i2cDataWrite 0 u v) s = .next t ∧ (∀ k, t.i2cOf k = if k = u ∧ (s.i2cOf u).tx.length < 16
        then { s.i2cOf u with tx := (s.i2cOf u).tx ++ [BitVec.ofNat 8 v.toNat] } else s.i2cOf k) ∧
      { t with pins := { t.pins with i2c := s.pins.i2c } } = s) ∧
    (∀ f, ∃ t, exec (.i2cDataRead f u) s = .next t ∧
      t.out = .readData f (BitVec.ofNat 32 ((s.i2cOf u).rx.headD 0).toNat) :: s.out ∧
      (∀ k, t.i2cOf k = if k = u then { s.i2cOf u with rx := (s.i2cOf u).rx.tail } else s.i2cOf k) ∧
      { t with out := s.out, pins := { t.pins with i2c := s.pins.i2c } } = s)) ∧
  (u < 4 → s.bit (spiStatus u) spiStatus_BUSY = true → (s.spiNow u).queue = [] → (s.spiNow u).last ≤ s.time.now → ∀ rx : List Word,
    ∃ t, exec (.spiDone u rx) s = .next t ∧ t.bit (spiStatus u) spiStatus_BUSY = false ∧ t.bit (spiStatus u) spiStatus_DONE = true ∧
      (t.spiTxOf u).sent = 0 ∧ t.spiRxOf u = s.spiRxOf u ++ ((List.range (s.spiNow u).sent).map
        (fun i => (rx.getD i 0).toNat % 2 ^ s.spiBits u)).take (16 - (s.spiRxOf u).length) ∧
      (16 < (s.spiRxOf u).length + (s.spiNow u).sent → 0 < (s.spiNow u).sent → t.bit (spiStatus u) spiStatus_OVF = true) ∧
      notes t 1 0x10) ∧
  (∀ v n, u < 4 → (s.i2cOf u).cmd = some v → n = i2cCmd_COUNT.get v →
    (∀ rx : List Byte, ∃ t, exec (.i2cDone u rx) s = .next t ∧ (t.i2cOf u).cmd = none ∧
      (t.i2cOf u).rx = (if i2cCmd_READ.get v = 1 then ((s.i2cOf u).rx ++ rx.take n).take 16 else (s.i2cOf u).rx) ∧
      (t.i2cOf u).tx = (if i2cCmd_READ.get v = 1 then (s.i2cOf u).tx else (s.i2cOf u).tx.drop n) ∧
      t.reg (i2cStatus u) = i2cStatus_DONE.put (i2cStatus_BUSY.put (s.reg (i2cStatus u)) 0) 1 ∧ notes t 2 0x11) ∧
    (∀ arb, ∃ t, exec (.i2cError u arb) s = .next t ∧ t.i2cOf u = { s.i2cOf u with cmd := none } ∧
      t.reg (i2cStatus u) = (if arb = true then i2cStatus_ARB_LOST else i2cStatus_NACK).put
        (i2cStatus_BUSY.put (s.reg (i2cStatus u)) 0) 1 ∧ notes t 2 0x12)) ∧
  (u < 2 → s.open_ = true →
    (∀ v, (s.uartNow u).queue.length < 16 → ∃ t, exec (.uartTxdata 0 u v) s = .next t ∧
      (t.uartTxOf u).sent + (t.uartTxOf u).queue.length = (s.uartNow u).sent + (s.uartNow u).queue.length + 1 ∧
      (s.uartGo u = false → (t.uartTxOf u).queue.map (·.1) = (s.uartNow u).queue.map (·.1) ++ [v.toNat % 2 ^ 8]) ∧
      { t with pins := s.pins } = s) ∧
    (∀ v, 16 ≤ (s.uartNow u).queue.length → ∃ t, exec (.uartTxdata 0 u v) s = .next t ∧ t.uartTxOf u = s.uartNow u ∧
      Sets { s with pins := t.pins } [(uartStatus u, uartStatus_OVF.put (s.reg (uartStatus u)) 1)] t) ∧
    (∀ f, (s.uartRxOf u = [] → exec (.uartRxdataRead f u) s = .next { s with out := .readData f 0 :: s.out }) ∧
      (∀ b rest, s.uartRxOf u = b :: rest → ∃ t, exec (.uartRxdataRead f u) s = .next t ∧
        t.out = .readData f (BitVec.ofNat 32 (0x100 + b.toNat)) :: s.out ∧ (∀ k, t.uartRxOf k = if k = u then rest else s.uartRxOf k) ∧
        { t with out := s.out, pins := { t.pins with uartRx := s.pins.uartRx } } = s))) ∧
  (u < 2 → s.bit (uartCtrl u) uartCtrl_EN = true →
    (∀ b, (s.uartRxOf u).length < 16 → ∃ t, exec (.uartByteReceived u b true true) s = .next t ∧
      t.uartRxOf u = s.uartRxOf u ++ [BitVec.ofNat 8 (b.toNat % 2 ^ (8 - s.fld (uartCtrl u) uartCtrl_BITS7))] ∧
      ((s.uartRxOf u).length = 7 → notes t 3 0x13) ∧ { t with pins := { t.pins with uartRx := s.pins.uartRx }, events := s.events } = s) ∧
    (∀ b fr pa, 16 ≤ (s.uartRxOf u).length → ∃ t, exec (.uartByteReceived u b fr pa) s = .next t ∧ t.pins = s.pins ∧
      t.bit (uartStatus u) uartStatus_OVF = true ∧ (fr = false → t.bit (uartStatus u) uartStatus_FRAME = true) ∧
      (pa = false → t.bit (uartStatus u) uartStatus_PARITY = true) ∧ notes t 3 0x14)) ∧
  (u < 2 → s.uartRxOf u ≠ [] → ∃ t, exec (.uartRxIdle u) s = .next t ∧ notes t 3 0x13 ∧ { t with events := s.events } = s)

/-- R318, R500–R505: the timer channels' compare instants and pulses, and the levels of the trigger lines, the pin trigger inputs and the
saggers' trigger outputs. What a rise of a line does to the capture streams is the rule of `CaptureCommands`. -/
def Obligations.TimersAndTriggers : Prop := ∀ s : State,
  (∀ n v at_, n < 16 → s.open_ = true → tmrCtrl_EDGE.get v ≠ 3 →
    at_ = (s.pair (cmpTickLo n) (cmpTickHi n), ((s.reg (cmpSub n)).toNat + 9) / 10 * 10) →
    ∃ t, exec (.tmrCtrlWrite 0 n v) s = .next t ∧ (∀ k, k ≠ n → t.tmr k = s.tmr k) ∧ t.time = s.time ∧
      t.fld (tmrCtrl n) tmrCtrl_MODE = tmrCtrl_MODE.get v ∧ t.fld (tmrCtrl n) tmrCtrl_WIDTH = tmrCtrl_WIDTH.get v ∧
      (tmrCtrl_EN.get v = 1 → 2 ≤ tmrCtrl_MODE.get v →
        (stampBeforeStamp at_ (s.time.tick, s.time.sub) = false → (t.tmr n).armed = some at_) ∧
        (stampBeforeStamp at_ (s.time.tick, s.time.sub) = true → (t.tmr n).armed = none ∧
          t.bit (tmrStatus n) tmrStatus_LATE = true)) ∧
      (tmrCtrl_EN.get v = 0 → t.tmr n = ⟨none, false, none⟩)) ∧
  (∀ n k u x, n < 16 → x = s.tmr n → x.armed = some (k, u) → k < s.time.tick ∨ (k = s.time.tick ∧ u ≤ s.time.sub) →
    ∃ t, exec (.tmrCompare n) s = .next t ∧ (∀ m, m ≠ n → t.tmr m = s.tmr m) ∧ t.bit (tmrStatus n) tmrStatus_CMP = true ∧
      (s.tmrMode n = 2 → t.tmr n = ⟨none, true, some (s.time.now + 10 * s.fld (tmrCtrl n) tmrCtrl_WIDTH)⟩) ∧
      (s.tmrMode n ≠ 2 → t.tmr n = ⟨none, !x.out, none⟩) ∧
      (∀ p, lowest 448 (s.carries 4 n) = some p → Heard t p 0x16 n 15)) ∧
  (∀ n e, (s.tmr n).pulseEnd = some e → e ≤ s.time.now → ∃ t, exec (.tmrPulseEnd n) s = .next t ∧
    (∀ m, t.tmr m = if m = n then { s.tmr n with out := false, pulseEnd := none } else s.tmr m) ∧
    { t with pins := { t.pins with tmr := s.pins.tmr } } = s) ∧
  (∀ i l new, i < 8 → new = (l != (bitOf (s.cur trigIn trigIn_INV) i == 1)) →
    let lined : State := { s with pins := { s.pins with lines := FMap.set (fun _ => false) s.pins.lines i l } }
    let u := s.riseTriggers (lined.setReg trigLevel (Fld.put ⟨i, i⟩ (s.reg trigLevel) (flag new))) (0xD0 + i)
    (s.lineLevel i = false → new = true → bitOf (s.fld trigIn trigIn_RISE_EN) i = 1 →
      ∃ t, exec (.triggerLineEdge i l) s = .next t ∧ Tells u [] (848 + i) 1 [] 15 t) ∧
    (s.lineLevel i = true → new = false → bitOf (s.fld trigIn trigIn_FALL_EN) i = 1 →
      ∃ t, exec (.triggerLineEdge i l) s = .next t ∧ Tells u [] (848 + i) 2 [] 15 t) ∧
    (s.lineLevel i = new ∨ (new = true ∧ bitOf (s.fld trigIn trigIn_RISE_EN) i = 0) ∨
        (new = false ∧ bitOf (s.fld trigIn trigIn_FALL_EN) i = 0) →
      exec (.triggerLineEdge i l) s = .next u)) ∧
  (∀ l, let lined : State := { s with pins := { s.pins with lines := FMap.set (fun _ => false) s.pins.lines 8 l } }
    exec (.starInEdge l) s = .next (s.riseTriggers
      (lined.setReg trigLevel (Fld.put ⟨8, 8⟩ (s.reg trigLevel) (flag (l != (bitOf (s.cur trigIn trigIn_INV) 8 == 1))))) 0xD8)) ∧
  (∀ k l p, k < 16 → s.feeder (5, k, 0) = some p → ∃ t, exec (.ptiEdge k l) s = .next t ∧
    Sets s [(trigLevel, Fld.put ⟨16 + k, 16 + k⟩ (s.reg trigLevel) (flag l))] t) ∧
  (∀ g i l, g < s.part.saggers → i < 8 → s.outLive g = true → ∃ t, exec (.saggerTriggerOutputEdge g i l) s = .next t ∧
    (∀ k, FMap.get (fun _ => false) t.pins.outs k = if k = 8 * g + i then l else FMap.get (fun _ => false) s.pins.outs k) ∧
    { t with pins := { t.pins with outs := s.pins.outs } } = s)
/-! ### Owners, the fault log, functions and the link (R425–R443, R464–R479) -/

/-- R466, R471, R555, R556: F0 writes owners of channels and pins, unit by unit: a reserved code, or a unit that an admitted graph uses,
is refused and said, and nothing is in force before the boundary; and F0 acknowledges the oldest entries of the fault log. -/
def Obligations.OwnersAndAcknowledgement : Prop := ∀ (s : State) (v : Word), s.open_ = true →
  (∀ p ∈ [(true, (8 : Nat)), (false, 56)], ∀ i k cmd, i < p.2 → k = (if p.1 = true then s.ownChannels else ownPins) →
    cmd = (if p.1 = true then Instr.chOwnerWrite 0 i v else .pinOwnerWrite 0 i v) →
    ∃ t, exec cmd s = .next t ∧
      (∀ j, j < 8 → nibble (t.reg (k.written i)) j =
        if k.count ≤ 8 * i + j ∨ nibble v j = 0 ∨ (9 ≤ nibble v j ∧ nibble v j ≤ 14) ∨ s.ownUsed k (8 * i + j) = true
        then nibble (s.reg (k.written i)) j else nibble v j) ∧
      (∀ j, j < 8 → 8 * i + j < k.count → nibble v j ≠ nibble (s.reg (k.written i)) j →
        (nibble v j = 0 ∨ (9 ≤ nibble v j ∧ nibble v j ≤ 14) ∨ s.ownUsed k (8 * i + j) = true) →
        t.bit ownStatus ownStatus_REFUSED = true ∧ Heard t 860 5 (k.code + (8 * i + j)) 1) ∧
      (∀ o, o ≠ k.written i → o ≠ ownStatus → t.reg o = s.reg o) ∧ Same s { t with regs := s.regs, events := s.events }) ∧
  (∀ c n, c = s.fld flStatus flStatus_COUNT → n = min (flAck_N.get v) c → ∃ t, exec (.faultlogAck 0 v) s = .next t ∧
    t.fld flStatus flStatus_COUNT = c - n ∧ (∀ o, o ≠ flStatus → t.reg o = s.reg o) ∧
    (0 < n → t.fld flStatus flStatus_FULL = 0 ∧ t.logFullSaid = false ∧
      t.fld flStatus flStatus_OLDEST = (s.fld flStatus flStatus_OLDEST + n) % 64) ∧
    { t with regs := s.regs, logFullSaid := s.logFullSaid } = s)

/-- R425–R428, R443: a function's reset, and the loss of the link, which resets them all; a function in D3hot and back, which reaches
host memory again from the next boundary on; a link that retrains; and a read of host memory that fails: of a doorbell line, it is made again
at the next boundary, and at once where a WAKE has asked for one more. -/
def Obligations.HostFunctions : Prop := ∀ (s : State) (f : Nat), f < 8 →
  let fresh : FnSt := { idleFn with aerMask := (s.fn f).aerMask, busMaster := (s.fn f).busMaster, readSize := (s.fn f).readSize }
  (s.boot.held = false → ∃ t, exec (.functionLevelReset f) s = .next t ∧ t.fn f = fresh ∧ f ∈ t.mem.freeing ∧
    (0 < f → t.queueOf f = [] ∧ (∀ o, o < 0x1000 → t.reg (0x10000 + 0x1000 * f + o) = Regs.reset (0x10000 + 0x1000 * f + o) ∧
        t.reg (0x20000 + 0x1000 * f + o) = Regs.reset (0x20000 + 0x1000 * f + o)) ∧
      (∀ h, h ≠ f → t.fn h = s.fn h) ∧ t.loader = s.loader ∧
      (∀ g ∈ s.wheel.graphs, g.fn = f → g.phase ≠ .admitted → g.phase ≠ .stopped →
        (∀ x ∈ s.wheel.graphs, x.fn = f → x.handle = g.handle → x = g) →
        ∃ n, n ≤ s.time.tick + 1 ∧ { g with stopAt := some n } ∈ t.wheel.graphs))) ∧
  (s.boot.held = false → ∃ t, exec .linkDown s = .next t ∧ t.fn f = fresh ∧ f ∈ t.mem.freeing ∧
    (∀ u, exec (.functionLevelReset 0) s = .next u → u = t) ∧ (0 < f ∨ s.loader.load = none → t.queueOf f = [])) ∧
  (∃ t, exec (.d3hotEntry f) s = .next t ∧
    (∀ h, t.fn h = if h = f then { s.fn f with d3 := true, waking := false } else s.fn h) ∧ { t with fns := s.fns } = s) ∧
  ((s.fn f).d3 = true → ∃ t, exec (.d0Return f) s = .next t ∧
    (∀ h, t.fn h = if h = f then { s.fn f with d3 := false, waking := true } else s.fn h) ∧ (t.fn f).silent = true ∧
    { t with fns := s.fns } = s) ∧
  (∃ t, exec .linkRetrain s = .next t ∧ Tells { s with boot := { s.boot with linkSlow := true } } [] 832 5 [] 15 t) ∧
  ((s.fn f).silent = false →
    (∀ a, (s.fn f).reading = some a → ∃ t, exec (.hostReadFailure f .doorbell) s = .next t ∧ (t.fn f).retry = true ∧
      ((s.fn f).again = false → (t.fn f).reading = none ∧ t.out = s.out) ∧
      ((s.fn f).again = true → s.wantsDoorbell f = true → (t.fn f).reading = some (s.fn f).againAt ∧ t.out = .doorbellRead f :: s.out) ∧
      (t.fn f).prod = (s.fn f).prod ∧ (∀ h, h ≠ f → t.fn h = s.fn h) ∧ t.bit (hostStatus f) hostStatus_DB_ERR = true ∧
      ((s.fn f).dbSaid = false → Tells { s with fns := t.fns, out := t.out } [(hostStatus f, t.reg (hostStatus f))] (832 + 2 * f) 3 [] (f + 1) t)) ∧
    (∀ g, g < 17 → s.ringRuns f g = true → ∃ t, exec (.hostReadFailure f (.descriptor g)) s = .next t ∧
      t.ringRuns f g = false ∧
      Tells s [(ringCtrl f g, cmdCtrl_HALTED.put (s.reg (ringCtrl f g)) 1),
          (hostStatus f, (if g = 0 then hostStatus_CMD_HALT else hostStatus_DATA_HALT).put (s.reg (hostStatus f)) 1)]
        (if g = 0 then 832 + 2 * f else 833 + 2 * f) (if g = 0 then 4 else 3) [if g = 0 then 0 else 0x0F + g] (f + 1) t) ∧
    (∀ c ∈ [1, 2, 8, 0x10, 0x11], ∀ d, CommandReady s f c d → s.loader.load = none →
      ∃ t, exec (.hostReadFailure f (.buffer c)) s = .next t ∧ Completed s t f d 5 0 0 0 s.time.tick ∧ t.wheel = s.wheel))

/-! ### Temperatures and supplies (R127, R286, R562, R577–R580) -/

/-- R127, R562, R577, R579: a reading of Deogen's own is taken or refused; the ends of a hold and a trip of a die sensor are said; and a
rail that leaves its warning band, or returns, is said once. -/
def Obligations.HeatAndSupplies : Prop := ∀ s : State,
  (∀ q r rest val v, q < s.part.quads → s.injOf q = r :: rest → r.by_ = 0 → r.mon = 0 →
    s.time.bounds = r.at_ + 1 ∧ s.injDue q r ≤ s.time.now ∨
      s.time.bounds = r.at_ + 2 ∧ s.time.sub = 0 ∧ s.injDue q r = s.time.now → s.boot.trip = false → (s.standby q).isSome = true → v = sx 16 (val % 2 ^ 16) →
    ∃ t, exec (.injectedConversionDone q val) s = .next t ∧ (∀ p, t.injOf p = if p = q then rest else s.injOf p) ∧
      ((readSensor (s.sensorOf q) v s.time.bounds).1 = true → (t.sensorOf q).value = some v ∧ (t.sensorOf q).at_ = s.time.bounds ∧
        (16 * s.part.tmax < v → s.boot.warnAt = none → Heard t 863 1 q 15)) ∧
      ((readSensor (s.sensorOf q) v s.time.bounds).1 = false → (t.sensorOf q).value = (s.sensorOf q).value ∧ t.boot = s.boot)) ∧
  (s.boot.hold = true → s.boot.clearDue = false → s.boot.hotAt + 2000000000 ≤ s.time.now → ∃ t, exec .thermClear s = .next t ∧
    Tells { s with boot := { s.boot with clearDue := true } } [] 863 3 [] 15 t) ∧
  (∀ d v, d < 8 → s.boot.held = false → s.boot.trip = false → ∃ t, exec (.thermalTrip d v) s = .next t ∧
    Tells { s with boot := { s.boot with trip := true } } [] 863 4 [16 + d, ux 16 v] 15 t) ∧
  (∀ r, r < 7 → s.boot.held = false →
    (r ∉ s.boot.warned → ∃ t, exec (.supplyWarn r) s = .next t ∧
      Tells { s with boot := { s.boot with warned := r :: s.boot.warned } } [] 863 5 [r] 15 t) ∧
    (r ∈ s.boot.warned → ∃ t, exec (.supplyOk r) s = .next t ∧ (∀ x, x ∈ t.boot.warned ↔ x ∈ s.boot.warned ∧ x ≠ r) ∧
      Tells { s with boot := t.boot } [] 863 6 [r] 15 t ∧ { t.boot with warned := s.boot.warned } = s.boot))

/-! ### Resets and bring-up (R510–R537) -/

/-- R510, R512, R548: a power-on reset and a low PERST_N return every register to its reset value, but for the supplies of the pin banks and the strapped POS of
BOARD,
and keep OTP, the flash and the commands that wait (the copy of the calibration store that is being written is left erased: the model's
choice, log entry 67); PERST_N's rise frees the device
and reads its straps (R5, R422); and a warm reset begins 1 µs after its write. -/
def Obligations.DeviceResets : Prop := ∀ s : State,
  let restored (t : State) : Prop := (∀ o, (∀ b, b < 14 → o ≠ bankStatus b) → o ≠ board → t.reg o = Regs.reset o) ∧
    t.reg board = s.reg board ∧ t.boot.straps = s.boot.straps ∧ t.boot.bar2 = s.boot.bar2 ∧ t.pending = s.pending ∧
    t.part = s.part ∧ t.out = s.out ∧ t.time.now = s.time.now ∧ t.time.clock = .held ∧ t.cal.otp = s.cal.otp ∧ t.mem.data = [] ∧
    t.loader.load = none ∧ t.wheel.graphs = [] ∧ t.net = [] ∧ t.chains = [] ∧ t.cores = [] ∧
    t.events = [] ∧ (∀ a, s.cal.image.isSome = true → s.flashBusy = false → storeBase s.nextCopy ≤ a → a < storeBase s.nextCopy + 0x4024 → t.flashByte a = 0xFF) ∧
    (∀ a, s.cal.image = none ∨ s.flashBusy = true ∨ a < storeBase s.nextCopy ∨ storeBase s.nextCopy + 0x4024 ≤ a → t.flashByte a = s.flashByte a)
  (∃ t, exec .powerOnReset s = .next t ∧ restored t ∧ t.boot.held = true ∧ (∀ f, t.fn f = idleFn)) ∧
  (s.boot.held = false → ∃ t, exec (.perstN false) s = .next t ∧ restored t ∧ t.boot.held = true ∧ (∀ f, t.fn f = idleFn)) ∧
  (s.boot.held = true → ∃ t, exec (.perstN true) s = .next t ∧
    Sets { s with boot := { s.boot with held := false, t0 := s.time.now, bar2 := bitOf s.boot.straps 2 == 1 } }
      [(board, board_POS.put (s.reg board) (s.boot.straps % 4))] t) ∧
  (∀ v, s.open_ = true → s.boot.resetAt = none → resetCtrl_KEY.get v = 0xB007 → resetCtrl_DEV_RESET.get v = 1 →
    exec (.devReset 0 v) s = .next { s with boot := { s.boot with resetAt := some (s.time.now + 2000) } }) ∧
  (∀ a, s.boot.resetAt = some a → a ≤ s.time.now → s.loader.op.any (fun x => x.fw) = false → ∃ t, exec .warmResetStart s = .next t ∧
    restored t ∧ t.boot.warm = true ∧ t.open_ = false ∧
    (∀ f, f < 8 → (t.fn f).cmds = [] ∧ (t.fn f).d3 = (s.fn f).d3 ∧ (t.fn f).msixOn = (s.fn f).msixOn ∧
      (t.fn f).msixMask = (s.fn f).msixMask ∧ (t.fn f).aerMask = (s.fn f).aerMask ∧ (t.fn f).busMaster = (s.fn f).busMaster ∧
      (t.fn f).readSize = (s.fn f).readSize))

/-- R152, R514–R517, R521–R525, R530–R533: the happenings of the boot sequence, writes to the bisque channels, and a lane of Deogen that
is outvoted and reloaded. -/
def Obligations.BootSequence : Prop := ∀ s : State,
  (s.boot.held = false → s.boot.otpRead = false →
    (∃ t, exec (.otpReadDone true) s = .next t ∧ t.boot.otpRead = true ∧ t.cal.otp.ok = true ∧
      (s.fwValid 1 = false → s.fwValid 2 = false → t.bit bootStatus bootStatus_READY = true ∧ t.fld bootStatus bootStatus_STAGE = 1 ∧
        t.fld fwStatus fwStatus_RUNNING = 0 ∧ t.romAlone = true) ∧
      (s.fwValid 1 = true → s.fwValid 2 = false → t.loader.starting = 1 ∧ t.bit fwStatus fwStatus_A_VALID = true) ∧
      (s.fwValid 1 = true → s.fwValid 2 = true → t.loader.starting = if s.installSeq 1 < s.installSeq 2 then 2 else 1)) ∧
    (∃ t, exec (.otpReadDone false) s = .next t ∧ t.boot.otpRead = true ∧ t.cal.otp.ok = false ∧
      t.bit calStatus calStatus_OTP_ERR = true ∧ Heard t 857 2 0 15)) ∧
  (∀ k, k = 1 ∨ k = 2 → s.loader.starting = k →
    (∃ t, exec .firmwareStarted s = .next t ∧ t.bit bootStatus bootStatus_READY = true ∧ t.fld bootStatus bootStatus_STAGE = 1 ∧
      t.fld fwStatus fwStatus_RUNNING = k ∧ t.loader.starting = 0 ∧ t.boot.warm = false) ∧
    (s.boot.fwAt + 1000000000 ≤ s.time.now → ∃ t, exec .firmwareStartTimeout s = .next t ∧
      k ∈ t.loader.marked ∧ t.bit fwStatus (fwValidFld k) = false ∧
      (s.bit fwStatus (fwValidFld (3 - k)) = true → t.loader.starting = 3 - k) ∧
      (s.bit fwStatus (fwValidFld (3 - k)) = false → t.romAlone = true) ∧
      (s.fld flStatus flStatus_COUNT = 0 → Heard t 862 4 (k - 1) 15))) ∧
  (s.boot.held = false → s.time.clock = .held → s.bit bootStatus bootStatus_REF_WAIT = false → s.boot.t0 + 80000000 ≤ s.time.now →
    ∃ t, exec .refWait s = .next t ∧ Tells s [(bootStatus, bootStatus_REF_WAIT.put (s.reg bootStatus) 1)] 862 6 [] 15 t) ∧
  (s.bit bootStatus bootStatus_READY = true → s.boot.tested = false → s.deogen = true → ∀ slices cores,
    ∃ t, exec (.selfTestsDone slices cores) s = .next t ∧ t.boot.tested = true ∧
      (∀ x ∈ slices, x < 36 * s.part.quads → t.fld (slice (x / 36) (x % 36)) slice_STATE = 4 ∧
        t.fld (slice (x / 36) (x % 36)) slice_CAUSE = 6 ∧
        ∃ e ∈ t.pool.retired, e.quad = x / 36 ∧ e.slice = x % 36) ∧
      (∀ n ∈ cores, n < s.part.cores → t.fld (dspState n) dspState_STATE = 4 ∧ t.fld (dspState n) dspState_CAUSE = 3)) ∧
  (s.boot.tested = true → s.time.clock = .running → s.deogen = true → s.loader.load = none → s.loader.op = none → s.cal.image = none →
    s.bit imageStatus imageStatus_BISQUE_OK = false → s.bit imageStatus imageStatus_BISQUE_FAIL = false →
    ∃ t l, exec .bisqueLoadStart s = .next t ∧ t.loader.load = some l ∧ l.host = false ∧ l.base = 0 ∧ l.hdr = none ∧ l.taken = 0 ∧
      Sets { s with loader := { s.loader with load := some l } }
        [(loadStatus, loadStatus_SRC.put (loadStatus_STATE.put (s.reg loadStatus) 1) 1)] t) ∧
  (∀ f q v, q < s.part.quads → s.open_ = true → s.ownChan (4 * q) = f + 1 → bisqueCh_DEC.get v ≠ 0 → bisqueCh_DEC.get v ≠ 7 →
    ∃ t, exec (.bisqueChWrite f q v) s = .next t ∧ t.fld (bisqueCh q) bisqueCh_DEC = bisqueCh_DEC.get v ∧
      t.cur (bisqueCh q) bisqueCh_DEC = s.cur (bisqueCh q) bisqueCh_DEC ∧
      Sets { s with rwtOld := t.rwtOld } [(bisqueCh q, t.reg (bisqueCh q))] t) ∧
  (∀ l, l < 3 → s.boot.held = false → s.deogen = true →
    (s.boot.lane = none → exec (.laneDisagree l) s = .next { s with boot := { s.boot with lane := some l } }) ∧
    (∀ m, s.boot.lane = some m → m ≠ l → ∃ t, exec (.laneDisagree l) s = .next t ∧ t.deogen = false) ∧
    (s.boot.lane = some l → ∃ t, exec .laneResyncDone s = .next t ∧ t.boot = { s.boot with lane := none } ∧
      (s.fld flStatus flStatus_COUNT = 0 → Heard t 862 7 l 15)))
/-! ### Images, firmware and the boot flash (R331–R364, R522–R529) -/

/-- R336–R338, R347–R354 (that a BISQUE load clears 2,048 frames is the model's reading, log entry 88): what the loader does with the header, the frames and the trailers of an image: each is taken where its checks
pass, and the code of the first check that fails refuses the image or aborts the load. -/
def Obligations.ImageLoading : Prop := ∀ (s : State) (l : Load), s.deogen = true → s.loader.load = some l →
  let failed (t : State) (code : Nat) : Prop := t.fld loadStatus loadStatus_ERR = code ∧ t.fld loadStatus loadStatus_FAILED = 1 ∧
    t.reg failCount = s.reg failCount + 1 ∧ (l.host = true → s.loader.set = none → t.loader.load = none ∧ t.loadState = 0)
  (∀ b, s.loadState = 1 → s.sourceBytes l 256 = some b →
    (s.headerError b = 0 → ∃ t m h, exec .imageHeader s = .next t ∧ h = parseHeader b ∧ t.loader.load = some m ∧ m.hdr = some h ∧
      m.taken = l.taken + 256 ∧ m.steps.length = 4 ∧ t.loadState = 2 ∧ t.fld loadStatus loadStatus_KIND = h.kind ∧
      t.reg loadProgress = 0 ∧ t.loader.cells = s.loader.cells ∧
      m.readyAt = s.time.now + (if h.kind = 3 ∧ s.saggerState (h.region - 1) = 0 then 100000 else 0) + clearTime h ∧
      (h.kind = 3 → t.saggerState (h.region - 1) = 2 ∧ t.reg (funcId (h.region - 1)) = 0 ∧ (t.sag (h.region - 1)).parked = true ∧
        (t.sag (h.region - 1)).ff = [] ∧ (t.sag (h.region - 1)).rr = [] ∧ (t.sag (h.region - 1)).ram = [])) ∧
    (s.headerError b ≠ 0 → ∃ t, exec .imageHeader s = .next t ∧ failed t (s.headerError b) ∧ t.loader.cells = s.loader.cells)) ∧
  (∀ h, l.hdr = some h →
    (s.loadState = 2 → h.kind = 3 → s.powerOf (16 + (h.region - 1)) ≠ .on → l.readyAt ≤ s.time.now + clearTime h →
      ∃ t, exec .saggerPowered s = .next t ∧
      t.powerOf (16 + (h.region - 1)) = .on ∧ t.fld (sagState (h.region - 1)) sagState_POWERED = 1 ∧ t.loader = s.loader) ∧
    (s.loadState = 2 → (h.kind = 3 → s.powerOf (16 + (h.region - 1)) = .on) → l.taken < h.length → l.host = false → l.readyAt ≤ s.time.now →
      ∃ t, exec .clearingDone s = .next t ∧ (∀ a, FMap.get (fun _ => zeroCell) t.loader.cells a =
          if clears h a = true then zeroCell else FMap.get (fun _ => zeroCell) s.loader.cells a) ∧
        Sets { s with loader := { s.loader with cells := t.loader.cells, load := some { l with readyAt := s.time.now + 600 } } }
          [(loadStatus, loadStatus_STATE.put (s.reg loadStatus) 3)] t) ∧
    (∀ b type a, s.loadState = 3 → l.readyAt ≤ s.time.now → s.sourceBytes l 532 = some b → type = leAt b 0 4 / 2 ^ 24 → a = leAt b 0 4 % 2 ^ 24 →
      (frameError l h b = 0 → ∃ t, exec .frame s = .next t ∧ (∀ m, t.loader.load = some m → m.hdr = some h → m.readyAt = s.time.now + 600) ∧
        t.fld loadProgress loadProgress_FRAMES = (l.index + 1) % 2 ^ 12 ∧
        (∀ c, c ≠ a ∨ type = 2 → FMap.get (fun _ => zeroCell) t.loader.cells c = FMap.get (fun _ => zeroCell) s.loader.cells c) ∧
        (type = 1 → h.enc = false → FMap.get (fun _ => zeroCell) t.loader.cells a = (b.drop 16).take 512)) ∧
      (frameError l h b ≠ 0 → ∃ t, exec .frame s = .next t ∧ failed t (frameError l h b) ∧ t.loader.cells = s.loader.cells)) ∧
    (∀ b e, s.loadState = 3 → l.trailerDue = true → s.sourceBytes l 32 = some b → e = l.trailers → l.host = false →
      ∃ t m, exec .trailer s = .next t ∧ t.loader.load = some m ∧ m.taken = l.taken + 32 ∧ m.index = l.index ∧
        m.tags = l.tags ++ [(leAt b 0 4 == 0x4B544147 && leAt b 4 4 == e && leAt b 8 4 == l.index - e * h.epochFrames
          && Crypto.gcmTag l.key (epochIv h e) l.aad l.cipher == ((b.drop 16).take 16).map (·.toNat), e, l.firstAddr)])) ∧
  (∀ ok e a rest, l.tags = (ok, e, a) :: rest →
    (ok = true → ∃ t, exec .tagVerified s = .next t ∧ t.fld loadProgress loadProgress_EPOCHS = (e + 1) % 2 ^ 12) ∧
    (ok = false → ∃ t, exec .tagVerified s = .next t ∧ failed t 0x14)) ∧
  (1 ≤ s.loadState → s.loadState ≤ 4 → l.deadline ≤ s.time.bounds → ∃ t, exec .idleTimeout s = .next t ∧ failed t 0x16)

/-- R342–R346, R354–R360, R439: the commands to the loader, errors of the flash, and the steps of start-up, after which the region is
released. -/
def Obligations.LoadCommands : Prop := ∀ s : State,
  let failed (t : State) (code : Nat) : Prop := t.fld loadStatus loadStatus_ERR = code ∧ t.fld loadStatus loadStatus_FAILED = 1 ∧
    t.reg failCount = s.reg failCount + 1
  (∀ v, s.open_ = true → loadCmd_FLASH_GO.get v = 1 → loadCmd_CANCEL.get v = 0 →
    (∀ k o, k = 1 + loadCmd_SLOT.get v → s.loader.load = none → s.loader.set = none → s.loader.op = none → s.cal.image = none →
      s.prodUp = false → s.slotValid k = true → o = leAt (s.slotDir k) 0x10 4 →
      ∃ t l, exec (.flashGo 0 v) s = .next t ∧ t.loader.load = some l ∧ l.host = false ∧ l.slot = k ∧
        l.base = 0x1000000 * k + o ∧ l.taken = 0 ∧ l.hdr = none ∧ t.loadState = 1 ∧ t.fld loadStatus loadStatus_SRC = 1) ∧
    (s.loader.load ≠ none ∨ s.loader.set ≠ none → ∃ t, exec (.flashGo 0 v) s = .next t ∧ failed t 0xA ∧ t.loader = s.loader)) ∧
  (∀ v l, s.open_ = true → loadCmd_FLASH_GO.get v = 0 → loadCmd_CANCEL.get v = 1 → s.loader.load = some l → s.loadState < 6 →
    ∃ t, exec (.cancel 0 v) s = .next t ∧ failed t 0x19) ∧
  (∀ d b, CommandReady s 0 8 d → s.loader.load = none →
    (256 ≤ b.length → ∃ t l, exec (.cfgData 0 b) s = .next t ∧ t.loader.load = some l ∧ l.host = true ∧ l.inbox = b ∧ l.hdr = none ∧
      t.loadState = 1 ∧ t.fld loadStatus loadStatus_SRC = 2 ∧ (t.fn 0).cmds = (s.fn 0).cmds.erase d ∧ t.out = s.out) ∧
    (b.length < 256 → d.ends = false → ∃ t l, exec (.cfgData 0 b) s = .next t ∧ t.loader.load = some l ∧ l.host = true ∧
      l.inbox = b ∧ t.loadState = 1 ∧ Completed s t 0 d 0 0 0 d.length s.time.tick) ∧
    (b.length < 256 → d.ends = true → ∃ t, exec (.cfgData 0 b) s = .next t ∧ failed t 0x15)) ∧
  (∀ l, s.deogen = true → s.loader.load = some l →
    (l.host = false → s.loadState < 4 → ∃ t, exec .flashReadError s = .next t ∧ failed t 0x1A) ∧
    (∀ a, l.waitFrom = some a → a + 20000000 ≤ s.time.now → ∃ t, exec .lockTimeout s = .next t ∧ failed t 0x18) ∧
    (∀ h, l.hdr = some h →
      (∀ c d rest a, s.loadState = 6 → l.steps = c :: d :: rest → c ≠ 0 → l.stepAt = some a → a ≤ s.time.now →
        ∃ t, exec .startupStep s = .next t ∧
          t.loader = { s.loader with load := some { l with steps := d :: rest, stepAt := some (s.time.now + 80), waitFrom := none } } ∧
          (h.kind = 3 → (t.sag (h.region - 1)).released = c :: (s.sag (h.region - 1)).released ∧
            (t.sag (h.region - 1)).parked = (if c = 1 then false else (s.sag (h.region - 1)).parked)) ∧
          t.regs = s.regs ∧ (∀ g, g ≠ h.region - 1 → t.sag g = s.sag g)) ∧
      (∀ c a, s.loadState = 6 → l.steps = [c] → c ≠ 0 → l.stepAt = some a → a ≤ s.time.now → ∃ t, exec .startupStep s = .next t ∧
        t.fld loadStatus loadStatus_DONE = 1 ∧ t.reg Regs.loadCount = s.reg Regs.loadCount + 1 ∧
        (h.kind = 3 → 1 ≤ h.region → h.region ≤ 16 → t.saggerState (h.region - 1) = 3 ∧
          t.reg (funcId (h.region - 1)) = BitVec.ofNat 32 h.func ∧ t.reg (clksel (h.region - 1)) = BitVec.ofNat 32 h.clksel) ∧
        (h.kind = 2 → t.bit imageStatus imageStatus_PROD_RELEASED = true ∧ t.fld bootStatus bootStatus_STAGE = 3) ∧
        (h.kind = 1 → t.bit imageStatus imageStatus_BISQUE_OK = true)) ∧
      (∀ a c d rest, l.waitFrom = some a → s.pllsReady h = true → l.steps = c :: d :: rest → exec .waitLock s = .next { s with
        loader := { s.loader with load := some { l with steps := d :: rest, stepAt := some (s.time.now + 80), waitFrom := none } } })))

/-- R518, R522, R526–R529: firmware and image sets are checked, their slot is erased and written, and the read-back makes the slot
valid; a file that fails a check is refused with its code and leaves the flash as it was. -/
def Obligations.FlashInstalls : Prop := ∀ (s : State) (d : HostDesc),
  (∀ b, CommandReady s 0 0x10 d → d.length ≤ 0x400000 → s.flashFree = true →
    (s.fwError b = 0 → ∃ t x k, exec (.fwInstall 0 b) s = .next t ∧ t.loader.op = some x ∧ x.fw = true ∧ x.d = some d ∧
      k = x.slot + 1 ∧ (s.fld fwStatus fwStatus_RUNNING = 1 ∨ s.fld fwStatus fwStatus_RUNNING = 2 → k ≠ s.fld fwStatus fwStatus_RUNNING) ∧
      x.base = fwBase k ∧ x.bytes = b.take (64 + leAt b 0xC 4) ∧ t.bit fwStatus (fwValidFld k) = false ∧
      (∀ a, t.flashByte a = if fwBase k ≤ a ∧ a < fwBase k + 0x400000 then 0xFF else s.flashByte a) ∧ t.out = s.out) ∧
    (s.fwError b ≠ 0 → ∃ t, exec (.fwInstall 0 b) s = .next t ∧ t.loader = s.loader ∧
      Completed s t 0 d 7 (s.fwError b) 0 d.length s.time.tick)) ∧
  (∀ b k, CommandReady s 0 0x11 d → d.length ≤ 0x1000000 → s.flashFree = true → k = d.param 0 % 2 →
    (dirValid b b.length (fun o => leAt b (o + 0xC) 1) = false → ∃ t, exec (.slotWrite 0 b) s = .next t ∧ t.loader = s.loader ∧
      Completed s t 0 d 7 0x20 0 d.length s.time.tick) ∧
    (dirValid b b.length (fun o => leAt b (o + 0xC) 1) = true → badHeader ((b.drop (leAt b 0x10 4)).take 256) = false →
      leAt ((b.drop (leAt b 0x10 4)).take 256) 8 4 = s.part.idcode → ∃ t x, exec (.slotWrite 0 b) s = .next t ∧
        t.loader.op = some x ∧ x.fw = false ∧ x.d = some d ∧ x.base = 0x1000000 * (k + 1) ∧ x.slot = k ∧ x.bytes = b ∧
        (∀ a, t.flashByte a = if 0x1000000 * (k + 1) ≤ a ∧ a < 0x1000000 * (k + 2) then 0xFF else s.flashByte a) ∧ t.out = s.out)) ∧
  (∀ x, s.loader.op = some x → s.loader.set = none → x.d = some d → (s.fn 0).silent = false →
    (x.bytes.length ≤ 0x3FFFFC ∨ x.fw = false → ∃ t, exec (.flashWriteDone true) s = .next t ∧ t.loader.op = none ∧
      (∀ i, i < x.bytes.length → t.flashByte (x.base + i) = x.bytes.getD i 0) ∧
      Out.hostWrite 0 (d.addr + 0x30) (completion 0 0 x.slot d.length s.time.tick) ∈ t.out ∧
      (x.fw = true → t.bit fwStatus (fwValidFld (x.slot + 1)) = true ∧ t.fld fwStatus fwStatus_PENDING = 1 ∧
        leAt (t.flashBytes (x.base + 0x3FFFFC) 4) 0 4 = x.seq % 2 ^ 32)) ∧
    (∃ t, exec (.flashWriteDone false) s = .next t ∧ t.loader = { s.loader with op := none } ∧
      Out.hostWrite 0 (d.addr + 0x30) (completion 7 0x21 x.slot d.length s.time.tick) ∈ t.out))
/-! ### The network (R365–R398) -/

/-- R370, R371, R373, R381, R382, R392, R393, R401 (that a packet which comes over a link that is not ACTIVE is lost is the model's reading, log
entry 80, and the NIs that take a region's frames are its choice, log entry 90): a request that its checks let pass has its effect, and
credits go back to its source; one that fails a check changes no memory, and an ERR with its code goes back. The words of a STREAM
go to the core or the sagger whose stream it is, or over the chip link, as the credits there allow. -/
def Obligations.NetworkRequests : Prop := ∀ (s : State) (p : Packet), p.dst < 256 → p.src < 256 → tooLong p = false →
  reservedCmd p.cmd = false → p.poisoned = false → s.niPower p.dst = 0 → p ∈ s.net → (∀ w ∈ s.noc.linkWait, w.2 ≠ p) →
  let answered (t : State) (cmd aux : Nat) : Prop := ∃ q ∈ t.net, q.cmd = cmd ∧ q.dst = p.src ∧ q.src = p.dst ∧ q.tag = p.tag ∧ q.aux = aux
  (∀ c ∈ [(Instr.write p, false), (.writeAck p, true)],
    ((s.memoryError p (32 * p.len)).1 = 0 → p.data.length = 32 * p.len → ∃ t, exec c.1 s = .next t ∧
      (∀ a, t.capByte a = if p.addr ≤ a ∧ a < p.addr + 32 * p.len then p.data.getD (a - p.addr) 0 else s.capByte a) ∧
      t.mem.segs = s.mem.segs ∧ t.regs = s.regs ∧ t.events = s.events ∧ (p.crossed = false → answered t 0x23 (1 + p.len)) ∧
      (c.2 = true → answered t 0x21 0)) ∧
    ((s.memoryError p (32 * p.len)).1 ≠ 0 → ∃ t, exec c.1 s = .next t ∧ t.mem = s.mem ∧
      answered t 0x3F (s.memoryError p (32 * p.len)).1)) ∧
  ((s.memoryError p (32 * p.aux)).1 = 0 →
    (p.flaws = [] → ∃ t, exec (.read p) s = .next t ∧ t.mem = s.mem ∧ t.regs = s.regs ∧
      ∃ q ∈ t.net, q.cmd = 0x22 ∧ q.dst = p.src ∧ q.tag = p.tag ∧ q.domain = s.niOwner p.dst ∧ q.poisoned = false ∧
        q.data = s.getBytes p.addr (32 * p.aux)) ∧
    (∀ u, p.flaws = [⟨u, true⟩] → 0 < p.aux → p.addr / 32 ≤ u → 32 * u < p.addr + 32 * p.aux → ∃ t, exec (.read p) s = .next t ∧
      t.mem.data = s.mem.data ∧ (t.seg (u / 2048)).ecc = true ∧
      t.reg (eccUncorr (u / 2048 / 262144)) = s.reg (eccUncorr (u / 2048 / 262144)) + 1 ∧
      ∃ q ∈ t.net, q.cmd = 0x22 ∧ q.dst = p.src ∧ q.tag = p.tag ∧ q.poisoned = true)) ∧
  ((s.memoryError p (32 * p.aux)).1 ≠ 0 → ∃ t, exec (.read p) s = .next t ∧ t.mem = s.mem ∧
    answered t 0x3F (s.memoryError p (32 * p.aux)).1) ∧
  (isLink p.dst = false →
    (p.src ≠ 250 → ∃ t, exec (.cfgFrame p) s = .next t ∧ t.loader = s.loader ∧ answered t 0x3F 4) ∧
    (p.src = 250 → p.addr / 0x80000 ≠ regionOf p.dst → ∃ t, exec (.cfgFrame p) s = .next t ∧ t.loader = s.loader ∧
      answered t 0x3F (if regionOf p.dst = 0 then 3 else 8)) ∧
    (∀ l, p.src = 250 → p.addr / 0x80000 = regionOf p.dst → s.loader.load = some l → p.addr ∈ l.written →
      ∃ t, exec (.cfgFrame p) s = .next t ∧
      (∀ a, FMap.get (fun _ => zeroCell) t.loader.cells a =
        if a = p.addr then (p.data.drop 16).take 512 else FMap.get (fun _ => zeroCell) s.loader.cells a) ∧
      t.loader.load = s.loader.load ∧ t.regs = s.regs)) ∧
  (∀ l, l < 4 → p.dst = niLink l → p.crossed = true → s.linkActive l = false → p.cmd = 1 → ∃ t, exec (.stream p) s = .next t ∧
    t.net = s.net.erase p ∧ { t with net := s.net, out := s.out, noc := { t.noc with bridge := s.noc.bridge } } = s) ∧
  (∀ l, l < 4 → p.dst = niLink l → p.crossed = false → s.fld (xlStatus l) xlStatus_STATE = 2 → ∃ t, exec (.stream p) s = .next t ∧
    t.out = s.out ∧ t.reg (xlDrop l) = s.reg (xlDrop l) + BitVec.ofNat 32 (1 + p.len) ∧ answered t 0x23 (1 + p.len)) ∧
  ((p.crossed = false ∧ ∀ l, l < 4 → p.dst = niLink l → s.fld (xlStatus l) xlStatus_STATE ≠ 2) ∨ isLink p.dst = false →
    (∀ g e, s.bound p.dst p.addr = some (g, e) →
      (p.domain ≠ 0 → p.domain ≠ g.fn + 1 → ∃ t, exec (.stream p) s = .next t ∧ t.mem = s.mem ∧ t.out = s.out ∧ answered t 0x3F 4) ∧
      (∀ y, g.sink e = some y → p.domain = 0 ∨ p.domain = g.fn + 1 →
        (∀ l, y.el.kind = 10 → l < 4 → p.dst = niLink l → p.crossed = false → s.fld (xlStatus l) xlStatus_STATE = 3 →
          (s.linkUsed l + (1 + p.len) ≤ niGrants p.dst → (∀ w ∈ s.noc.linkWait, w.1 ≠ l) → ∃ t, exec (.stream p) s = .next t ∧
            t.out = .crossed l p :: s.out ∧ t.linkUsed l = s.linkUsed l + (1 + p.len) ∧ t.mem = s.mem ∧ t.regs = s.regs) ∧
          (niGrants p.dst < s.linkUsed l + (1 + p.len) → ∃ t, exec (.stream p) s = .next t ∧ t.out = s.out ∧ t.net = s.net.erase p ∧
            t.noc.linkWait = s.noc.linkWait ++ [(l, p)] ∧ t.regs = s.regs)) ∧
        (y.el.kind = 4 → p.len = 1 → p.lasth = 2 → ∃ t, exec (.stream p) s = .next t ∧
          t.cores = (s.inputWord (coreAt p.dst) e.ed.toPort (BitVec.ofNat 32 (leAt p.data 0 4))).cores) ∧
        (y.el.kind = 5 → p.len = 1 → p.lasth = 2 → ∃ t, exec (.stream p) s = .next t ∧
          t.sags = (s.fabricWord ((p.dst / 4 - 24) / 2) e.ed.toPort (BitVec.ofNat 32 (leAt p.data 0 4))).sags) ∧
        (∀ k w, y.el.kind = 8 → y.stream = k → p.len = 1 → p.lasth = 2 → s.capState k = 2 → s.capRaw k = false →
          (s.cap k).begun = true → (s.cap k).trig = none → w = s.pair (writtenLo k) (writtenHi k) → 0 < w % 16384 →
          (w % 16384 + 1) % 8 ≠ 0 → ∃ t, exec (.stream p) s = .next t ∧
            t.pair (writtenLo k) (writtenHi k) = (w + 1) % 2 ^ 64 ∧ (t.cap k).part = (s.cap k).part ++ p.data.take 4 ∧
            (∀ j, j ≠ k → t.cap j = s.cap j) ∧ t.mem.segs = s.mem.segs ∧ t.mem.data = s.mem.data))) ∧
    (s.bound p.dst p.addr = none → ¬ (p.dst % 4 = 3 ∧ 48 ≤ p.dst / 4 ∧ 0x8000 ≤ p.addr ∧ p.addr < 0x8010) →
      ∃ t, exec (.stream p) s = .next t ∧ t.mem = s.mem ∧ t.out = s.out ∧ answered t 0x3F 7))

/-- R367, R368, R370–R374, R378, R380, R381, R383–R387, R390–R392 (that a packet stands where its header does, and that a crossing FIFO
is empty between packets, is the model's choice, log entry 81): responses and deadlines at an NI; headers and units at a router; links that fail,
drain, train and become active (what a trained link reads at first is the model's reading, log entry 91); and interfaces that drain and
wake. -/
def Obligations.LinksAndResponses : Prop := ∀ s : State,
  let crossed (k : Nat) (p : Packet) : FMap Nat := if s.powerOf (niDomain (k / 2)) = .off then s.noc.bridge
    else FMap.set (fun _ => 0) s.noc.bridge k ((FMap.get (fun _ => 0) s.noc.bridge k + (1 + p.len)) % 32)
  (∀ p : Packet, p.dst < 256 → p.poisoned = false →
    (∀ c ∈ [Instr.ack p, .readData p],
      (∀ r, s.noc.reqs.find? (fun r => r.ni == p.dst && r.tag == p.tag) = some r → exec c s = .next
        { s with net := s.net.erase p, noc := { s.noc with reqs := s.noc.reqs.erase r, bridge := crossed (2 * p.dst) p } }) ∧
      (s.noc.reqs.find? (fun r => r.ni == p.dst && r.tag == p.tag) = none → ∃ t, exec c s = .next t ∧
        Sets { s with net := s.net.erase p, noc := { s.noc with bridge := crossed (2 * p.dst) p, expired := t.noc.expired } }
          [(niLate p.dst, s.reg (niLate p.dst) + 1)] t)) ∧
    ((p.crossed = false ∨ isLink p.dst = false) → s.noc.waiting = [] → ∃ t, exec (.credit p) s = .next t ∧
      (∀ k, FMap.get (fun _ => 0) t.noc.used k = FMap.get (fun _ => 0) s.noc.used k - (if k = 256 * p.dst + p.src then p.aux else 0)) ∧
      { t with noc := { t.noc with used := s.noc.used } } = { s with net := s.net.erase p }) ∧
    (∀ l, p.crossed = true → l < 4 → p.dst = niLink l → (∀ w ∈ s.noc.linkWait, w.1 ≠ l) → ∃ t, exec (.credit p) s = .next t ∧
      (∀ k, FMap.get (fun _ => 0) t.noc.linkUsed k = FMap.get (fun _ => 0) s.noc.linkUsed k - (if k = l then p.aux else 0)) ∧
      { t with noc := { t.noc with linkUsed := s.noc.linkUsed } } = { s with net := s.net.erase p }) ∧
    (let mine (r : NetReq) : Prop := r.ni = p.dst ∧ r.tag = p.tag ∧ r.addr = p.addr
     ((∃ r ∈ s.noc.reqs, mine r) ∨ (∀ r ∈ s.noc.expired, ¬ mine r) → ∃ t, exec (.err p) s = .next t ∧
       t.fld (niErr p.dst) niErr_CODE = p.aux % 2 ^ 8 ∧ t.fld (niErr p.dst) niErr_ERR = 1 ∧
       t.fld (niErr p.dst) niErr_COUNT = (s.fld (niErr p.dst) niErr_COUNT + 1) % 2 ^ 16 ∧
       t.reg (niErrAddrLo p.dst) = BitVec.ofNat 32 p.addr ∧ t.net = s.net.erase p ∧
       (∀ r ∈ t.noc.reqs, r ∈ s.noc.reqs ∧ ¬ mine r)) ∧
     ((∀ r ∈ s.noc.reqs, ¬ mine r) → (∃ r ∈ s.noc.expired, mine r) → ∃ t, exec (.err p) s = .next t ∧
       Sets { s with net := s.net.erase p, noc := { s.noc with expired := t.noc.expired } }
         [(niLate p.dst, s.reg (niLate p.dst) + 1)] t))) ∧
  (∀ p : Packet, p.dst < 256 → p.poisoned = true → ∀ c ∈ [Instr.ack p, .readData p, .credit p, .err p], ∃ t, exec c s = .next t ∧
    Sets { s with net := s.net.erase p } [(niPoisoned p.dst, s.reg (niPoisoned p.dst) + 1)] t) ∧
  (∀ n r, n < 256 → s.noc.reqs.find? (fun r => r.ni == n && decide (r.expiry ≤ s.time.bounds) && !s.answered r) = some r →
    ∃ t, exec (.requestTimeout n) s = .next t ∧ t.noc.reqs = s.noc.reqs.erase r ∧ r ∈ t.noc.expired ∧ t.fld (niErr n) niErr_CODE = 9 ∧
      ((n, 9) ∉ s.noc.said → Heard t (760 + n / 4) 6 0 (s.niOwner n))) ∧
  (∀ r p, r < 64 → p.hop = 0 → p.src < 256 →
    (tooLong p = true → ∃ t, exec (.routerHeader r p) s = .next t ∧ t.net = s.net.erase p ∧
      t.fld (niErr p.src) niErr_CODE = 1 ∧ ((p.src, 1) ∉ s.noc.said → Heard t (760 + p.src / 4) 5 0 (s.niOwner p.src))) ∧
    (tooLong p = false → p ∉ s.net → isResponse p = false → s.creditsAt p.src p.dst < s.creditsUsed p.src p.dst + (1 + p.len) →
      exec (.routerHeader r p) s = .next s)) ∧
  (∀ r p h, r < 64 → p ∈ s.net → p.cmd ≠ 3 → p.cmd ≠ 4 → h = p.route / 8 ^ p.hop % 8 → 0 < p.hop ∨ tooLong p = false →
    let gone (q : Packet) : State := { s with
      net := s.net.map (fun x => if x = p then q else x)
      noc := { s.noc with bridge := if p.hop = 0 then crossed (2 * p.src + 1) p else s.noc.bridge } }
    (h < 4 → p.hop < 12 → s.portState r h = 0 →
      (∀ load enter, load = (((s.net.filter (fun x => isResponse x == isResponse p && standsIn x == some (4 * r + h))).map
            (fun x => 1 + x.len)).foldl (· + ·) 0) →
          enter = (p.hop == 0 || p.route / 8 ^ (p.hop - 1) % 8 / 2 != h / 2) →
        (load + (if enter = true then 130 else 65) ≤ 160 → exec (.routerHeader r p) s = .next (gone { p with hop := p.hop + 1 })) ∧
        (160 < load + (if enter = true then 130 else 65) → exec (.routerHeader r p) s = .next s))) ∧
    (4 ≤ h → p.hop < 13 → ¬ (r = 63 ∧ h = 6) → ∀ n, n = 4 * r + (h - 4) →
      (isResponse p = false → niGrants n + 128 < s.bufferLoad n + (1 + p.len) → exec (.routerHeader r p) s = .next s) ∧
      (isResponse p = true ∨ s.bufferLoad n + (1 + p.len) ≤ niGrants n + 128 →
        (reservedCmd p.cmd = false → exec (.routerHeader r p) s = .next (gone { p with hop := p.hop + 1, dst := n })) ∧
        (reservedCmd p.cmd = true → ∃ t, exec (.routerHeader r p) s = .next t ∧ ∃ q ∈ t.net, q.cmd = 0x3F ∧ q.dst = p.src ∧ q.aux = 3))) ∧
    (h < 4 → p.hop < 12 → s.portState r h ≠ 0 → ∃ t, exec (.routerHeader r p) s = .next t ∧ t.reg (rtClosed r) = s.reg (rtClosed r) + 1 ∧
      ∃ q ∈ t.net, q.cmd = 0x3F ∧ q.dst = p.src ∧ q.aux = 6) ∧
    (13 ≤ p.hop ∨ (h < 4 ∧ p.hop = 12) ∨ (r = 63 ∧ h = 6) → ∃ t, exec (.routerHeader r p) s = .next t ∧
      ∃ q ∈ t.net, q.cmd = 0x3F ∧ q.dst = p.src ∧ q.aux = 2)) ∧
  (∀ k n, s.linkOn k = true → n = (s.link k).bad → ∀ (u : LinkUnit) (resent : Nat) (lost : List Packet),
    let only (x : LinkSt) (t : State) : Prop := (∀ j, t.link j = if j = k then x else s.link j) ∧
      { t with noc := { t.noc with links := s.noc.links } } = s
    (unitGood u = true → u.seq = (s.link k).due → ∃ t, exec (.linkUnitReceived k u resent lost) s = .next t ∧
      only ⟨(u.seq + 1) % 256, 0, false, ((s.link k).unacked + 1) % 8, s.time.now⟩ t) ∧
    (unitGood u = true → u.seq ≠ (s.link k).due → ∃ t, exec (.linkUnitReceived k u resent lost) s = .next t ∧
      only { s.link k with heard := s.time.now } t) ∧
    (unitGood u = false → (s.link k).resend = true → u.seq ≠ (s.link k).due → ∃ t, exec (.linkUnitReceived k u resent lost) s = .next t ∧
      only { s.link k with heard := s.time.now } t) ∧
    (unitGood u = false → (s.link k).resend = false ∨ u.seq = (s.link k).due →
      (n < 15 → ∃ t, exec (.linkUnitReceived k u resent lost) s = .next t ∧
        (∀ j, t.link j = if j = k then { s.link k with bad := n + 1, resend := true, heard := s.time.now } else s.link j) ∧ t.net = s.net ∧
        (k < 256 → t.reg (rtReplay (neighbour (k / 4) (k % 4)) (opposite (k % 4)))
          = s.reg (rtReplay (neighbour (k / 4) (k % 4)) (opposite (k % 4))) + BitVec.ofNat 32 (min resent (32 - (s.link k).unacked)))) ∧
      (15 ≤ n → exec (.linkUnitReceived k u resent lost) s = .next (s.failLink k lost))) ∧
    ((s.link k).heard + 2000 ≤ s.time.now → exec (.linkIdleTimeout k lost) s = .next (s.failLink k lost)) ∧
    ((s.failLink k lost).link k = { idleLink with heard := s.time.now } ∧
      (k < 256 → (s.failLink k lost).portState (k / 4) (k % 4) = 3 ∧
        (s.failLink k lost).portState (neighbour (k / 4) (k % 4)) (opposite (k % 4)) = 3 ∧
        Heard (s.failLink k lost) (760 + neighbour (k / 4) (k % 4)) 1 0 15) ∧
      (256 ≤ k → (s.failLink k lost).fld (xlStatus (k - 256)) xlStatus_STATE = 4) ∧
      ((∀ x ∈ lost, x.cmd < 0x20) → ∀ x ∈ lost, ∃ q ∈ (s.failLink k lost).net, q.cmd = 0x3F ∧ q.dst = x.src ∧ q.aux = 6))) ∧
  (∀ r p, r < 64 → p < 4 → s.portState r p = 1 → ∃ t, exec (.portDrainDone r p) s = .next t ∧
    Tells s [(portStatus r, Fld.put ⟨2 * p + 1, 2 * p⟩ (s.reg (portStatus r)) 2)] (760 + r) 2 [] 15 t) ∧
  (∀ n, n < 256 →
    (s.powerOf (niDomain n) = .draining → (∃ r ∈ s.noc.reqs, r.ni = n) ∨
        (∃ d ∈ s.noc.draining, ∃ p ∈ d.2.2, p.dst = n ∧ p ∈ s.net) → exec (.niDrainDone n) s = .next s) ∧
    (s.powerOf (niDomain n) = .draining → (∀ r ∈ s.noc.reqs, r.ni ≠ n) → (∀ d ∈ s.noc.draining, ∀ p ∈ d.2.2, p.dst ≠ n ∨ p ∉ s.net) →
      ((∃ m, m < 256 ∧ niDomain m = niDomain n ∧ m ≠ n ∧ m ∉ s.noc.drained) → ∃ t, exec (.niDrainDone n) s = .next t ∧
        (∀ m, m ∈ t.noc.drained ↔ m = n ∨ m ∈ s.noc.drained) ∧ { t with noc := { t.noc with drained := s.noc.drained } } = s) ∧
      ((∀ m, m < 256 → niDomain m = niDomain n → m ≠ n → m ∈ s.noc.drained) → ∃ t, exec (.niDrainDone n) s = .next t ∧
        t.powerOf (niDomain n) = .off ∧ (niDomain n = 41 → t.mem.data = [] ∧ t.mem.segs = []) ∧
        (∀ m, m < 256 → niDomain m = niDomain n → FMap.get (fun _ => 0) t.noc.bridge (2 * m) = 0 ∧
          FMap.get (fun _ => 0) t.noc.bridge (2 * m + 1) = 0) ∧
        (∀ g, niDomain n = 16 + g → g < 16 → t.saggerState g = 0))) ∧
    (s.powerOf (niDomain n) = .waking → ∃ t, exec (.niAwake n) s = .next t ∧ t.niPower n = 0 ∧
      (∀ d, d ≠ niDomain n → t.powerOf d = s.powerOf d))) ∧
  (∀ l v, l < 4 → s.open_ = true →
    (xlCtrl_EN.get v = 1 → s.fld (xlStatus l) xlStatus_STATE = 0 → ∃ t, exec (.xlEnable 0 l v) s = .next t ∧
      t.fld (xlStatus l) xlStatus_STATE = 1 ∧ t.fld (xlCtrl l) xlCtrl_EN = 1) ∧
    (xlCtrl_EN.get v = 0 → ∃ t, exec (.xlEnable 0 l v) s = .next t ∧ t.fld (xlStatus l) xlStatus_STATE = 0 ∧
      (s.fld (xlStatus l) xlStatus_STATE = 2 ∨ s.fld (xlStatus l) xlStatus_STATE = 3 → t.fld (xlStatus l) xlStatus_WENT_DOWN = 1))) ∧
  (∀ l, l < 4 → s.fld (xlStatus l) xlStatus_STATE = 1 → ∃ t, exec (.xlTrained l) s = .next t ∧
    (∀ j, t.link j = if j = 256 + l then { idleLink with heard := s.time.now } else s.link j) ∧ t.linkUsed l = 0 ∧
    Tells { s with noc := { s.noc with peerDiv := t.noc.peerDiv, links := t.noc.links, linkUsed := t.noc.linkUsed } }
      [(xlStatus l, xlStatus_DIV_MATCH.put (xlStatus_PEER_SYNC.put (xlStatus_STATE.put (s.reg (xlStatus l)) 2) 0) 0)] (824 + l) 1 [] 15 t) ∧
  (∀ l pos sync div good, l < 4 → s.fld (xlStatus l) xlStatus_STATE = 2 ∨ s.fld (xlStatus l) xlStatus_STATE = 3 →
    good = (s.bit timeStatus timeStatus_ALIGNED && !s.bit timeStatus timeStatus_HOLDOVER && sync && (div == s.tickDiv)) →
    ∃ t, exec (.xlControlUnit l pos div sync) s = .next t ∧ t.fld (xlStatus l) xlStatus_PEER_SYNC = flag sync ∧
      t.fld (xlStatus l) xlStatus_STATE = (if good = true then 3 else 2) ∧
      (good = true → s.fld (xlStatus l) xlStatus_STATE = 2 → Heard t (824 + l) 2 0 15) ∧
      (good = false → s.fld (xlStatus l) xlStatus_STATE = 3 → t.fld (xlStatus l) xlStatus_WENT_DOWN = 1 ∧ Heard t (824 + l) 3 0 15))
/-! ### Capture memory (R399–R419, R440) -/

/-- R401, R403, R405, R411–R414, R416, R422, R424, R440, R513, R594 (that CAPTURE_TRIGGER is a pulse is the model's choice, log entry 120): a source that rises
triggers the RUNNING capture streams that select it before and after, and without a rise nothing follows; triggers and freezes; the segment map
and the bytes of segments as the host reads them, a unit found bad among them; segments freed. -/
def Obligations.CaptureCommands : Prop := (∀ (s u : State) (src : Nat),
  (s.sourceLevel src = true ∨ u.sourceLevel src = false → s.riseTriggers u src = u) ∧
  (∀ k, s.cur (capStrCtrl k) capStrCtrl_TRIG_SRC ≠ src ∨ u.cur (capStrCtrl k) capStrCtrl_TRIG_SRC ≠ src →
    (s.riseTriggers u src).cap k = u.cap k ∧ (s.riseTriggers u src).capState k = u.capState k) ∧
  (∀ k, k < 256 → s.sourceLevel src = false → u.sourceLevel src = true → s.cur (capStrCtrl k) capStrCtrl_TRIG_SRC = src →
    u.cur (capStrCtrl k) capStrCtrl_TRIG_SRC = src → u.capState k = 2 →
    (s.riseTriggers u src).capState k = 3 ∧ ((s.riseTriggers u src).cap k).trig ≠ none)) ∧
  ∀ s : State,
  (∀ k src, k < 256 → src = s.cur (capStrCtrl k) capStrCtrl_TRIG_SRC →
    (src = 0x1FF ∨ s.sourceLevel src = true → exec (.captureTrigger k) s = .next s) ∧
    (src ≠ 0x1FF → s.sourceLevel src = false → s.capState k = 2 → ∃ t, exec (.captureTrigger k) s = .next t ∧ t.capState k = 3 ∧ (t.cap k).trig ≠ none ∧
      (t.cap k).late = (s.cap k).ending ∧
      (∀ j, j ≠ k → t.cap j = s.cap j) ∧ t.mem.data = s.mem.data ∧ t.mem.segs = s.mem.segs ∧
      (s.capFrom k = none → (s.cap k).begun = true → (t.cap k).trig = some (s.pair (startIdxLo k) (startIdxHi k)
        + s.pair (writtenLo k) (writtenHi k) + (s.reg (dropped k)).toNat))) ∧
    (src ≠ 0x1FF → s.sourceLevel src = false → s.capState k = 4 → (s.cap k).ending = false → ∃ t, exec (.captureTrigger k) s = .next t ∧ t.capState k = 5 ∧
      t.fld (capStrStatus k) capStrStatus_FROZEN = 1 ∧ Heard t 830 3 k (s.capOwner k)) ∧
    (src ≠ 0x1FF → s.sourceLevel src = false → s.capState k = 4 → (s.cap k).ending = true → ∃ t, exec (.captureTrigger k) s = .next t ∧
      Sets s [(trigIdxLo k, t.reg (trigIdxLo k)), (trigIdxHi k, t.reg (trigIdxHi k))] t) ∧
    (s.capState k ≠ 2 → s.capState k ≠ 4 → exec (.captureTrigger k) s = .next s) ∧
    (∀ f v, s.open_ = true → s.capOwner k = f + 1 →
      (s.trigSourceOk (f + 1) (capStrCtrl_TRIG_SRC.get v) = true → capStrCtrl_FREEZE_GO.get v = 1 → s.capState k = 2 →
        ∃ t, exec (.freezeGo f k v) s = .next t ∧ t.capState k = 3 ∧ (t.cap k).trig ≠ none ∧
          t.fld (capStrCtrl k) capStrCtrl_TRIG_SRC = capStrCtrl_TRIG_SRC.get v ∧ t.fld (capStrCtrl k) capStrCtrl_POST = capStrCtrl_POST.get v) ∧
      (s.trigSourceOk (f + 1) (capStrCtrl_TRIG_SRC.get v) = false → ∃ t, exec (.freezeGo f k v) s = .next t ∧
        Tells s [(capStrStatus k, capStrStatus_REFUSED.put (s.reg (capStrStatus k)) 1)] 830 4 [k] (f + 1) t))) ∧
  (s.open_ = true → ∀ f,
    (∀ e, e < 524288 → ∃ t, exec (.segmentMapW0Read f e) s = .next t ∧
      t.out = .readData f (BitVec.ofNat 32 ((s.seg e).word 0)) :: s.out ∧ (∀ i, 1 ≤ i → i < 4 → t.segWordFor f e i = (s.seg e).word i) ∧
      (∀ h, h ≠ f → ∀ i, t.segWordFor h e i = s.segWordFor h e i) ∧
      { t with out := s.out, mem := { t.mem with latch := s.mem.latch } } = s) ∧
    (s.boot.bar2 = false → ∀ a n flaws b, exec (.bar2Read f a n flaws) s = .next s ∧ exec (.bar2Write f a b) s = .next s) ∧
    (∀ a n, s.boot.bar2 = true → n ≤ (s.fn f).readSize → (∀ g ∈ segsOf a n, s.mayReadSeg f g = true) → ∃ t, exec (.bar2Read f a n []) s = .next t ∧
      t = { s with out := .readBytes f (s.getBytes a n) false :: s.out }) ∧
    (∀ a n flaws g, s.boot.bar2 = true → n ≤ (s.fn f).readSize → g ∈ segsOf a n → s.mayReadSeg f g = false → ∃ t, exec (.bar2Read f a n flaws) s = .next t ∧
      t.out = (if (s.fn f).aerMask = true then [] else [.aer f]) ++ .completerAbort f :: s.out ∧ t.mem = s.mem) ∧
    (∀ a b, s.boot.bar2 = true → b ≠ [] → ∃ t, exec (.bar2Write f a b) s = .next t ∧ t.mem = s.mem ∧ t.out = s.out ∧
      (s.fld flStatus flStatus_COUNT = 0 → t.fld flStatus flStatus_COUNT = 1 ∧ Heard t 860 2 (a % 2 ^ 32) (f + 1)))) ∧
  (s.boot.held = false → s.boot.warm = true → s.boot.bar2 = true → ∀ f a n flaws, n ≤ (s.fn f).readSize → ∃ t, exec (.bar2Read f a n flaws) s = .next t ∧
    t = { s with out := (if (s.fn f).aerMask = true then [] else [.aer f]) ++ .completerAbort f :: s.out }) ∧
  (∀ f d, CommandReady s f 9 d →
    (∀ g n own, bitOf (d.param 0) 31 = 1 → g = d.param 1 → n = d.param 2 → own = (fun x : Nat × Seg => decide (g ≤ x.1 ∧ x.1 < g + n)) →
      0 < n → g + n ≤ 524288 →
      ((∀ x ∈ s.mem.segs, own x = true → x.2.owner = f + 1 ∧ s.capState x.2.stream = 5) → d.length = 0 → d.buffer = 0 →
        ∃ t, exec (.segFree f) s = .next t ∧ (∀ i, t.seg i = if g ≤ i ∧ i < g + n then freeSeg else s.seg i) ∧
          Completed s t f d 0 0 0 (s.mem.segs.filter own).length s.time.tick) ∧
      ((∃ x ∈ s.mem.segs, own x = true ∧ x.2.owner ≠ f + 1 ∧ x.2.owner ≠ 15) → ∃ t, exec (.segFree f) s = .next t ∧ t.mem = s.mem ∧
        Completed s t f d 4 0 0 0 s.time.tick))) ∧
  (∀ f d g o n a, CommandReady s f 0xA d → g = d.param 1 → o = d.param 2 → n = d.param 3 → a = g * 65536 + o → o < 65536 → 0 < n →
    n ≤ 262144 → g + n ≤ 524288 → d.length ≤ n * 65536 - o →
    ((∀ i ∈ segsOf a d.length, s.mayReadSeg f i = true) → ∃ t, exec (.segCopy f []) s = .next t ∧
      Out.hostWrite f d.buffer (s.getBytes a d.length) ∈ t.out ∧ t.mem = s.mem ∧ Completed s t f d 0 0 0 d.length s.time.tick) ∧
    (∀ u lo, (∀ i ∈ segsOf a d.length, s.mayReadSeg f i = true) → a / 32 ≤ u → 32 * u < a + d.length → lo = max a (32 * u) →
      ∃ t, exec (.segCopy f [⟨u, true⟩]) s = .next t ∧
        Out.poisoned f (d.buffer + (lo - a)) (s.getBytes lo (min (a + d.length) (32 * u + 32) - lo)) ∈ t.out ∧
        t.mem.data = s.mem.data ∧ (t.seg (u / 2048)).ecc = true ∧ Completed s t f d 0xA 0 0 d.length s.time.tick) ∧
    ((∃ i ∈ segsOf a d.length, s.mayReadSeg f i = false) → ∃ t, exec (.segCopy f []) s = .next t ∧ t.mem = s.mem ∧
      Completed s t f d 4 0 0 0 s.time.tick))
/-! ### BAR0 and the fault log (R423, R467–R475, R541–R545) -/

/-- R4, R9, R11, R12, R36, R423, R424, R542, R543, R545: every read in good form completes with one word, which is what the register
holds, 0 where there is none, and changes nothing but where R543 says so; a write in good form by the function that may make it sets
each RW and RWT field, an RWT field coming into force at the next boundary, and clears the W1C bits written 1 but for those that hardware
sets at that instant; and a request in another form reads nothing and writes nothing. -/
def Obligations.RegisterAccesses : Prop := ∀ (s : State) (f : Nat), f < 8 → s.open_ = true →
  let aborted : List Out := (if (s.fn f).aerMask = true then [] else [.aer f]) ++ .completerAbort f :: s.out
  (∀ a pads, a % 4 = 0 → (inFaultlog a = false ∨ f = 0) → (a < 0x510000 ∨ 0x520000 ≤ a) → ∃ t w,
    exec (.bar0Read f a 1 15 pads) s = .next t ∧ t.out = .readData f w :: s.out ∧
    (a ≠ tickLo → a < 0x60F000 ∨ (0x60FA00 ≤ a ∧ a < 0x1000000) → t = { s with out := .readData f w :: s.out })) ∧
  (∀ a pads, a % 4 = 0 → inFaultlog a = true → f ≠ 0 → ∃ t, exec (.bar0Read f a 1 15 pads) s = .next t ∧ t.out = aborted) ∧
  (∀ p ∈ [(idcode, s.part.idcode), (revision, s.part.revision), (caps, s.part.caps)], ∀ pads,
    exec (.bar0Read f p.1 1 15 pads) s = .next { s with out := .readData f (BitVec.ofNat 32 p.2) :: s.out }) ∧
  (∀ a d, a % 4 = 0 → Regs.find a = some d → (0x20000 ≤ a ∧ a < 0x30000) ∨ (inFaultlog a = true ∧ f = 0) ∨ (0x300000 ≤ a ∧ a < 0x400000) →
    ∀ pads, exec (.bar0Read f a 1 15 pads) s = .next { s with out := .readData f (if s.absentAt a = false then s.reg a
      else if a % 0x1000 = 0 then 7 else 0) :: s.out }) ∧
  (∀ pads, ∃ t, exec (.bar0Read f tickLo 1 15 pads) s = .next t ∧ t.out = .readData f (BitVec.ofNat 32 s.time.tick) :: s.out ∧
    FMap.get (fun _ => 0) t.time.latHi f = BitVec.ofNat 32 (s.time.tick / 2 ^ 32) ∧
    FMap.get (fun _ => 0) t.time.latSub f = BitVec.ofNat 32 s.time.sub ∧ { t with out := s.out, time := s.time } = s) ∧
  (∀ a, a % 4 = 0 → Regs.find a = none → inFaultlog a = false → inMsix a = false → inSegWindow a = false →
    (∀ pads, exec (.bar0Read f a 1 15 pads) s = .next { s with out := .readData f 0 :: s.out }) ∧
    (∀ v, exec (.registerWrite f a 1 15 v) s = .next s)) ∧
  (∀ i v, i < 27 → ∃ t, exec (.registerWrite f (evEnable f i) 1 15 v) s = .next t ∧ Sets s [(evEnable f i, v)] t) ∧
  (∀ v, ∃ t, exec (.registerWrite 0 syncLoadLo 1 15 v) s = .next t ∧ Sets s [(syncLoadLo, v)] t) ∧
  (∀ q k v, q < s.part.quads → k < 4 → s.ownChan (4 * q + k) = f + 1 →
    (∃ t, exec (.registerWrite f (chOffset q k) 1 15 v) s = .next t ∧
      t.fld (chOffset q k) chOffset_OFS = chOffset_OFS.get v ∧ t.cur (chOffset q k) chOffset_OFS = s.cur (chOffset q k) chOffset_OFS ∧
      Sets { s with rwtOld := t.rwtOld } [(chOffset q k, t.reg (chOffset q k))] t) ∧
    (∃ t, exec (.registerWrite f (chStatus q k) 1 15 v) s = .next t ∧
      (∀ F ∈ [chStatus_REFUSED, chStatus_OVLD], t.fld (chStatus q k) F =
        if F.get v = 1 ∧ F.get (s.justSet (chStatus q k)) = 0 then 0 else s.fld (chStatus q k) F) ∧
      (∀ F ∈ [chStatus_CAL_HOLD, chStatus_OVLD_NOW], t.fld (chStatus q k) F = s.fld (chStatus q k) F) ∧
      Sets s [(chStatus q k, t.reg (chStatus q k))] t)) ∧
  (∀ n v, n < s.part.cores → s.ownCore n = f + 1 → ∃ t, exec (.registerWrite f (dspStatus n) 1 15 v) s = .next t ∧
    (∀ i, i < 6 → bitOf (t.reg (dspStatus n)).toNat i = if bitOf v.toNat i = 1 ∧ bitOf (s.justSet (dspStatus n)).toNat i = 0 then 0
      else bitOf (s.reg (dspStatus n)).toNat i) ∧ t.fld (dspStatus n) dspStatus_CATCHUP = s.fld (dspStatus n) dspStatus_CATCHUP ∧
    Sets s [(dspStatus n, t.reg (dspStatus n))] t) ∧
  (∀ a ∈ [idcode, revision, caps], ∀ v, exec (.registerWrite f a 1 15 v) s = .next s) ∧
  (∀ a n be pads, goodForm a n be = false → ∃ t, exec (.bar0Read f a n be pads) s = .next t ∧ t.out = aborted ∧
    (∀ o, o < 0x30000 ∨ 0x30900 ≤ o → t.reg o = s.reg o) ∧
    Same s { t with regs := s.regs, events := s.events, out := s.out, logFullSaid := s.logFullSaid })

/-- R470–R475: a violation makes one entry of the fault log and raises its event; one like the newest entry advances REPEAT; and a full
log only counts it, and raises LOG_FULL once. -/
def Obligations.FaultLog : Prop := ∀ (s : State) (f a n be : Nat) (v : Word) (r : FaultRec) (k : Nat), f < 8 → s.open_ = true → be < 16 →
  goodForm a n be = false → r = ⟨1, f + 1, (s.resource a).2, (s.resource a).1, a, v.toNat, 2, 1 + 2 * be, s.time.tick⟩ →
  k = (s.reg flSeqNext).toNat → ∃ t, exec (.registerWrite f a n be v) s = .next t ∧ t.out = s.out ∧
    Same s { t with regs := s.regs, events := s.events, logFullSaid := s.logFullSaid } ∧
    (∀ o, o < 0x30000 ∨ 0x30900 ≤ o → t.reg o = s.reg o) ∧
    (s.coalesces r = true → t.events = s.events ∧ t.reg flSeqNext = s.reg flSeqNext ∧ ∀ i j, i < 64 → j < 8 →
      t.reg (flEntry i j) = if i = (k + 63) % 64 ∧ j = 7
        then Fld.put ⟨31, 24⟩ (s.reg (flEntry i 7)) (min 255 (s.fld (flEntry i 7) ⟨31, 24⟩ + 1)) else s.reg (flEntry i j)) ∧
    (s.coalesces r = false → s.fld flStatus flStatus_COUNT < 64 →
      (∀ i j, i < 64 → j < 8 → i ≠ k % 64 → t.reg (flEntry i j) = s.reg (flEntry i j)) ∧
      (∀ p ∈ [(0, r.cls * 2 ^ 24 + r.requester * 2 ^ 20 + r.resOwner * 2 ^ 16 + r.source), (1, k), (2, r.tick), (3, r.tick / 2 ^ 32),
        (4, r.addr), (5, r.addr / 2 ^ 32), (6, r.addr2), (7, r.code * 2 ^ 8 + r.info)], t.reg (flEntry (k % 64) p.1) = BitVec.ofNat 32 p.2) ∧
      t.reg flSeqNext = s.reg flSeqNext + 1 ∧ t.fld flStatus flStatus_COUNT = s.fld flStatus flStatus_COUNT + 1 ∧
      t.fld flStatus flStatus_FULL = flag (s.fld flStatus flStatus_COUNT == 63) ∧
      (s.fld flStatus flStatus_COUNT = 0 → t.fld flStatus flStatus_OLDEST = k % 64) ∧ Heard t 860 1 a (f + 1)) ∧
    (s.coalesces r = false → s.fld flStatus flStatus_COUNT = 64 → t.reg flLost = s.reg flLost + 1 ∧
      t.fld flStatus flStatus_LOST_ANY = 1 ∧ t.fld flStatus flStatus_COUNT = 64 ∧ t.logFullSaid = true ∧
      (∀ i j, i < 64 → j < 8 → t.reg (flEntry i j) = s.reg (flEntry i j)) ∧ Heard t 860 1 a (f + 1))

/-- R34, R158, R467, R470, R479, R512, R556: what F0 alone may write, another function's write leaves as it was: the write is a violation,
which is logged and said. -/
def Obligations.OnlyPhysicalFunction : Prop := ∀ (s : State) (f : Nat) (v : Word), 0 < f → f < 8 → s.open_ = true →
  ∀ p ∈ [(Instr.tickDivWrite f v, tickCtrl), (.syncCtrlWrite f v, syncCtrl), (.relockGo f v, refCtrl), (.calConeWrite f v, calCtrl),
    (.save f v, storeCmd), (.faultlogAck f v, flAck), (.devReset f v, resetCtrl), (.flashGo f v, loadCmd), (.cancel f v, loadCmd),
    (.chOwnerWrite f 0 v, chOwner 0), (.pinOwnerWrite f 0 v, pinOwner 0), (.xlEnable f 0 v, xlCtrl 0), (.spiTxdata f 0 v, spiTx 0),
    (.i2cCmd f 0 v, i2cCmd 0), (.i2cDataWrite f 0 v, i2cData 0), (.uartTxdata f 0 v, uartTx 0), (.tmrCtrlWrite f 0 v, tmrCtrl 0)],
    ∃ t, exec p.1 s = .next t ∧ (∀ o, o < 0x30000 ∨ 0x30900 ≤ o → t.reg o = s.reg o) ∧
      Same s { t with regs := s.regs, events := s.events, logFullSaid := s.logFullSaid } ∧
      (s.fld flStatus flStatus_COUNT = 0 → t.fld flStatus flStatus_COUNT = 1 ∧ Heard t 860 1 p.2 (f + 1))
/-! ### The machine as a whole -/

/-- A step carries out the command at the front of the queue on the state with the queue's rest; with nothing waiting, time goes on up
to the instant before the next boundary, and with it the designs of the saggers, what these send at their ports, and the level conditions of the pins, at the edges of
their clocks (log entry 1: the passing of time on an empty queue is the model's choice). -/
def Obligations.StepsRunCommands : Prop :=
  (∀ (c : Instr) (rest : List Instr) (s : State), step { s with pending := c :: rest } = exec c { s with pending := rest }) ∧
  (∀ s : State, s.pending = [] →
    ((∃ a, s.nextInstant = some a ∧ a ≤ s.time.now + 1) → step s = .next s) ∧
    ((∀ a, s.nextInstant = some a → s.time.now + 1 < a) → ∃ t, step s = .next t ∧
      t.time = { s.time with now := s.time.now + 1, sub := if s.ticking = true then s.time.sub + 1 else s.time.sub } ∧
      (∀ o, (∀ b, b < 14 → o ≠ irqStat b) → (s.fabricLive = false ∨ ¬ (0x30000 ≤ o ∧ o < 0x31000) ∧ ¬ (0x402000 ≤ o ∧ o < 0x404000)) →
        t.reg o = s.reg o) ∧
      (s.fabricLive = false → t.sags = s.sags ∧ t.net = s.net ∧ t.noc = s.noc ∧ t.logFullSaid = s.logFullSaid ∧ t.freeCtr = s.freeCtr) ∧
      (∀ g, (t.sag g).armed = (s.sag g).armed ∧ (t.sag g).released = (s.sag g).released ∧ (t.sag g).held = (s.sag g).held) ∧
      (s.pins.rearm = [] ∨ t.time.now < s.pins.rearmAt → t.pins = s.pins ∧ (s.fabricLive = false → t.regs = s.regs ∧ t.events = s.events)) ∧
      (∀ p ∈ s.pins.rearm, p < 448 → t.pinLive p = true → s.pins.rearmAt ≤ t.time.now →
        t.padCfg p pinCfg_IRQ = (if s.pinLevel p = true then 4 else 5) → bitOf (t.reg (irqStat (p / 32))).toNat (p % 32) = 1) ∧
      { t with time := s.time, sags := s.sags, pins := s.pins, regs := s.regs, events := s.events, freeCtr := s.freeCtr,
               hwAt := s.hwAt, hwSet := s.hwSet, net := s.net, noc := s.noc, logFullSaid := s.logFullSaid } = s))

/-- R548: after reset, which every part leaves in the same form, each register holds its reset value, but for the supplies of the pin
banks (log entry 42); nothing runs, and the state is sound. -/
def Obligations.ResetState : Prop := State.reset = State.resetFor .ka6416C ∧ ∀ (p : Part) (s : State), s = State.resetFor p →
  (∀ o, s.reg o = if (List.range 14).any (fun b => o == bankStatus b) = true then 1 else Regs.reset o) ∧ s.pending = [] ∧ s.part = p ∧
  s.time.clock = .held ∧ s.time.tick = 0 ∧ s.wheel.graphs = [] ∧ s.mem.data = [] ∧ s.mem.segs = [] ∧ s.net = [] ∧ s.events = [] ∧
  (∀ n, s.powerOf n = powerReset n) ∧ s.regsWf = true ∧ s.mem.wf = true ∧ s.subWf = true

/-- Every step ends in a next state, takes at most the front command off the queue, and keeps what makes a state sound: the register
file and capture memory in the one form that their contents have (R399, R545), and a sub-tick count of 0 while no ticks run (R31, R35). -/
def Obligations.StepsKeepStatesSound : Prop := ∀ s : State, ∃ t, step s = .next t ∧ t.pending = s.pending.tail ∧ t.part = s.part ∧
  (s.regsWf = true → t.regsWf = true) ∧ (s.mem.wf = true → t.mem.wf = true) ∧ (s.subWf = true → t.subWf = true)
end

