-- ==== Sys2Proof/Laws/Map.lean ====
section
/-! SUPPORT. What reading and writing a sparse map do, and that every write keeps its canonical form. -/

namespace Sys2Proof.Machine

variable {α : Type}

theorem FMap.get_del_same (d : Nat → α) (m : FMap α) (k : Nat) : FMap.get d (FMap.del m k) k = d k := by
  induction m with
  | nil => rfl
  | cons e m ih =>
    obtain ⟨k', v⟩ := e
    by_cases h : k = k' <;> simp_all [FMap.del, FMap.get]

theorem FMap.get_del_other (d : Nat → α) (m : FMap α) {k j : Nat} (h : j ≠ k) :
    FMap.get d (FMap.del m k) j = FMap.get d m j := by
  induction m with
  | nil => rfl
  | cons e m ih =>
    obtain ⟨k', v⟩ := e
    by_cases hk : k = k'
    · subst hk; simp [FMap.del, FMap.get, h, ih]
    · simp [FMap.del, FMap.get, hk, ih]

theorem FMap.get_ins (d : Nat → α) (m : FMap α) (k : Nat) (v : α) (hm : FMap.del m k = m) (j : Nat) :
    FMap.get d (FMap.ins m k v) j = if j = k then v else FMap.get d m j := by
  induction m with
  | nil => by_cases h : j = k <;> simp [FMap.ins, FMap.get, h]
  | cons e m ih =>
    obtain ⟨k', v'⟩ := e
    have hk : k ≠ k' := by
      intro h; subst h
      have hl : (FMap.del m k).length ≤ m.length := by
        clear ih hm
        induction m with
        | nil => simp [FMap.del]
        | cons e m ih => obtain ⟨a, b⟩ := e; simp only [FMap.del]; split <;> simp <;> omega
      simp only [FMap.del, if_true] at hm
      have := congrArg List.length hm
      simp at this; omega
    have hm' : FMap.del m k = m := by simpa [FMap.del, hk] using hm
    by_cases hlt : k < k'
    · by_cases hj : j = k <;> simp [FMap.ins, FMap.get, hlt, hj]
    · by_cases hj : j = k
      · subst hj; simp [FMap.ins, FMap.get, hlt, hk, ih hm']
      · by_cases hj' : j = k' <;> simp [FMap.ins, FMap.get, hlt, hj, hj', ih hm', Ne.symm hk]

theorem FMap.del_del (m : FMap α) (k : Nat) : FMap.del (FMap.del m k) k = FMap.del m k := by
  induction m with
  | nil => rfl
  | cons e m ih =>
    obtain ⟨k', v⟩ := e
    by_cases h : k = k' <;> simp_all [FMap.del]

/-- Reading any key after a write. -/
theorem FMap.get_set [DecidableEq α] (d : Nat → α) (m : FMap α) (k : Nat) (v : α) (j : Nat) :
    FMap.get d (FMap.set d m k v) j = if j = k then v else FMap.get d m j := by
  unfold FMap.set
  split
  next h =>
    by_cases hj : j = k
    · subst hj; simp [FMap.get_del_same, h]
    · simp [FMap.get_del_other _ _ hj, hj]
  next h =>
    rw [FMap.get_ins _ _ _ _ (FMap.del_del m k)]
    by_cases hj : j = k <;> simp [hj, FMap.get_del_other]

@[simp] theorem FMap.get_set_same [DecidableEq α] (d : Nat → α) (m : FMap α) (k : Nat) (v : α) :
    FMap.get d (FMap.set d m k v) k = v := by simp [FMap.get_set]

theorem FMap.get_set_other [DecidableEq α] (d : Nat → α) (m : FMap α) {k j : Nat} (v : α) (h : j ≠ k) :
    FMap.get d (FMap.set d m k v) j = FMap.get d m j := by simp [FMap.get_set, h]

theorem FMap.rises_weaken {m : FMap α} {a b : Nat} (hab : a ≤ b) (h : FMap.rises (some b) m = true) :
    FMap.rises (some a) m = true := by
  cases m with
  | nil => rfl
  | cons e m => obtain ⟨k, v⟩ := e; simp [FMap.rises] at *; exact ⟨by omega, h.2⟩

theorem FMap.rises_some {m : FMap α} {b : Nat} (h : FMap.rises (some b) m = true) : FMap.rises none m = true := by
  cases m with
  | nil => rfl
  | cons e m => obtain ⟨k, v⟩ := e; simp [FMap.rises] at *; exact h.2

theorem FMap.rises_del {m : FMap α} {k b : Nat} (h : FMap.rises (some b) m = true) :
    FMap.rises (some b) (FMap.del m k) = true := by
  induction m generalizing b with
  | nil => rfl
  | cons e m ih =>
    obtain ⟨k', v⟩ := e
    simp [FMap.rises] at h
    by_cases hk : k = k'
    · subst hk
      simp only [FMap.del, if_true]
      exact FMap.rises_weaken (Nat.le_of_lt h.1) (ih h.2)
    · simp [FMap.del, hk, FMap.rises, h.1, ih h.2]

theorem FMap.rises_del_none {m : FMap α} {k : Nat} (h : FMap.rises none m = true) :
    FMap.rises none (FMap.del m k) = true := by
  cases m with
  | nil => rfl
  | cons e m =>
    obtain ⟨k', v⟩ := e
    simp only [FMap.rises] at h
    by_cases hk : k = k'
    · subst hk; simp only [FMap.del, if_true]; exact FMap.rises_some (FMap.rises_del h)
    · simp [FMap.del, hk, FMap.rises, FMap.rises_del h]

theorem FMap.rises_ins {m : FMap α} {k b : Nat} {v : α} (hb : b < k) (hd : FMap.del m k = m)
    (h : FMap.rises (some b) m = true) : FMap.rises (some b) (FMap.ins m k v) = true := by
  induction m generalizing b with
  | nil => simp [FMap.ins, FMap.rises, hb]
  | cons e m ih =>
    obtain ⟨k', v'⟩ := e
    simp [FMap.rises] at h
    by_cases hlt : k < k'
    · simp [FMap.ins, hlt, FMap.rises, hb, h.2]
    · have hk : k ≠ k' := by
        intro hk; subst hk
        have hl : (FMap.del m k).length ≤ m.length := by
          clear ih hd h
          induction m with
          | nil => simp [FMap.del]
          | cons e m ih => obtain ⟨a, c⟩ := e; simp only [FMap.del]; split <;> simp <;> omega
        simp only [FMap.del, if_true] at hd
        have := congrArg List.length hd
        simp at this; omega
      have hd' : FMap.del m k = m := by simpa [FMap.del, hk] using hd
      simp [FMap.ins, hlt, FMap.rises, h.1, ih (by omega) hd' h.2]

theorem FMap.tight_del [DecidableEq α] (d : Nat → α) {m : FMap α} {k : Nat} (h : FMap.tight d m = true) :
    FMap.tight d (FMap.del m k) = true := by
  induction m with
  | nil => rfl
  | cons e m ih =>
    obtain ⟨k', v⟩ := e
    simp [FMap.tight] at h
    by_cases hk : k = k' <;> simp_all [FMap.del, FMap.tight]

theorem FMap.tight_ins [DecidableEq α] (d : Nat → α) {m : FMap α} {k : Nat} {v : α} (hv : v ≠ d k) (h : FMap.tight d m = true) :
    FMap.tight d (FMap.ins m k v) = true := by
  induction m with
  | nil => simp [FMap.ins, FMap.tight, hv]
  | cons e m ih =>
    obtain ⟨k', v'⟩ := e
    simp [FMap.tight] at h
    by_cases hlt : k < k' <;> simp [FMap.ins, hlt, FMap.tight, hv, h, ih]

/-- A write keeps the canonical form. -/
theorem FMap.wf_set [DecidableEq α] (d : Nat → α) {m : FMap α} (k : Nat) (v : α) (h : FMap.wf d m = true) :
    FMap.wf d (FMap.set d m k v) = true := by
  simp only [FMap.wf, Bool.and_eq_true] at *
  unfold FMap.set
  split
  · exact ⟨FMap.rises_del_none h.1, FMap.tight_del d h.2⟩
  next hv =>
    refine ⟨?_, FMap.tight_ins d hv (FMap.tight_del d h.2)⟩
    have hr := FMap.rises_del_none (k := k) h.1
    have hd := FMap.del_del m k
    generalize FMap.del m k = m' at hr hd ⊢
    cases m' with
    | nil => rfl
    | cons e m' =>
      obtain ⟨k', v'⟩ := e
      simp only [FMap.rises] at hr
      by_cases hlt : k < k'
      · simp [FMap.ins, hlt, FMap.rises, hr]
      · have hk : k ≠ k' := by
          intro hk; subst hk
          have := congrArg List.length hd
          have hl : ∀ m : FMap α, (FMap.del m k).length ≤ m.length := by
            intro m
            induction m with
            | nil => simp [FMap.del]
            | cons e m ih => obtain ⟨a, c⟩ := e; simp only [FMap.del]; split <;> simp <;> omega
          have h2 := hl m'
          simp [FMap.del] at this; omega
        have hd' : FMap.del m' k = m' := by simpa [FMap.del, hk] using hd
        simpa [FMap.ins, hlt, FMap.rises] using FMap.rises_ins (v := v) (by omega) hd' hr

end Sys2Proof.Machine
end

