-- ==== Sys2Proof/Laws/State.lean ====
section
/-! SUPPORT. The fields that each update of the state leaves as they were. -/

namespace Sys2Proof.Machine

@[simp] theorem State.setReg_pending (s : State) (off : Nat) (w : Word) : (s.setReg off w).pending = s.pending := rfl
@[simp] theorem State.setReg_part (s : State) (off : Nat) (w : Word) : (s.setReg off w).part = s.part := rfl
@[simp] theorem State.setReg_rwtOld (s : State) (off : Nat) (w : Word) : (s.setReg off w).rwtOld = s.rwtOld := rfl
@[simp] theorem State.setReg_time (s : State) (off : Nat) (w : Word) : (s.setReg off w).time = s.time := rfl
@[simp] theorem State.setReg_power (s : State) (off : Nat) (w : Word) : (s.setReg off w).power = s.power := rfl
@[simp] theorem State.setReg_ana (s : State) (off : Nat) (w : Word) : (s.setReg off w).ana = s.ana := rfl
@[simp] theorem State.setReg_pool (s : State) (off : Nat) (w : Word) : (s.setReg off w).pool = s.pool := rfl
@[simp] theorem State.setReg_cal (s : State) (off : Nat) (w : Word) : (s.setReg off w).cal = s.cal := rfl
@[simp] theorem State.setReg_chains (s : State) (off : Nat) (w : Word) : (s.setReg off w).chains = s.chains := rfl
@[simp] theorem State.setReg_cores (s : State) (off : Nat) (w : Word) : (s.setReg off w).cores = s.cores := rfl
@[simp] theorem State.setReg_net (s : State) (off : Nat) (w : Word) : (s.setReg off w).net = s.net := rfl
@[simp] theorem State.setReg_wheel (s : State) (off : Nat) (w : Word) : (s.setReg off w).wheel = s.wheel := rfl
@[simp] theorem State.setReg_fns (s : State) (off : Nat) (w : Word) : (s.setReg off w).fns = s.fns := rfl
@[simp] theorem State.setReg_mem (s : State) (off : Nat) (w : Word) : (s.setReg off w).mem = s.mem := rfl
@[simp] theorem State.setReg_sags (s : State) (off : Nat) (w : Word) : (s.setReg off w).sags = s.sags := rfl
@[simp] theorem State.setReg_loader (s : State) (off : Nat) (w : Word) : (s.setReg off w).loader = s.loader := rfl
@[simp] theorem State.setReg_noc (s : State) (off : Nat) (w : Word) : (s.setReg off w).noc = s.noc := rfl
@[simp] theorem State.setReg_pins (s : State) (off : Nat) (w : Word) : (s.setReg off w).pins = s.pins := rfl
@[simp] theorem State.setReg_boot (s : State) (off : Nat) (w : Word) : (s.setReg off w).boot = s.boot := rfl
@[simp] theorem State.setReg_events (s : State) (off : Nat) (w : Word) : (s.setReg off w).events = s.events := rfl
@[simp] theorem State.setReg_logFullSaid (s : State) (off : Nat) (w : Word) : (s.setReg off w).logFullSaid = s.logFullSaid := rfl
@[simp] theorem State.setReg_freeCtr (s : State) (off : Nat) (w : Word) : (s.setReg off w).freeCtr = s.freeCtr := rfl
@[simp] theorem State.setReg_hwAt (s : State) (off : Nat) (w : Word) : (s.setReg off w).hwAt = s.hwAt := rfl
@[simp] theorem State.setReg_hwSet (s : State) (off : Nat) (w : Word) : (s.setReg off w).hwSet = s.hwSet := rfl
@[simp] theorem State.setReg_out (s : State) (off : Nat) (w : Word) : (s.setReg off w).out = s.out := rfl

@[simp] theorem State.setFld_pending (s : State) (off : Nat) (F : Fld) (x : Nat) : (s.setFld off F x).pending = s.pending := rfl
@[simp] theorem State.setFld_part (s : State) (off : Nat) (F : Fld) (x : Nat) : (s.setFld off F x).part = s.part := rfl
@[simp] theorem State.setFld_rwtOld (s : State) (off : Nat) (F : Fld) (x : Nat) : (s.setFld off F x).rwtOld = s.rwtOld := rfl
@[simp] theorem State.setFld_time (s : State) (off : Nat) (F : Fld) (x : Nat) : (s.setFld off F x).time = s.time := rfl
@[simp] theorem State.setFld_power (s : State) (off : Nat) (F : Fld) (x : Nat) : (s.setFld off F x).power = s.power := rfl
@[simp] theorem State.setFld_ana (s : State) (off : Nat) (F : Fld) (x : Nat) : (s.setFld off F x).ana = s.ana := rfl
@[simp] theorem State.setFld_pool (s : State) (off : Nat) (F : Fld) (x : Nat) : (s.setFld off F x).pool = s.pool := rfl
@[simp] theorem State.setFld_cal (s : State) (off : Nat) (F : Fld) (x : Nat) : (s.setFld off F x).cal = s.cal := rfl
@[simp] theorem State.setFld_chains (s : State) (off : Nat) (F : Fld) (x : Nat) : (s.setFld off F x).chains = s.chains := rfl
@[simp] theorem State.setFld_cores (s : State) (off : Nat) (F : Fld) (x : Nat) : (s.setFld off F x).cores = s.cores := rfl
@[simp] theorem State.setFld_net (s : State) (off : Nat) (F : Fld) (x : Nat) : (s.setFld off F x).net = s.net := rfl
@[simp] theorem State.setFld_wheel (s : State) (off : Nat) (F : Fld) (x : Nat) : (s.setFld off F x).wheel = s.wheel := rfl
@[simp] theorem State.setFld_fns (s : State) (off : Nat) (F : Fld) (x : Nat) : (s.setFld off F x).fns = s.fns := rfl
@[simp] theorem State.setFld_mem (s : State) (off : Nat) (F : Fld) (x : Nat) : (s.setFld off F x).mem = s.mem := rfl
@[simp] theorem State.setFld_sags (s : State) (off : Nat) (F : Fld) (x : Nat) : (s.setFld off F x).sags = s.sags := rfl
@[simp] theorem State.setFld_loader (s : State) (off : Nat) (F : Fld) (x : Nat) : (s.setFld off F x).loader = s.loader := rfl
@[simp] theorem State.setFld_noc (s : State) (off : Nat) (F : Fld) (x : Nat) : (s.setFld off F x).noc = s.noc := rfl
@[simp] theorem State.setFld_pins (s : State) (off : Nat) (F : Fld) (x : Nat) : (s.setFld off F x).pins = s.pins := rfl
@[simp] theorem State.setFld_boot (s : State) (off : Nat) (F : Fld) (x : Nat) : (s.setFld off F x).boot = s.boot := rfl
@[simp] theorem State.setFld_events (s : State) (off : Nat) (F : Fld) (x : Nat) : (s.setFld off F x).events = s.events := rfl
@[simp] theorem State.setFld_logFullSaid (s : State) (off : Nat) (F : Fld) (x : Nat) : (s.setFld off F x).logFullSaid = s.logFullSaid := rfl
@[simp] theorem State.setFld_freeCtr (s : State) (off : Nat) (F : Fld) (x : Nat) : (s.setFld off F x).freeCtr = s.freeCtr := rfl
@[simp] theorem State.setFld_hwAt (s : State) (off : Nat) (F : Fld) (x : Nat) : (s.setFld off F x).hwAt = s.hwAt := rfl
@[simp] theorem State.setFld_hwSet (s : State) (off : Nat) (F : Fld) (x : Nat) : (s.setFld off F x).hwSet = s.hwSet := rfl
@[simp] theorem State.setFld_out (s : State) (off : Nat) (F : Fld) (x : Nat) : (s.setFld off F x).out = s.out := rfl

@[simp] theorem State.setTimed_pending (s : State) (off : Nat) (w : Word) : (s.setTimed off w).pending = s.pending := rfl
@[simp] theorem State.setTimed_part (s : State) (off : Nat) (w : Word) : (s.setTimed off w).part = s.part := rfl
@[simp] theorem State.setTimed_time (s : State) (off : Nat) (w : Word) : (s.setTimed off w).time = s.time := rfl
@[simp] theorem State.setTimed_power (s : State) (off : Nat) (w : Word) : (s.setTimed off w).power = s.power := rfl
@[simp] theorem State.setTimed_ana (s : State) (off : Nat) (w : Word) : (s.setTimed off w).ana = s.ana := rfl
@[simp] theorem State.setTimed_pool (s : State) (off : Nat) (w : Word) : (s.setTimed off w).pool = s.pool := rfl
@[simp] theorem State.setTimed_cal (s : State) (off : Nat) (w : Word) : (s.setTimed off w).cal = s.cal := rfl
@[simp] theorem State.setTimed_chains (s : State) (off : Nat) (w : Word) : (s.setTimed off w).chains = s.chains := rfl
@[simp] theorem State.setTimed_cores (s : State) (off : Nat) (w : Word) : (s.setTimed off w).cores = s.cores := rfl
@[simp] theorem State.setTimed_net (s : State) (off : Nat) (w : Word) : (s.setTimed off w).net = s.net := rfl
@[simp] theorem State.setTimed_wheel (s : State) (off : Nat) (w : Word) : (s.setTimed off w).wheel = s.wheel := rfl
@[simp] theorem State.setTimed_fns (s : State) (off : Nat) (w : Word) : (s.setTimed off w).fns = s.fns := rfl
@[simp] theorem State.setTimed_mem (s : State) (off : Nat) (w : Word) : (s.setTimed off w).mem = s.mem := rfl
@[simp] theorem State.setTimed_sags (s : State) (off : Nat) (w : Word) : (s.setTimed off w).sags = s.sags := rfl
@[simp] theorem State.setTimed_loader (s : State) (off : Nat) (w : Word) : (s.setTimed off w).loader = s.loader := rfl
@[simp] theorem State.setTimed_noc (s : State) (off : Nat) (w : Word) : (s.setTimed off w).noc = s.noc := rfl
@[simp] theorem State.setTimed_pins (s : State) (off : Nat) (w : Word) : (s.setTimed off w).pins = s.pins := rfl
@[simp] theorem State.setTimed_boot (s : State) (off : Nat) (w : Word) : (s.setTimed off w).boot = s.boot := rfl
@[simp] theorem State.setTimed_events (s : State) (off : Nat) (w : Word) : (s.setTimed off w).events = s.events := rfl
@[simp] theorem State.setTimed_logFullSaid (s : State) (off : Nat) (w : Word) : (s.setTimed off w).logFullSaid = s.logFullSaid := rfl
@[simp] theorem State.setTimed_freeCtr (s : State) (off : Nat) (w : Word) : (s.setTimed off w).freeCtr = s.freeCtr := rfl
@[simp] theorem State.setTimed_hwAt (s : State) (off : Nat) (w : Word) : (s.setTimed off w).hwAt = s.hwAt := rfl
@[simp] theorem State.setTimed_hwSet (s : State) (off : Nat) (w : Word) : (s.setTimed off w).hwSet = s.hwSet := rfl
@[simp] theorem State.setTimed_out (s : State) (off : Nat) (w : Word) : (s.setTimed off w).out = s.out := rfl

@[simp] theorem State.setPair_pending (s : State) (lo hi x : Nat) : (s.setPair lo hi x).pending = s.pending := rfl
@[simp] theorem State.setPair_part (s : State) (lo hi x : Nat) : (s.setPair lo hi x).part = s.part := rfl
@[simp] theorem State.setPair_rwtOld (s : State) (lo hi x : Nat) : (s.setPair lo hi x).rwtOld = s.rwtOld := rfl
@[simp] theorem State.setPair_time (s : State) (lo hi x : Nat) : (s.setPair lo hi x).time = s.time := rfl
@[simp] theorem State.setPair_power (s : State) (lo hi x : Nat) : (s.setPair lo hi x).power = s.power := rfl
@[simp] theorem State.setPair_ana (s : State) (lo hi x : Nat) : (s.setPair lo hi x).ana = s.ana := rfl
@[simp] theorem State.setPair_pool (s : State) (lo hi x : Nat) : (s.setPair lo hi x).pool = s.pool := rfl
@[simp] theorem State.setPair_cal (s : State) (lo hi x : Nat) : (s.setPair lo hi x).cal = s.cal := rfl
@[simp] theorem State.setPair_chains (s : State) (lo hi x : Nat) : (s.setPair lo hi x).chains = s.chains := rfl
@[simp] theorem State.setPair_cores (s : State) (lo hi x : Nat) : (s.setPair lo hi x).cores = s.cores := rfl
@[simp] theorem State.setPair_net (s : State) (lo hi x : Nat) : (s.setPair lo hi x).net = s.net := rfl
@[simp] theorem State.setPair_wheel (s : State) (lo hi x : Nat) : (s.setPair lo hi x).wheel = s.wheel := rfl
@[simp] theorem State.setPair_fns (s : State) (lo hi x : Nat) : (s.setPair lo hi x).fns = s.fns := rfl
@[simp] theorem State.setPair_mem (s : State) (lo hi x : Nat) : (s.setPair lo hi x).mem = s.mem := rfl
@[simp] theorem State.setPair_sags (s : State) (lo hi x : Nat) : (s.setPair lo hi x).sags = s.sags := rfl
@[simp] theorem State.setPair_loader (s : State) (lo hi x : Nat) : (s.setPair lo hi x).loader = s.loader := rfl
@[simp] theorem State.setPair_noc (s : State) (lo hi x : Nat) : (s.setPair lo hi x).noc = s.noc := rfl
@[simp] theorem State.setPair_pins (s : State) (lo hi x : Nat) : (s.setPair lo hi x).pins = s.pins := rfl
@[simp] theorem State.setPair_boot (s : State) (lo hi x : Nat) : (s.setPair lo hi x).boot = s.boot := rfl
@[simp] theorem State.setPair_events (s : State) (lo hi x : Nat) : (s.setPair lo hi x).events = s.events := rfl
@[simp] theorem State.setPair_logFullSaid (s : State) (lo hi x : Nat) : (s.setPair lo hi x).logFullSaid = s.logFullSaid := rfl
@[simp] theorem State.setPair_freeCtr (s : State) (lo hi x : Nat) : (s.setPair lo hi x).freeCtr = s.freeCtr := rfl
@[simp] theorem State.setPair_hwAt (s : State) (lo hi x : Nat) : (s.setPair lo hi x).hwAt = s.hwAt := rfl
@[simp] theorem State.setPair_hwSet (s : State) (lo hi x : Nat) : (s.setPair lo hi x).hwSet = s.hwSet := rfl
@[simp] theorem State.setPair_out (s : State) (lo hi x : Nat) : (s.setPair lo hi x).out = s.out := rfl

@[simp] theorem State.emit_pending (s : State) (o : Out) : (s.emit o).pending = s.pending := rfl
@[simp] theorem State.emit_part (s : State) (o : Out) : (s.emit o).part = s.part := rfl
@[simp] theorem State.emit_regs (s : State) (o : Out) : (s.emit o).regs = s.regs := rfl
@[simp] theorem State.emit_rwtOld (s : State) (o : Out) : (s.emit o).rwtOld = s.rwtOld := rfl
@[simp] theorem State.emit_time (s : State) (o : Out) : (s.emit o).time = s.time := rfl
@[simp] theorem State.emit_power (s : State) (o : Out) : (s.emit o).power = s.power := rfl
@[simp] theorem State.emit_ana (s : State) (o : Out) : (s.emit o).ana = s.ana := rfl
@[simp] theorem State.emit_pool (s : State) (o : Out) : (s.emit o).pool = s.pool := rfl
@[simp] theorem State.emit_cal (s : State) (o : Out) : (s.emit o).cal = s.cal := rfl
@[simp] theorem State.emit_chains (s : State) (o : Out) : (s.emit o).chains = s.chains := rfl
@[simp] theorem State.emit_cores (s : State) (o : Out) : (s.emit o).cores = s.cores := rfl
@[simp] theorem State.emit_net (s : State) (o : Out) : (s.emit o).net = s.net := rfl
@[simp] theorem State.emit_wheel (s : State) (o : Out) : (s.emit o).wheel = s.wheel := rfl
@[simp] theorem State.emit_fns (s : State) (o : Out) : (s.emit o).fns = s.fns := rfl
@[simp] theorem State.emit_mem (s : State) (o : Out) : (s.emit o).mem = s.mem := rfl
@[simp] theorem State.emit_sags (s : State) (o : Out) : (s.emit o).sags = s.sags := rfl
@[simp] theorem State.emit_loader (s : State) (o : Out) : (s.emit o).loader = s.loader := rfl
@[simp] theorem State.emit_noc (s : State) (o : Out) : (s.emit o).noc = s.noc := rfl
@[simp] theorem State.emit_pins (s : State) (o : Out) : (s.emit o).pins = s.pins := rfl
@[simp] theorem State.emit_boot (s : State) (o : Out) : (s.emit o).boot = s.boot := rfl
@[simp] theorem State.emit_events (s : State) (o : Out) : (s.emit o).events = s.events := rfl
@[simp] theorem State.emit_logFullSaid (s : State) (o : Out) : (s.emit o).logFullSaid = s.logFullSaid := rfl
@[simp] theorem State.emit_freeCtr (s : State) (o : Out) : (s.emit o).freeCtr = s.freeCtr := rfl
@[simp] theorem State.emit_hwAt (s : State) (o : Out) : (s.emit o).hwAt = s.hwAt := rfl
@[simp] theorem State.emit_hwSet (s : State) (o : Out) : (s.emit o).hwSet = s.hwSet := rfl

@[simp] theorem State.setPower_pending (s : State) (d : Nat) (p : Power) : (s.setPower d p).pending = s.pending := rfl
@[simp] theorem State.setPower_part (s : State) (d : Nat) (p : Power) : (s.setPower d p).part = s.part := rfl
@[simp] theorem State.setPower_regs (s : State) (d : Nat) (p : Power) : (s.setPower d p).regs = s.regs := rfl
@[simp] theorem State.setPower_rwtOld (s : State) (d : Nat) (p : Power) : (s.setPower d p).rwtOld = s.rwtOld := rfl
@[simp] theorem State.setPower_time (s : State) (d : Nat) (p : Power) : (s.setPower d p).time = s.time := rfl
@[simp] theorem State.setPower_ana (s : State) (d : Nat) (p : Power) : (s.setPower d p).ana = s.ana := rfl
@[simp] theorem State.setPower_pool (s : State) (d : Nat) (p : Power) : (s.setPower d p).pool = s.pool := rfl
@[simp] theorem State.setPower_cal (s : State) (d : Nat) (p : Power) : (s.setPower d p).cal = s.cal := rfl
@[simp] theorem State.setPower_chains (s : State) (d : Nat) (p : Power) : (s.setPower d p).chains = s.chains := rfl
@[simp] theorem State.setPower_cores (s : State) (d : Nat) (p : Power) : (s.setPower d p).cores = s.cores := rfl
@[simp] theorem State.setPower_net (s : State) (d : Nat) (p : Power) : (s.setPower d p).net = s.net := rfl
@[simp] theorem State.setPower_wheel (s : State) (d : Nat) (p : Power) : (s.setPower d p).wheel = s.wheel := rfl
@[simp] theorem State.setPower_fns (s : State) (d : Nat) (p : Power) : (s.setPower d p).fns = s.fns := rfl
@[simp] theorem State.setPower_mem (s : State) (d : Nat) (p : Power) : (s.setPower d p).mem = s.mem := rfl
@[simp] theorem State.setPower_sags (s : State) (d : Nat) (p : Power) : (s.setPower d p).sags = s.sags := rfl
@[simp] theorem State.setPower_loader (s : State) (d : Nat) (p : Power) : (s.setPower d p).loader = s.loader := rfl
@[simp] theorem State.setPower_noc (s : State) (d : Nat) (p : Power) : (s.setPower d p).noc = s.noc := rfl
@[simp] theorem State.setPower_pins (s : State) (d : Nat) (p : Power) : (s.setPower d p).pins = s.pins := rfl
@[simp] theorem State.setPower_boot (s : State) (d : Nat) (p : Power) : (s.setPower d p).boot = s.boot := rfl
@[simp] theorem State.setPower_events (s : State) (d : Nat) (p : Power) : (s.setPower d p).events = s.events := rfl
@[simp] theorem State.setPower_logFullSaid (s : State) (d : Nat) (p : Power) : (s.setPower d p).logFullSaid = s.logFullSaid := rfl
@[simp] theorem State.setPower_freeCtr (s : State) (d : Nat) (p : Power) : (s.setPower d p).freeCtr = s.freeCtr := rfl
@[simp] theorem State.setPower_hwAt (s : State) (d : Nat) (p : Power) : (s.setPower d p).hwAt = s.hwAt := rfl
@[simp] theorem State.setPower_hwSet (s : State) (d : Nat) (p : Power) : (s.setPower d p).hwSet = s.hwSet := rfl
@[simp] theorem State.setPower_out (s : State) (d : Nat) (p : Power) : (s.setPower d p).out = s.out := rfl

@[simp] theorem State.setChain_pending (s : State) (n : Nat) (x : ChainSt) : (s.setChain n x).pending = s.pending := rfl
@[simp] theorem State.setChain_part (s : State) (n : Nat) (x : ChainSt) : (s.setChain n x).part = s.part := rfl
@[simp] theorem State.setChain_regs (s : State) (n : Nat) (x : ChainSt) : (s.setChain n x).regs = s.regs := rfl
@[simp] theorem State.setChain_rwtOld (s : State) (n : Nat) (x : ChainSt) : (s.setChain n x).rwtOld = s.rwtOld := rfl
@[simp] theorem State.setChain_time (s : State) (n : Nat) (x : ChainSt) : (s.setChain n x).time = s.time := rfl
@[simp] theorem State.setChain_power (s : State) (n : Nat) (x : ChainSt) : (s.setChain n x).power = s.power := rfl
@[simp] theorem State.setChain_ana (s : State) (n : Nat) (x : ChainSt) : (s.setChain n x).ana = s.ana := rfl
@[simp] theorem State.setChain_pool (s : State) (n : Nat) (x : ChainSt) : (s.setChain n x).pool = s.pool := rfl
@[simp] theorem State.setChain_cal (s : State) (n : Nat) (x : ChainSt) : (s.setChain n x).cal = s.cal := rfl
@[simp] theorem State.setChain_cores (s : State) (n : Nat) (x : ChainSt) : (s.setChain n x).cores = s.cores := rfl
@[simp] theorem State.setChain_net (s : State) (n : Nat) (x : ChainSt) : (s.setChain n x).net = s.net := rfl
@[simp] theorem State.setChain_wheel (s : State) (n : Nat) (x : ChainSt) : (s.setChain n x).wheel = s.wheel := rfl
@[simp] theorem State.setChain_fns (s : State) (n : Nat) (x : ChainSt) : (s.setChain n x).fns = s.fns := rfl
@[simp] theorem State.setChain_mem (s : State) (n : Nat) (x : ChainSt) : (s.setChain n x).mem = s.mem := rfl
@[simp] theorem State.setChain_sags (s : State) (n : Nat) (x : ChainSt) : (s.setChain n x).sags = s.sags := rfl
@[simp] theorem State.setChain_loader (s : State) (n : Nat) (x : ChainSt) : (s.setChain n x).loader = s.loader := rfl
@[simp] theorem State.setChain_noc (s : State) (n : Nat) (x : ChainSt) : (s.setChain n x).noc = s.noc := rfl
@[simp] theorem State.setChain_pins (s : State) (n : Nat) (x : ChainSt) : (s.setChain n x).pins = s.pins := rfl
@[simp] theorem State.setChain_boot (s : State) (n : Nat) (x : ChainSt) : (s.setChain n x).boot = s.boot := rfl
@[simp] theorem State.setChain_events (s : State) (n : Nat) (x : ChainSt) : (s.setChain n x).events = s.events := rfl
@[simp] theorem State.setChain_logFullSaid (s : State) (n : Nat) (x : ChainSt) : (s.setChain n x).logFullSaid = s.logFullSaid := rfl
@[simp] theorem State.setChain_freeCtr (s : State) (n : Nat) (x : ChainSt) : (s.setChain n x).freeCtr = s.freeCtr := rfl
@[simp] theorem State.setChain_hwAt (s : State) (n : Nat) (x : ChainSt) : (s.setChain n x).hwAt = s.hwAt := rfl
@[simp] theorem State.setChain_hwSet (s : State) (n : Nat) (x : ChainSt) : (s.setChain n x).hwSet = s.hwSet := rfl
@[simp] theorem State.setChain_out (s : State) (n : Nat) (x : ChainSt) : (s.setChain n x).out = s.out := rfl

@[simp] theorem State.setCore_pending (s : State) (n : Nat) (c : Core) : (s.setCore n c).pending = s.pending := rfl
@[simp] theorem State.setCore_part (s : State) (n : Nat) (c : Core) : (s.setCore n c).part = s.part := rfl
@[simp] theorem State.setCore_regs (s : State) (n : Nat) (c : Core) : (s.setCore n c).regs = s.regs := rfl
@[simp] theorem State.setCore_rwtOld (s : State) (n : Nat) (c : Core) : (s.setCore n c).rwtOld = s.rwtOld := rfl
@[simp] theorem State.setCore_time (s : State) (n : Nat) (c : Core) : (s.setCore n c).time = s.time := rfl
@[simp] theorem State.setCore_power (s : State) (n : Nat) (c : Core) : (s.setCore n c).power = s.power := rfl
@[simp] theorem State.setCore_ana (s : State) (n : Nat) (c : Core) : (s.setCore n c).ana = s.ana := rfl
@[simp] theorem State.setCore_pool (s : State) (n : Nat) (c : Core) : (s.setCore n c).pool = s.pool := rfl
@[simp] theorem State.setCore_cal (s : State) (n : Nat) (c : Core) : (s.setCore n c).cal = s.cal := rfl
@[simp] theorem State.setCore_chains (s : State) (n : Nat) (c : Core) : (s.setCore n c).chains = s.chains := rfl
@[simp] theorem State.setCore_net (s : State) (n : Nat) (c : Core) : (s.setCore n c).net = s.net := rfl
@[simp] theorem State.setCore_wheel (s : State) (n : Nat) (c : Core) : (s.setCore n c).wheel = s.wheel := rfl
@[simp] theorem State.setCore_fns (s : State) (n : Nat) (c : Core) : (s.setCore n c).fns = s.fns := rfl
@[simp] theorem State.setCore_mem (s : State) (n : Nat) (c : Core) : (s.setCore n c).mem = s.mem := rfl
@[simp] theorem State.setCore_sags (s : State) (n : Nat) (c : Core) : (s.setCore n c).sags = s.sags := rfl
@[simp] theorem State.setCore_loader (s : State) (n : Nat) (c : Core) : (s.setCore n c).loader = s.loader := rfl
@[simp] theorem State.setCore_noc (s : State) (n : Nat) (c : Core) : (s.setCore n c).noc = s.noc := rfl
@[simp] theorem State.setCore_pins (s : State) (n : Nat) (c : Core) : (s.setCore n c).pins = s.pins := rfl
@[simp] theorem State.setCore_boot (s : State) (n : Nat) (c : Core) : (s.setCore n c).boot = s.boot := rfl
@[simp] theorem State.setCore_events (s : State) (n : Nat) (c : Core) : (s.setCore n c).events = s.events := rfl
@[simp] theorem State.setCore_logFullSaid (s : State) (n : Nat) (c : Core) : (s.setCore n c).logFullSaid = s.logFullSaid := rfl
@[simp] theorem State.setCore_freeCtr (s : State) (n : Nat) (c : Core) : (s.setCore n c).freeCtr = s.freeCtr := rfl
@[simp] theorem State.setCore_hwAt (s : State) (n : Nat) (c : Core) : (s.setCore n c).hwAt = s.hwAt := rfl
@[simp] theorem State.setCore_hwSet (s : State) (n : Nat) (c : Core) : (s.setCore n c).hwSet = s.hwSet := rfl
@[simp] theorem State.setCore_out (s : State) (n : Nat) (c : Core) : (s.setCore n c).out = s.out := rfl

@[simp] theorem State.setFn_pending (s : State) (f : Nat) (x : FnSt) : (s.setFn f x).pending = s.pending := rfl
@[simp] theorem State.setFn_part (s : State) (f : Nat) (x : FnSt) : (s.setFn f x).part = s.part := rfl
@[simp] theorem State.setFn_regs (s : State) (f : Nat) (x : FnSt) : (s.setFn f x).regs = s.regs := rfl
@[simp] theorem State.setFn_rwtOld (s : State) (f : Nat) (x : FnSt) : (s.setFn f x).rwtOld = s.rwtOld := rfl
@[simp] theorem State.setFn_time (s : State) (f : Nat) (x : FnSt) : (s.setFn f x).time = s.time := rfl
@[simp] theorem State.setFn_power (s : State) (f : Nat) (x : FnSt) : (s.setFn f x).power = s.power := rfl
@[simp] theorem State.setFn_ana (s : State) (f : Nat) (x : FnSt) : (s.setFn f x).ana = s.ana := rfl
@[simp] theorem State.setFn_pool (s : State) (f : Nat) (x : FnSt) : (s.setFn f x).pool = s.pool := rfl
@[simp] theorem State.setFn_cal (s : State) (f : Nat) (x : FnSt) : (s.setFn f x).cal = s.cal := rfl
@[simp] theorem State.setFn_chains (s : State) (f : Nat) (x : FnSt) : (s.setFn f x).chains = s.chains := rfl
@[simp] theorem State.setFn_cores (s : State) (f : Nat) (x : FnSt) : (s.setFn f x).cores = s.cores := rfl
@[simp] theorem State.setFn_net (s : State) (f : Nat) (x : FnSt) : (s.setFn f x).net = s.net := rfl
@[simp] theorem State.setFn_wheel (s : State) (f : Nat) (x : FnSt) : (s.setFn f x).wheel = s.wheel := rfl
@[simp] theorem State.setFn_mem (s : State) (f : Nat) (x : FnSt) : (s.setFn f x).mem = s.mem := rfl
@[simp] theorem State.setFn_sags (s : State) (f : Nat) (x : FnSt) : (s.setFn f x).sags = s.sags := rfl
@[simp] theorem State.setFn_loader (s : State) (f : Nat) (x : FnSt) : (s.setFn f x).loader = s.loader := rfl
@[simp] theorem State.setFn_noc (s : State) (f : Nat) (x : FnSt) : (s.setFn f x).noc = s.noc := rfl
@[simp] theorem State.setFn_pins (s : State) (f : Nat) (x : FnSt) : (s.setFn f x).pins = s.pins := rfl
@[simp] theorem State.setFn_boot (s : State) (f : Nat) (x : FnSt) : (s.setFn f x).boot = s.boot := rfl
@[simp] theorem State.setFn_events (s : State) (f : Nat) (x : FnSt) : (s.setFn f x).events = s.events := rfl
@[simp] theorem State.setFn_logFullSaid (s : State) (f : Nat) (x : FnSt) : (s.setFn f x).logFullSaid = s.logFullSaid := rfl
@[simp] theorem State.setFn_freeCtr (s : State) (f : Nat) (x : FnSt) : (s.setFn f x).freeCtr = s.freeCtr := rfl
@[simp] theorem State.setFn_hwAt (s : State) (f : Nat) (x : FnSt) : (s.setFn f x).hwAt = s.hwAt := rfl
@[simp] theorem State.setFn_hwSet (s : State) (f : Nat) (x : FnSt) : (s.setFn f x).hwSet = s.hwSet := rfl
@[simp] theorem State.setFn_out (s : State) (f : Nat) (x : FnSt) : (s.setFn f x).out = s.out := rfl

@[simp] theorem State.setSag_pending (s : State) (g : Nat) (x : Sagger) : (s.setSag g x).pending = s.pending := rfl
@[simp] theorem State.setSag_part (s : State) (g : Nat) (x : Sagger) : (s.setSag g x).part = s.part := rfl
@[simp] theorem State.setSag_regs (s : State) (g : Nat) (x : Sagger) : (s.setSag g x).regs = s.regs := rfl
@[simp] theorem State.setSag_rwtOld (s : State) (g : Nat) (x : Sagger) : (s.setSag g x).rwtOld = s.rwtOld := rfl
@[simp] theorem State.setSag_time (s : State) (g : Nat) (x : Sagger) : (s.setSag g x).time = s.time := rfl
@[simp] theorem State.setSag_power (s : State) (g : Nat) (x : Sagger) : (s.setSag g x).power = s.power := rfl
@[simp] theorem State.setSag_ana (s : State) (g : Nat) (x : Sagger) : (s.setSag g x).ana = s.ana := rfl
@[simp] theorem State.setSag_pool (s : State) (g : Nat) (x : Sagger) : (s.setSag g x).pool = s.pool := rfl
@[simp] theorem State.setSag_cal (s : State) (g : Nat) (x : Sagger) : (s.setSag g x).cal = s.cal := rfl
@[simp] theorem State.setSag_chains (s : State) (g : Nat) (x : Sagger) : (s.setSag g x).chains = s.chains := rfl
@[simp] theorem State.setSag_cores (s : State) (g : Nat) (x : Sagger) : (s.setSag g x).cores = s.cores := rfl
@[simp] theorem State.setSag_net (s : State) (g : Nat) (x : Sagger) : (s.setSag g x).net = s.net := rfl
@[simp] theorem State.setSag_wheel (s : State) (g : Nat) (x : Sagger) : (s.setSag g x).wheel = s.wheel := rfl
@[simp] theorem State.setSag_fns (s : State) (g : Nat) (x : Sagger) : (s.setSag g x).fns = s.fns := rfl
@[simp] theorem State.setSag_mem (s : State) (g : Nat) (x : Sagger) : (s.setSag g x).mem = s.mem := rfl
@[simp] theorem State.setSag_loader (s : State) (g : Nat) (x : Sagger) : (s.setSag g x).loader = s.loader := rfl
@[simp] theorem State.setSag_noc (s : State) (g : Nat) (x : Sagger) : (s.setSag g x).noc = s.noc := rfl
@[simp] theorem State.setSag_pins (s : State) (g : Nat) (x : Sagger) : (s.setSag g x).pins = s.pins := rfl
@[simp] theorem State.setSag_boot (s : State) (g : Nat) (x : Sagger) : (s.setSag g x).boot = s.boot := rfl
@[simp] theorem State.setSag_events (s : State) (g : Nat) (x : Sagger) : (s.setSag g x).events = s.events := rfl
@[simp] theorem State.setSag_logFullSaid (s : State) (g : Nat) (x : Sagger) : (s.setSag g x).logFullSaid = s.logFullSaid := rfl
@[simp] theorem State.setSag_freeCtr (s : State) (g : Nat) (x : Sagger) : (s.setSag g x).freeCtr = s.freeCtr := rfl
@[simp] theorem State.setSag_hwAt (s : State) (g : Nat) (x : Sagger) : (s.setSag g x).hwAt = s.hwAt := rfl
@[simp] theorem State.setSag_hwSet (s : State) (g : Nat) (x : Sagger) : (s.setSag g x).hwSet = s.hwSet := rfl
@[simp] theorem State.setSag_out (s : State) (g : Nat) (x : Sagger) : (s.setSag g x).out = s.out := rfl

@[simp] theorem State.setSeg_pending (s : State) (g : Nat) (x : Seg) : (s.setSeg g x).pending = s.pending := rfl
@[simp] theorem State.setSeg_part (s : State) (g : Nat) (x : Seg) : (s.setSeg g x).part = s.part := rfl
@[simp] theorem State.setSeg_regs (s : State) (g : Nat) (x : Seg) : (s.setSeg g x).regs = s.regs := rfl
@[simp] theorem State.setSeg_rwtOld (s : State) (g : Nat) (x : Seg) : (s.setSeg g x).rwtOld = s.rwtOld := rfl
@[simp] theorem State.setSeg_time (s : State) (g : Nat) (x : Seg) : (s.setSeg g x).time = s.time := rfl
@[simp] theorem State.setSeg_power (s : State) (g : Nat) (x : Seg) : (s.setSeg g x).power = s.power := rfl
@[simp] theorem State.setSeg_ana (s : State) (g : Nat) (x : Seg) : (s.setSeg g x).ana = s.ana := rfl
@[simp] theorem State.setSeg_pool (s : State) (g : Nat) (x : Seg) : (s.setSeg g x).pool = s.pool := rfl
@[simp] theorem State.setSeg_cal (s : State) (g : Nat) (x : Seg) : (s.setSeg g x).cal = s.cal := rfl
@[simp] theorem State.setSeg_chains (s : State) (g : Nat) (x : Seg) : (s.setSeg g x).chains = s.chains := rfl
@[simp] theorem State.setSeg_cores (s : State) (g : Nat) (x : Seg) : (s.setSeg g x).cores = s.cores := rfl
@[simp] theorem State.setSeg_net (s : State) (g : Nat) (x : Seg) : (s.setSeg g x).net = s.net := rfl
@[simp] theorem State.setSeg_wheel (s : State) (g : Nat) (x : Seg) : (s.setSeg g x).wheel = s.wheel := rfl
@[simp] theorem State.setSeg_fns (s : State) (g : Nat) (x : Seg) : (s.setSeg g x).fns = s.fns := rfl
@[simp] theorem State.setSeg_sags (s : State) (g : Nat) (x : Seg) : (s.setSeg g x).sags = s.sags := rfl
@[simp] theorem State.setSeg_loader (s : State) (g : Nat) (x : Seg) : (s.setSeg g x).loader = s.loader := rfl
@[simp] theorem State.setSeg_noc (s : State) (g : Nat) (x : Seg) : (s.setSeg g x).noc = s.noc := rfl
@[simp] theorem State.setSeg_pins (s : State) (g : Nat) (x : Seg) : (s.setSeg g x).pins = s.pins := rfl
@[simp] theorem State.setSeg_boot (s : State) (g : Nat) (x : Seg) : (s.setSeg g x).boot = s.boot := rfl
@[simp] theorem State.setSeg_events (s : State) (g : Nat) (x : Seg) : (s.setSeg g x).events = s.events := rfl
@[simp] theorem State.setSeg_logFullSaid (s : State) (g : Nat) (x : Seg) : (s.setSeg g x).logFullSaid = s.logFullSaid := rfl
@[simp] theorem State.setSeg_freeCtr (s : State) (g : Nat) (x : Seg) : (s.setSeg g x).freeCtr = s.freeCtr := rfl
@[simp] theorem State.setSeg_hwAt (s : State) (g : Nat) (x : Seg) : (s.setSeg g x).hwAt = s.hwAt := rfl
@[simp] theorem State.setSeg_hwSet (s : State) (g : Nat) (x : Seg) : (s.setSeg g x).hwSet = s.hwSet := rfl
@[simp] theorem State.setSeg_out (s : State) (g : Nat) (x : Seg) : (s.setSeg g x).out = s.out := rfl

@[simp] theorem State.setCap_pending (s : State) (k : Nat) (x : CapSt) : (s.setCap k x).pending = s.pending := rfl
@[simp] theorem State.setCap_part (s : State) (k : Nat) (x : CapSt) : (s.setCap k x).part = s.part := rfl
@[simp] theorem State.setCap_regs (s : State) (k : Nat) (x : CapSt) : (s.setCap k x).regs = s.regs := rfl
@[simp] theorem State.setCap_rwtOld (s : State) (k : Nat) (x : CapSt) : (s.setCap k x).rwtOld = s.rwtOld := rfl
@[simp] theorem State.setCap_time (s : State) (k : Nat) (x : CapSt) : (s.setCap k x).time = s.time := rfl
@[simp] theorem State.setCap_power (s : State) (k : Nat) (x : CapSt) : (s.setCap k x).power = s.power := rfl
@[simp] theorem State.setCap_ana (s : State) (k : Nat) (x : CapSt) : (s.setCap k x).ana = s.ana := rfl
@[simp] theorem State.setCap_pool (s : State) (k : Nat) (x : CapSt) : (s.setCap k x).pool = s.pool := rfl
@[simp] theorem State.setCap_cal (s : State) (k : Nat) (x : CapSt) : (s.setCap k x).cal = s.cal := rfl
@[simp] theorem State.setCap_chains (s : State) (k : Nat) (x : CapSt) : (s.setCap k x).chains = s.chains := rfl
@[simp] theorem State.setCap_cores (s : State) (k : Nat) (x : CapSt) : (s.setCap k x).cores = s.cores := rfl
@[simp] theorem State.setCap_net (s : State) (k : Nat) (x : CapSt) : (s.setCap k x).net = s.net := rfl
@[simp] theorem State.setCap_wheel (s : State) (k : Nat) (x : CapSt) : (s.setCap k x).wheel = s.wheel := rfl
@[simp] theorem State.setCap_fns (s : State) (k : Nat) (x : CapSt) : (s.setCap k x).fns = s.fns := rfl
@[simp] theorem State.setCap_sags (s : State) (k : Nat) (x : CapSt) : (s.setCap k x).sags = s.sags := rfl
@[simp] theorem State.setCap_loader (s : State) (k : Nat) (x : CapSt) : (s.setCap k x).loader = s.loader := rfl
@[simp] theorem State.setCap_noc (s : State) (k : Nat) (x : CapSt) : (s.setCap k x).noc = s.noc := rfl
@[simp] theorem State.setCap_pins (s : State) (k : Nat) (x : CapSt) : (s.setCap k x).pins = s.pins := rfl
@[simp] theorem State.setCap_boot (s : State) (k : Nat) (x : CapSt) : (s.setCap k x).boot = s.boot := rfl
@[simp] theorem State.setCap_events (s : State) (k : Nat) (x : CapSt) : (s.setCap k x).events = s.events := rfl
@[simp] theorem State.setCap_logFullSaid (s : State) (k : Nat) (x : CapSt) : (s.setCap k x).logFullSaid = s.logFullSaid := rfl
@[simp] theorem State.setCap_freeCtr (s : State) (k : Nat) (x : CapSt) : (s.setCap k x).freeCtr = s.freeCtr := rfl
@[simp] theorem State.setCap_hwAt (s : State) (k : Nat) (x : CapSt) : (s.setCap k x).hwAt = s.hwAt := rfl
@[simp] theorem State.setCap_hwSet (s : State) (k : Nat) (x : CapSt) : (s.setCap k x).hwSet = s.hwSet := rfl
@[simp] theorem State.setCap_out (s : State) (k : Nat) (x : CapSt) : (s.setCap k x).out = s.out := rfl

@[simp] theorem State.setLoad_pending (s : State) (x : Option Load) : (s.setLoad x).pending = s.pending := rfl
@[simp] theorem State.setLoad_part (s : State) (x : Option Load) : (s.setLoad x).part = s.part := rfl
@[simp] theorem State.setLoad_regs (s : State) (x : Option Load) : (s.setLoad x).regs = s.regs := rfl
@[simp] theorem State.setLoad_rwtOld (s : State) (x : Option Load) : (s.setLoad x).rwtOld = s.rwtOld := rfl
@[simp] theorem State.setLoad_time (s : State) (x : Option Load) : (s.setLoad x).time = s.time := rfl
@[simp] theorem State.setLoad_power (s : State) (x : Option Load) : (s.setLoad x).power = s.power := rfl
@[simp] theorem State.setLoad_ana (s : State) (x : Option Load) : (s.setLoad x).ana = s.ana := rfl
@[simp] theorem State.setLoad_pool (s : State) (x : Option Load) : (s.setLoad x).pool = s.pool := rfl
@[simp] theorem State.setLoad_cal (s : State) (x : Option Load) : (s.setLoad x).cal = s.cal := rfl
@[simp] theorem State.setLoad_chains (s : State) (x : Option Load) : (s.setLoad x).chains = s.chains := rfl
@[simp] theorem State.setLoad_cores (s : State) (x : Option Load) : (s.setLoad x).cores = s.cores := rfl
@[simp] theorem State.setLoad_net (s : State) (x : Option Load) : (s.setLoad x).net = s.net := rfl
@[simp] theorem State.setLoad_wheel (s : State) (x : Option Load) : (s.setLoad x).wheel = s.wheel := rfl
@[simp] theorem State.setLoad_fns (s : State) (x : Option Load) : (s.setLoad x).fns = s.fns := rfl
@[simp] theorem State.setLoad_mem (s : State) (x : Option Load) : (s.setLoad x).mem = s.mem := rfl
@[simp] theorem State.setLoad_sags (s : State) (x : Option Load) : (s.setLoad x).sags = s.sags := rfl
@[simp] theorem State.setLoad_noc (s : State) (x : Option Load) : (s.setLoad x).noc = s.noc := rfl
@[simp] theorem State.setLoad_pins (s : State) (x : Option Load) : (s.setLoad x).pins = s.pins := rfl
@[simp] theorem State.setLoad_boot (s : State) (x : Option Load) : (s.setLoad x).boot = s.boot := rfl
@[simp] theorem State.setLoad_events (s : State) (x : Option Load) : (s.setLoad x).events = s.events := rfl
@[simp] theorem State.setLoad_logFullSaid (s : State) (x : Option Load) : (s.setLoad x).logFullSaid = s.logFullSaid := rfl
@[simp] theorem State.setLoad_freeCtr (s : State) (x : Option Load) : (s.setLoad x).freeCtr = s.freeCtr := rfl
@[simp] theorem State.setLoad_hwAt (s : State) (x : Option Load) : (s.setLoad x).hwAt = s.hwAt := rfl
@[simp] theorem State.setLoad_hwSet (s : State) (x : Option Load) : (s.setLoad x).hwSet = s.hwSet := rfl
@[simp] theorem State.setLoad_out (s : State) (x : Option Load) : (s.setLoad x).out = s.out := rfl

@[simp] theorem State.setRun_pending (s : State) (q : Nat) (r : Option Run) : (s.setRun q r).pending = s.pending := rfl
@[simp] theorem State.setRun_part (s : State) (q : Nat) (r : Option Run) : (s.setRun q r).part = s.part := rfl
@[simp] theorem State.setRun_regs (s : State) (q : Nat) (r : Option Run) : (s.setRun q r).regs = s.regs := rfl
@[simp] theorem State.setRun_rwtOld (s : State) (q : Nat) (r : Option Run) : (s.setRun q r).rwtOld = s.rwtOld := rfl
@[simp] theorem State.setRun_time (s : State) (q : Nat) (r : Option Run) : (s.setRun q r).time = s.time := rfl
@[simp] theorem State.setRun_power (s : State) (q : Nat) (r : Option Run) : (s.setRun q r).power = s.power := rfl
@[simp] theorem State.setRun_ana (s : State) (q : Nat) (r : Option Run) : (s.setRun q r).ana = s.ana := rfl
@[simp] theorem State.setRun_pool (s : State) (q : Nat) (r : Option Run) : (s.setRun q r).pool = s.pool := rfl
@[simp] theorem State.setRun_chains (s : State) (q : Nat) (r : Option Run) : (s.setRun q r).chains = s.chains := rfl
@[simp] theorem State.setRun_cores (s : State) (q : Nat) (r : Option Run) : (s.setRun q r).cores = s.cores := rfl
@[simp] theorem State.setRun_net (s : State) (q : Nat) (r : Option Run) : (s.setRun q r).net = s.net := rfl
@[simp] theorem State.setRun_wheel (s : State) (q : Nat) (r : Option Run) : (s.setRun q r).wheel = s.wheel := rfl
@[simp] theorem State.setRun_fns (s : State) (q : Nat) (r : Option Run) : (s.setRun q r).fns = s.fns := rfl
@[simp] theorem State.setRun_mem (s : State) (q : Nat) (r : Option Run) : (s.setRun q r).mem = s.mem := rfl
@[simp] theorem State.setRun_sags (s : State) (q : Nat) (r : Option Run) : (s.setRun q r).sags = s.sags := rfl
@[simp] theorem State.setRun_loader (s : State) (q : Nat) (r : Option Run) : (s.setRun q r).loader = s.loader := rfl
@[simp] theorem State.setRun_noc (s : State) (q : Nat) (r : Option Run) : (s.setRun q r).noc = s.noc := rfl
@[simp] theorem State.setRun_pins (s : State) (q : Nat) (r : Option Run) : (s.setRun q r).pins = s.pins := rfl
@[simp] theorem State.setRun_boot (s : State) (q : Nat) (r : Option Run) : (s.setRun q r).boot = s.boot := rfl
@[simp] theorem State.setRun_events (s : State) (q : Nat) (r : Option Run) : (s.setRun q r).events = s.events := rfl
@[simp] theorem State.setRun_logFullSaid (s : State) (q : Nat) (r : Option Run) : (s.setRun q r).logFullSaid = s.logFullSaid := rfl
@[simp] theorem State.setRun_freeCtr (s : State) (q : Nat) (r : Option Run) : (s.setRun q r).freeCtr = s.freeCtr := rfl
@[simp] theorem State.setRun_hwAt (s : State) (q : Nat) (r : Option Run) : (s.setRun q r).hwAt = s.hwAt := rfl
@[simp] theorem State.setRun_hwSet (s : State) (q : Nat) (r : Option Run) : (s.setRun q r).hwSet = s.hwSet := rfl
@[simp] theorem State.setRun_out (s : State) (q : Nat) (r : Option Run) : (s.setRun q r).out = s.out := rfl

@[simp] theorem State.setFg_pending (s : State) (q : Nat) (r : Option FgRun) : (s.setFg q r).pending = s.pending := rfl
@[simp] theorem State.setFg_part (s : State) (q : Nat) (r : Option FgRun) : (s.setFg q r).part = s.part := rfl
@[simp] theorem State.setFg_regs (s : State) (q : Nat) (r : Option FgRun) : (s.setFg q r).regs = s.regs := rfl
@[simp] theorem State.setFg_rwtOld (s : State) (q : Nat) (r : Option FgRun) : (s.setFg q r).rwtOld = s.rwtOld := rfl
@[simp] theorem State.setFg_time (s : State) (q : Nat) (r : Option FgRun) : (s.setFg q r).time = s.time := rfl
@[simp] theorem State.setFg_power (s : State) (q : Nat) (r : Option FgRun) : (s.setFg q r).power = s.power := rfl
@[simp] theorem State.setFg_ana (s : State) (q : Nat) (r : Option FgRun) : (s.setFg q r).ana = s.ana := rfl
@[simp] theorem State.setFg_pool (s : State) (q : Nat) (r : Option FgRun) : (s.setFg q r).pool = s.pool := rfl
@[simp] theorem State.setFg_chains (s : State) (q : Nat) (r : Option FgRun) : (s.setFg q r).chains = s.chains := rfl
@[simp] theorem State.setFg_cores (s : State) (q : Nat) (r : Option FgRun) : (s.setFg q r).cores = s.cores := rfl
@[simp] theorem State.setFg_net (s : State) (q : Nat) (r : Option FgRun) : (s.setFg q r).net = s.net := rfl
@[simp] theorem State.setFg_wheel (s : State) (q : Nat) (r : Option FgRun) : (s.setFg q r).wheel = s.wheel := rfl
@[simp] theorem State.setFg_fns (s : State) (q : Nat) (r : Option FgRun) : (s.setFg q r).fns = s.fns := rfl
@[simp] theorem State.setFg_mem (s : State) (q : Nat) (r : Option FgRun) : (s.setFg q r).mem = s.mem := rfl
@[simp] theorem State.setFg_sags (s : State) (q : Nat) (r : Option FgRun) : (s.setFg q r).sags = s.sags := rfl
@[simp] theorem State.setFg_loader (s : State) (q : Nat) (r : Option FgRun) : (s.setFg q r).loader = s.loader := rfl
@[simp] theorem State.setFg_noc (s : State) (q : Nat) (r : Option FgRun) : (s.setFg q r).noc = s.noc := rfl
@[simp] theorem State.setFg_pins (s : State) (q : Nat) (r : Option FgRun) : (s.setFg q r).pins = s.pins := rfl
@[simp] theorem State.setFg_boot (s : State) (q : Nat) (r : Option FgRun) : (s.setFg q r).boot = s.boot := rfl
@[simp] theorem State.setFg_events (s : State) (q : Nat) (r : Option FgRun) : (s.setFg q r).events = s.events := rfl
@[simp] theorem State.setFg_logFullSaid (s : State) (q : Nat) (r : Option FgRun) : (s.setFg q r).logFullSaid = s.logFullSaid := rfl
@[simp] theorem State.setFg_freeCtr (s : State) (q : Nat) (r : Option FgRun) : (s.setFg q r).freeCtr = s.freeCtr := rfl
@[simp] theorem State.setFg_hwAt (s : State) (q : Nat) (r : Option FgRun) : (s.setFg q r).hwAt = s.hwAt := rfl
@[simp] theorem State.setFg_hwSet (s : State) (q : Nat) (r : Option FgRun) : (s.setFg q r).hwSet = s.hwSet := rfl
@[simp] theorem State.setFg_out (s : State) (q : Nat) (r : Option FgRun) : (s.setFg q r).out = s.out := rfl

@[simp] theorem State.setPilot_pending (s : State) (q : Nat) (r : Option PilotRun) : (s.setPilot q r).pending = s.pending := rfl
@[simp] theorem State.setPilot_part (s : State) (q : Nat) (r : Option PilotRun) : (s.setPilot q r).part = s.part := rfl
@[simp] theorem State.setPilot_regs (s : State) (q : Nat) (r : Option PilotRun) : (s.setPilot q r).regs = s.regs := rfl
@[simp] theorem State.setPilot_rwtOld (s : State) (q : Nat) (r : Option PilotRun) : (s.setPilot q r).rwtOld = s.rwtOld := rfl
@[simp] theorem State.setPilot_time (s : State) (q : Nat) (r : Option PilotRun) : (s.setPilot q r).time = s.time := rfl
@[simp] theorem State.setPilot_power (s : State) (q : Nat) (r : Option PilotRun) : (s.setPilot q r).power = s.power := rfl
@[simp] theorem State.setPilot_ana (s : State) (q : Nat) (r : Option PilotRun) : (s.setPilot q r).ana = s.ana := rfl
@[simp] theorem State.setPilot_pool (s : State) (q : Nat) (r : Option PilotRun) : (s.setPilot q r).pool = s.pool := rfl
@[simp] theorem State.setPilot_chains (s : State) (q : Nat) (r : Option PilotRun) : (s.setPilot q r).chains = s.chains := rfl
@[simp] theorem State.setPilot_cores (s : State) (q : Nat) (r : Option PilotRun) : (s.setPilot q r).cores = s.cores := rfl
@[simp] theorem State.setPilot_net (s : State) (q : Nat) (r : Option PilotRun) : (s.setPilot q r).net = s.net := rfl
@[simp] theorem State.setPilot_wheel (s : State) (q : Nat) (r : Option PilotRun) : (s.setPilot q r).wheel = s.wheel := rfl
@[simp] theorem State.setPilot_fns (s : State) (q : Nat) (r : Option PilotRun) : (s.setPilot q r).fns = s.fns := rfl
@[simp] theorem State.setPilot_mem (s : State) (q : Nat) (r : Option PilotRun) : (s.setPilot q r).mem = s.mem := rfl
@[simp] theorem State.setPilot_sags (s : State) (q : Nat) (r : Option PilotRun) : (s.setPilot q r).sags = s.sags := rfl
@[simp] theorem State.setPilot_loader (s : State) (q : Nat) (r : Option PilotRun) : (s.setPilot q r).loader = s.loader := rfl
@[simp] theorem State.setPilot_noc (s : State) (q : Nat) (r : Option PilotRun) : (s.setPilot q r).noc = s.noc := rfl
@[simp] theorem State.setPilot_pins (s : State) (q : Nat) (r : Option PilotRun) : (s.setPilot q r).pins = s.pins := rfl
@[simp] theorem State.setPilot_boot (s : State) (q : Nat) (r : Option PilotRun) : (s.setPilot q r).boot = s.boot := rfl
@[simp] theorem State.setPilot_events (s : State) (q : Nat) (r : Option PilotRun) : (s.setPilot q r).events = s.events := rfl
@[simp] theorem State.setPilot_logFullSaid (s : State) (q : Nat) (r : Option PilotRun) : (s.setPilot q r).logFullSaid = s.logFullSaid := rfl
@[simp] theorem State.setPilot_freeCtr (s : State) (q : Nat) (r : Option PilotRun) : (s.setPilot q r).freeCtr = s.freeCtr := rfl
@[simp] theorem State.setPilot_hwAt (s : State) (q : Nat) (r : Option PilotRun) : (s.setPilot q r).hwAt = s.hwAt := rfl
@[simp] theorem State.setPilot_hwSet (s : State) (q : Nat) (r : Option PilotRun) : (s.setPilot q r).hwSet = s.hwSet := rfl
@[simp] theorem State.setPilot_out (s : State) (q : Nat) (r : Option PilotRun) : (s.setPilot q r).out = s.out := rfl

@[simp] theorem State.setSensor_pending (s : State) (i : Nat) (x : Sensor) : (s.setSensor i x).pending = s.pending := rfl
@[simp] theorem State.setSensor_part (s : State) (i : Nat) (x : Sensor) : (s.setSensor i x).part = s.part := rfl
@[simp] theorem State.setSensor_regs (s : State) (i : Nat) (x : Sensor) : (s.setSensor i x).regs = s.regs := rfl
@[simp] theorem State.setSensor_rwtOld (s : State) (i : Nat) (x : Sensor) : (s.setSensor i x).rwtOld = s.rwtOld := rfl
@[simp] theorem State.setSensor_time (s : State) (i : Nat) (x : Sensor) : (s.setSensor i x).time = s.time := rfl
@[simp] theorem State.setSensor_power (s : State) (i : Nat) (x : Sensor) : (s.setSensor i x).power = s.power := rfl
@[simp] theorem State.setSensor_ana (s : State) (i : Nat) (x : Sensor) : (s.setSensor i x).ana = s.ana := rfl
@[simp] theorem State.setSensor_pool (s : State) (i : Nat) (x : Sensor) : (s.setSensor i x).pool = s.pool := rfl
@[simp] theorem State.setSensor_chains (s : State) (i : Nat) (x : Sensor) : (s.setSensor i x).chains = s.chains := rfl
@[simp] theorem State.setSensor_cores (s : State) (i : Nat) (x : Sensor) : (s.setSensor i x).cores = s.cores := rfl
@[simp] theorem State.setSensor_net (s : State) (i : Nat) (x : Sensor) : (s.setSensor i x).net = s.net := rfl
@[simp] theorem State.setSensor_wheel (s : State) (i : Nat) (x : Sensor) : (s.setSensor i x).wheel = s.wheel := rfl
@[simp] theorem State.setSensor_fns (s : State) (i : Nat) (x : Sensor) : (s.setSensor i x).fns = s.fns := rfl
@[simp] theorem State.setSensor_mem (s : State) (i : Nat) (x : Sensor) : (s.setSensor i x).mem = s.mem := rfl
@[simp] theorem State.setSensor_sags (s : State) (i : Nat) (x : Sensor) : (s.setSensor i x).sags = s.sags := rfl
@[simp] theorem State.setSensor_loader (s : State) (i : Nat) (x : Sensor) : (s.setSensor i x).loader = s.loader := rfl
@[simp] theorem State.setSensor_noc (s : State) (i : Nat) (x : Sensor) : (s.setSensor i x).noc = s.noc := rfl
@[simp] theorem State.setSensor_pins (s : State) (i : Nat) (x : Sensor) : (s.setSensor i x).pins = s.pins := rfl
@[simp] theorem State.setSensor_boot (s : State) (i : Nat) (x : Sensor) : (s.setSensor i x).boot = s.boot := rfl
@[simp] theorem State.setSensor_events (s : State) (i : Nat) (x : Sensor) : (s.setSensor i x).events = s.events := rfl
@[simp] theorem State.setSensor_logFullSaid (s : State) (i : Nat) (x : Sensor) : (s.setSensor i x).logFullSaid = s.logFullSaid := rfl
@[simp] theorem State.setSensor_freeCtr (s : State) (i : Nat) (x : Sensor) : (s.setSensor i x).freeCtr = s.freeCtr := rfl
@[simp] theorem State.setSensor_hwAt (s : State) (i : Nat) (x : Sensor) : (s.setSensor i x).hwAt = s.hwAt := rfl
@[simp] theorem State.setSensor_hwSet (s : State) (i : Nat) (x : Sensor) : (s.setSensor i x).hwSet = s.hwSet := rfl
@[simp] theorem State.setSensor_out (s : State) (i : Nat) (x : Sensor) : (s.setSensor i x).out = s.out := rfl

@[simp] theorem State.setRangeOnly_pending (s : State) (c : Nat) (b : Bool) : (s.setRangeOnly c b).pending = s.pending := rfl
@[simp] theorem State.setRangeOnly_part (s : State) (c : Nat) (b : Bool) : (s.setRangeOnly c b).part = s.part := rfl
@[simp] theorem State.setRangeOnly_regs (s : State) (c : Nat) (b : Bool) : (s.setRangeOnly c b).regs = s.regs := rfl
@[simp] theorem State.setRangeOnly_rwtOld (s : State) (c : Nat) (b : Bool) : (s.setRangeOnly c b).rwtOld = s.rwtOld := rfl
@[simp] theorem State.setRangeOnly_time (s : State) (c : Nat) (b : Bool) : (s.setRangeOnly c b).time = s.time := rfl
@[simp] theorem State.setRangeOnly_power (s : State) (c : Nat) (b : Bool) : (s.setRangeOnly c b).power = s.power := rfl
@[simp] theorem State.setRangeOnly_ana (s : State) (c : Nat) (b : Bool) : (s.setRangeOnly c b).ana = s.ana := rfl
@[simp] theorem State.setRangeOnly_pool (s : State) (c : Nat) (b : Bool) : (s.setRangeOnly c b).pool = s.pool := rfl
@[simp] theorem State.setRangeOnly_chains (s : State) (c : Nat) (b : Bool) : (s.setRangeOnly c b).chains = s.chains := rfl
@[simp] theorem State.setRangeOnly_cores (s : State) (c : Nat) (b : Bool) : (s.setRangeOnly c b).cores = s.cores := rfl
@[simp] theorem State.setRangeOnly_net (s : State) (c : Nat) (b : Bool) : (s.setRangeOnly c b).net = s.net := rfl
@[simp] theorem State.setRangeOnly_wheel (s : State) (c : Nat) (b : Bool) : (s.setRangeOnly c b).wheel = s.wheel := rfl
@[simp] theorem State.setRangeOnly_fns (s : State) (c : Nat) (b : Bool) : (s.setRangeOnly c b).fns = s.fns := rfl
@[simp] theorem State.setRangeOnly_mem (s : State) (c : Nat) (b : Bool) : (s.setRangeOnly c b).mem = s.mem := rfl
@[simp] theorem State.setRangeOnly_sags (s : State) (c : Nat) (b : Bool) : (s.setRangeOnly c b).sags = s.sags := rfl
@[simp] theorem State.setRangeOnly_loader (s : State) (c : Nat) (b : Bool) : (s.setRangeOnly c b).loader = s.loader := rfl
@[simp] theorem State.setRangeOnly_noc (s : State) (c : Nat) (b : Bool) : (s.setRangeOnly c b).noc = s.noc := rfl
@[simp] theorem State.setRangeOnly_pins (s : State) (c : Nat) (b : Bool) : (s.setRangeOnly c b).pins = s.pins := rfl
@[simp] theorem State.setRangeOnly_boot (s : State) (c : Nat) (b : Bool) : (s.setRangeOnly c b).boot = s.boot := rfl
@[simp] theorem State.setRangeOnly_events (s : State) (c : Nat) (b : Bool) : (s.setRangeOnly c b).events = s.events := rfl
@[simp] theorem State.setRangeOnly_logFullSaid (s : State) (c : Nat) (b : Bool) : (s.setRangeOnly c b).logFullSaid = s.logFullSaid := rfl
@[simp] theorem State.setRangeOnly_freeCtr (s : State) (c : Nat) (b : Bool) : (s.setRangeOnly c b).freeCtr = s.freeCtr := rfl
@[simp] theorem State.setRangeOnly_hwAt (s : State) (c : Nat) (b : Bool) : (s.setRangeOnly c b).hwAt = s.hwAt := rfl
@[simp] theorem State.setRangeOnly_hwSet (s : State) (c : Nat) (b : Bool) : (s.setRangeOnly c b).hwSet = s.hwSet := rfl
@[simp] theorem State.setRangeOnly_out (s : State) (c : Nat) (b : Bool) : (s.setRangeOnly c b).out = s.out := rfl

@[simp] theorem State.setHoldoff_pending (s : State) (c : Nat) (b : Bool) : (s.setHoldoff c b).pending = s.pending := rfl
@[simp] theorem State.setHoldoff_part (s : State) (c : Nat) (b : Bool) : (s.setHoldoff c b).part = s.part := rfl
@[simp] theorem State.setHoldoff_regs (s : State) (c : Nat) (b : Bool) : (s.setHoldoff c b).regs = s.regs := rfl
@[simp] theorem State.setHoldoff_rwtOld (s : State) (c : Nat) (b : Bool) : (s.setHoldoff c b).rwtOld = s.rwtOld := rfl
@[simp] theorem State.setHoldoff_time (s : State) (c : Nat) (b : Bool) : (s.setHoldoff c b).time = s.time := rfl
@[simp] theorem State.setHoldoff_power (s : State) (c : Nat) (b : Bool) : (s.setHoldoff c b).power = s.power := rfl
@[simp] theorem State.setHoldoff_ana (s : State) (c : Nat) (b : Bool) : (s.setHoldoff c b).ana = s.ana := rfl
@[simp] theorem State.setHoldoff_pool (s : State) (c : Nat) (b : Bool) : (s.setHoldoff c b).pool = s.pool := rfl
@[simp] theorem State.setHoldoff_chains (s : State) (c : Nat) (b : Bool) : (s.setHoldoff c b).chains = s.chains := rfl
@[simp] theorem State.setHoldoff_cores (s : State) (c : Nat) (b : Bool) : (s.setHoldoff c b).cores = s.cores := rfl
@[simp] theorem State.setHoldoff_net (s : State) (c : Nat) (b : Bool) : (s.setHoldoff c b).net = s.net := rfl
@[simp] theorem State.setHoldoff_wheel (s : State) (c : Nat) (b : Bool) : (s.setHoldoff c b).wheel = s.wheel := rfl
@[simp] theorem State.setHoldoff_fns (s : State) (c : Nat) (b : Bool) : (s.setHoldoff c b).fns = s.fns := rfl
@[simp] theorem State.setHoldoff_mem (s : State) (c : Nat) (b : Bool) : (s.setHoldoff c b).mem = s.mem := rfl
@[simp] theorem State.setHoldoff_sags (s : State) (c : Nat) (b : Bool) : (s.setHoldoff c b).sags = s.sags := rfl
@[simp] theorem State.setHoldoff_loader (s : State) (c : Nat) (b : Bool) : (s.setHoldoff c b).loader = s.loader := rfl
@[simp] theorem State.setHoldoff_noc (s : State) (c : Nat) (b : Bool) : (s.setHoldoff c b).noc = s.noc := rfl
@[simp] theorem State.setHoldoff_pins (s : State) (c : Nat) (b : Bool) : (s.setHoldoff c b).pins = s.pins := rfl
@[simp] theorem State.setHoldoff_boot (s : State) (c : Nat) (b : Bool) : (s.setHoldoff c b).boot = s.boot := rfl
@[simp] theorem State.setHoldoff_events (s : State) (c : Nat) (b : Bool) : (s.setHoldoff c b).events = s.events := rfl
@[simp] theorem State.setHoldoff_logFullSaid (s : State) (c : Nat) (b : Bool) : (s.setHoldoff c b).logFullSaid = s.logFullSaid := rfl
@[simp] theorem State.setHoldoff_freeCtr (s : State) (c : Nat) (b : Bool) : (s.setHoldoff c b).freeCtr = s.freeCtr := rfl
@[simp] theorem State.setHoldoff_hwAt (s : State) (c : Nat) (b : Bool) : (s.setHoldoff c b).hwAt = s.hwAt := rfl
@[simp] theorem State.setHoldoff_hwSet (s : State) (c : Nat) (b : Bool) : (s.setHoldoff c b).hwSet = s.hwSet := rfl
@[simp] theorem State.setHoldoff_out (s : State) (c : Nat) (b : Bool) : (s.setHoldoff c b).out = s.out := rfl

@[simp] theorem State.setInj_pending (s : State) (q : Nat) (l : List InjReq) : (s.setInj q l).pending = s.pending := rfl
@[simp] theorem State.setInj_part (s : State) (q : Nat) (l : List InjReq) : (s.setInj q l).part = s.part := rfl
@[simp] theorem State.setInj_regs (s : State) (q : Nat) (l : List InjReq) : (s.setInj q l).regs = s.regs := rfl
@[simp] theorem State.setInj_rwtOld (s : State) (q : Nat) (l : List InjReq) : (s.setInj q l).rwtOld = s.rwtOld := rfl
@[simp] theorem State.setInj_time (s : State) (q : Nat) (l : List InjReq) : (s.setInj q l).time = s.time := rfl
@[simp] theorem State.setInj_power (s : State) (q : Nat) (l : List InjReq) : (s.setInj q l).power = s.power := rfl
@[simp] theorem State.setInj_ana (s : State) (q : Nat) (l : List InjReq) : (s.setInj q l).ana = s.ana := rfl
@[simp] theorem State.setInj_cal (s : State) (q : Nat) (l : List InjReq) : (s.setInj q l).cal = s.cal := rfl
@[simp] theorem State.setInj_chains (s : State) (q : Nat) (l : List InjReq) : (s.setInj q l).chains = s.chains := rfl
@[simp] theorem State.setInj_cores (s : State) (q : Nat) (l : List InjReq) : (s.setInj q l).cores = s.cores := rfl
@[simp] theorem State.setInj_net (s : State) (q : Nat) (l : List InjReq) : (s.setInj q l).net = s.net := rfl
@[simp] theorem State.setInj_wheel (s : State) (q : Nat) (l : List InjReq) : (s.setInj q l).wheel = s.wheel := rfl
@[simp] theorem State.setInj_fns (s : State) (q : Nat) (l : List InjReq) : (s.setInj q l).fns = s.fns := rfl
@[simp] theorem State.setInj_mem (s : State) (q : Nat) (l : List InjReq) : (s.setInj q l).mem = s.mem := rfl
@[simp] theorem State.setInj_sags (s : State) (q : Nat) (l : List InjReq) : (s.setInj q l).sags = s.sags := rfl
@[simp] theorem State.setInj_loader (s : State) (q : Nat) (l : List InjReq) : (s.setInj q l).loader = s.loader := rfl
@[simp] theorem State.setInj_noc (s : State) (q : Nat) (l : List InjReq) : (s.setInj q l).noc = s.noc := rfl
@[simp] theorem State.setInj_pins (s : State) (q : Nat) (l : List InjReq) : (s.setInj q l).pins = s.pins := rfl
@[simp] theorem State.setInj_boot (s : State) (q : Nat) (l : List InjReq) : (s.setInj q l).boot = s.boot := rfl
@[simp] theorem State.setInj_events (s : State) (q : Nat) (l : List InjReq) : (s.setInj q l).events = s.events := rfl
@[simp] theorem State.setInj_logFullSaid (s : State) (q : Nat) (l : List InjReq) : (s.setInj q l).logFullSaid = s.logFullSaid := rfl
@[simp] theorem State.setInj_freeCtr (s : State) (q : Nat) (l : List InjReq) : (s.setInj q l).freeCtr = s.freeCtr := rfl
@[simp] theorem State.setInj_hwAt (s : State) (q : Nat) (l : List InjReq) : (s.setInj q l).hwAt = s.hwAt := rfl
@[simp] theorem State.setInj_hwSet (s : State) (q : Nat) (l : List InjReq) : (s.setInj q l).hwSet = s.hwSet := rfl
@[simp] theorem State.setInj_out (s : State) (q : Nat) (l : List InjReq) : (s.setInj q l).out = s.out := rfl

@[simp] theorem State.setWake_pending (s : State) (q i : Nat) (w : Option Wake) : (s.setWake q i w).pending = s.pending := rfl
@[simp] theorem State.setWake_part (s : State) (q i : Nat) (w : Option Wake) : (s.setWake q i w).part = s.part := rfl
@[simp] theorem State.setWake_regs (s : State) (q i : Nat) (w : Option Wake) : (s.setWake q i w).regs = s.regs := rfl
@[simp] theorem State.setWake_rwtOld (s : State) (q i : Nat) (w : Option Wake) : (s.setWake q i w).rwtOld = s.rwtOld := rfl
@[simp] theorem State.setWake_time (s : State) (q i : Nat) (w : Option Wake) : (s.setWake q i w).time = s.time := rfl
@[simp] theorem State.setWake_power (s : State) (q i : Nat) (w : Option Wake) : (s.setWake q i w).power = s.power := rfl
@[simp] theorem State.setWake_ana (s : State) (q i : Nat) (w : Option Wake) : (s.setWake q i w).ana = s.ana := rfl
@[simp] theorem State.setWake_cal (s : State) (q i : Nat) (w : Option Wake) : (s.setWake q i w).cal = s.cal := rfl
@[simp] theorem State.setWake_chains (s : State) (q i : Nat) (w : Option Wake) : (s.setWake q i w).chains = s.chains := rfl
@[simp] theorem State.setWake_cores (s : State) (q i : Nat) (w : Option Wake) : (s.setWake q i w).cores = s.cores := rfl
@[simp] theorem State.setWake_net (s : State) (q i : Nat) (w : Option Wake) : (s.setWake q i w).net = s.net := rfl
@[simp] theorem State.setWake_wheel (s : State) (q i : Nat) (w : Option Wake) : (s.setWake q i w).wheel = s.wheel := rfl
@[simp] theorem State.setWake_fns (s : State) (q i : Nat) (w : Option Wake) : (s.setWake q i w).fns = s.fns := rfl
@[simp] theorem State.setWake_mem (s : State) (q i : Nat) (w : Option Wake) : (s.setWake q i w).mem = s.mem := rfl
@[simp] theorem State.setWake_sags (s : State) (q i : Nat) (w : Option Wake) : (s.setWake q i w).sags = s.sags := rfl
@[simp] theorem State.setWake_loader (s : State) (q i : Nat) (w : Option Wake) : (s.setWake q i w).loader = s.loader := rfl
@[simp] theorem State.setWake_noc (s : State) (q i : Nat) (w : Option Wake) : (s.setWake q i w).noc = s.noc := rfl
@[simp] theorem State.setWake_pins (s : State) (q i : Nat) (w : Option Wake) : (s.setWake q i w).pins = s.pins := rfl
@[simp] theorem State.setWake_boot (s : State) (q i : Nat) (w : Option Wake) : (s.setWake q i w).boot = s.boot := rfl
@[simp] theorem State.setWake_events (s : State) (q i : Nat) (w : Option Wake) : (s.setWake q i w).events = s.events := rfl
@[simp] theorem State.setWake_logFullSaid (s : State) (q i : Nat) (w : Option Wake) : (s.setWake q i w).logFullSaid = s.logFullSaid := rfl
@[simp] theorem State.setWake_freeCtr (s : State) (q i : Nat) (w : Option Wake) : (s.setWake q i w).freeCtr = s.freeCtr := rfl
@[simp] theorem State.setWake_hwAt (s : State) (q i : Nat) (w : Option Wake) : (s.setWake q i w).hwAt = s.hwAt := rfl
@[simp] theorem State.setWake_hwSet (s : State) (q i : Nat) (w : Option Wake) : (s.setWake q i w).hwSet = s.hwSet := rfl
@[simp] theorem State.setWake_out (s : State) (q i : Nat) (w : Option Wake) : (s.setWake q i w).out = s.out := rfl

@[simp] theorem State.setMxQueue_pending (s : State) (q : Nat) (cs : List MxCmd) : (s.setMxQueue q cs).pending = s.pending := rfl
@[simp] theorem State.setMxQueue_part (s : State) (q : Nat) (cs : List MxCmd) : (s.setMxQueue q cs).part = s.part := rfl
@[simp] theorem State.setMxQueue_regs (s : State) (q : Nat) (cs : List MxCmd) : (s.setMxQueue q cs).regs = s.regs := rfl
@[simp] theorem State.setMxQueue_rwtOld (s : State) (q : Nat) (cs : List MxCmd) : (s.setMxQueue q cs).rwtOld = s.rwtOld := rfl
@[simp] theorem State.setMxQueue_time (s : State) (q : Nat) (cs : List MxCmd) : (s.setMxQueue q cs).time = s.time := rfl
@[simp] theorem State.setMxQueue_power (s : State) (q : Nat) (cs : List MxCmd) : (s.setMxQueue q cs).power = s.power := rfl
@[simp] theorem State.setMxQueue_pool (s : State) (q : Nat) (cs : List MxCmd) : (s.setMxQueue q cs).pool = s.pool := rfl
@[simp] theorem State.setMxQueue_cal (s : State) (q : Nat) (cs : List MxCmd) : (s.setMxQueue q cs).cal = s.cal := rfl
@[simp] theorem State.setMxQueue_chains (s : State) (q : Nat) (cs : List MxCmd) : (s.setMxQueue q cs).chains = s.chains := rfl
@[simp] theorem State.setMxQueue_cores (s : State) (q : Nat) (cs : List MxCmd) : (s.setMxQueue q cs).cores = s.cores := rfl
@[simp] theorem State.setMxQueue_net (s : State) (q : Nat) (cs : List MxCmd) : (s.setMxQueue q cs).net = s.net := rfl
@[simp] theorem State.setMxQueue_wheel (s : State) (q : Nat) (cs : List MxCmd) : (s.setMxQueue q cs).wheel = s.wheel := rfl
@[simp] theorem State.setMxQueue_fns (s : State) (q : Nat) (cs : List MxCmd) : (s.setMxQueue q cs).fns = s.fns := rfl
@[simp] theorem State.setMxQueue_mem (s : State) (q : Nat) (cs : List MxCmd) : (s.setMxQueue q cs).mem = s.mem := rfl
@[simp] theorem State.setMxQueue_sags (s : State) (q : Nat) (cs : List MxCmd) : (s.setMxQueue q cs).sags = s.sags := rfl
@[simp] theorem State.setMxQueue_loader (s : State) (q : Nat) (cs : List MxCmd) : (s.setMxQueue q cs).loader = s.loader := rfl
@[simp] theorem State.setMxQueue_noc (s : State) (q : Nat) (cs : List MxCmd) : (s.setMxQueue q cs).noc = s.noc := rfl
@[simp] theorem State.setMxQueue_pins (s : State) (q : Nat) (cs : List MxCmd) : (s.setMxQueue q cs).pins = s.pins := rfl
@[simp] theorem State.setMxQueue_boot (s : State) (q : Nat) (cs : List MxCmd) : (s.setMxQueue q cs).boot = s.boot := rfl
@[simp] theorem State.setMxQueue_events (s : State) (q : Nat) (cs : List MxCmd) : (s.setMxQueue q cs).events = s.events := rfl
@[simp] theorem State.setMxQueue_logFullSaid (s : State) (q : Nat) (cs : List MxCmd) : (s.setMxQueue q cs).logFullSaid = s.logFullSaid := rfl
@[simp] theorem State.setMxQueue_freeCtr (s : State) (q : Nat) (cs : List MxCmd) : (s.setMxQueue q cs).freeCtr = s.freeCtr := rfl
@[simp] theorem State.setMxQueue_hwAt (s : State) (q : Nat) (cs : List MxCmd) : (s.setMxQueue q cs).hwAt = s.hwAt := rfl
@[simp] theorem State.setMxQueue_hwSet (s : State) (q : Nat) (cs : List MxCmd) : (s.setMxQueue q cs).hwSet = s.hwSet := rfl
@[simp] theorem State.setMxQueue_out (s : State) (q : Nat) (cs : List MxCmd) : (s.setMxQueue q cs).out = s.out := rfl

@[simp] theorem State.setPinAlt_pending (s : State) (p alt : Nat) (analog : Bool) : (s.setPinAlt p alt analog).pending = s.pending := rfl
@[simp] theorem State.setPinAlt_part (s : State) (p alt : Nat) (analog : Bool) : (s.setPinAlt p alt analog).part = s.part := rfl
@[simp] theorem State.setPinAlt_regs (s : State) (p alt : Nat) (analog : Bool) : (s.setPinAlt p alt analog).regs = s.regs := rfl
@[simp] theorem State.setPinAlt_rwtOld (s : State) (p alt : Nat) (analog : Bool) : (s.setPinAlt p alt analog).rwtOld = s.rwtOld := rfl
@[simp] theorem State.setPinAlt_time (s : State) (p alt : Nat) (analog : Bool) : (s.setPinAlt p alt analog).time = s.time := rfl
@[simp] theorem State.setPinAlt_power (s : State) (p alt : Nat) (analog : Bool) : (s.setPinAlt p alt analog).power = s.power := rfl
@[simp] theorem State.setPinAlt_ana (s : State) (p alt : Nat) (analog : Bool) : (s.setPinAlt p alt analog).ana = s.ana := rfl
@[simp] theorem State.setPinAlt_pool (s : State) (p alt : Nat) (analog : Bool) : (s.setPinAlt p alt analog).pool = s.pool := rfl
@[simp] theorem State.setPinAlt_cal (s : State) (p alt : Nat) (analog : Bool) : (s.setPinAlt p alt analog).cal = s.cal := rfl
@[simp] theorem State.setPinAlt_chains (s : State) (p alt : Nat) (analog : Bool) : (s.setPinAlt p alt analog).chains = s.chains := rfl
@[simp] theorem State.setPinAlt_cores (s : State) (p alt : Nat) (analog : Bool) : (s.setPinAlt p alt analog).cores = s.cores := rfl
@[simp] theorem State.setPinAlt_net (s : State) (p alt : Nat) (analog : Bool) : (s.setPinAlt p alt analog).net = s.net := rfl
@[simp] theorem State.setPinAlt_wheel (s : State) (p alt : Nat) (analog : Bool) : (s.setPinAlt p alt analog).wheel = s.wheel := rfl
@[simp] theorem State.setPinAlt_fns (s : State) (p alt : Nat) (analog : Bool) : (s.setPinAlt p alt analog).fns = s.fns := rfl
@[simp] theorem State.setPinAlt_mem (s : State) (p alt : Nat) (analog : Bool) : (s.setPinAlt p alt analog).mem = s.mem := rfl
@[simp] theorem State.setPinAlt_sags (s : State) (p alt : Nat) (analog : Bool) : (s.setPinAlt p alt analog).sags = s.sags := rfl
@[simp] theorem State.setPinAlt_loader (s : State) (p alt : Nat) (analog : Bool) : (s.setPinAlt p alt analog).loader = s.loader := rfl
@[simp] theorem State.setPinAlt_noc (s : State) (p alt : Nat) (analog : Bool) : (s.setPinAlt p alt analog).noc = s.noc := rfl
@[simp] theorem State.setPinAlt_boot (s : State) (p alt : Nat) (analog : Bool) : (s.setPinAlt p alt analog).boot = s.boot := rfl
@[simp] theorem State.setPinAlt_events (s : State) (p alt : Nat) (analog : Bool) : (s.setPinAlt p alt analog).events = s.events := rfl
@[simp] theorem State.setPinAlt_logFullSaid (s : State) (p alt : Nat) (analog : Bool) : (s.setPinAlt p alt analog).logFullSaid = s.logFullSaid := rfl
@[simp] theorem State.setPinAlt_freeCtr (s : State) (p alt : Nat) (analog : Bool) : (s.setPinAlt p alt analog).freeCtr = s.freeCtr := rfl
@[simp] theorem State.setPinAlt_hwAt (s : State) (p alt : Nat) (analog : Bool) : (s.setPinAlt p alt analog).hwAt = s.hwAt := rfl
@[simp] theorem State.setPinAlt_hwSet (s : State) (p alt : Nat) (analog : Bool) : (s.setPinAlt p alt analog).hwSet = s.hwSet := rfl
@[simp] theorem State.setPinAlt_out (s : State) (p alt : Nat) (analog : Bool) : (s.setPinAlt p alt analog).out = s.out := rfl

@[simp] theorem State.setSwitch_pending (s : State) (p : Nat) (x : Option Switch) : (s.setSwitch p x).pending = s.pending := rfl
@[simp] theorem State.setSwitch_part (s : State) (p : Nat) (x : Option Switch) : (s.setSwitch p x).part = s.part := rfl
@[simp] theorem State.setSwitch_regs (s : State) (p : Nat) (x : Option Switch) : (s.setSwitch p x).regs = s.regs := rfl
@[simp] theorem State.setSwitch_rwtOld (s : State) (p : Nat) (x : Option Switch) : (s.setSwitch p x).rwtOld = s.rwtOld := rfl
@[simp] theorem State.setSwitch_time (s : State) (p : Nat) (x : Option Switch) : (s.setSwitch p x).time = s.time := rfl
@[simp] theorem State.setSwitch_power (s : State) (p : Nat) (x : Option Switch) : (s.setSwitch p x).power = s.power := rfl
@[simp] theorem State.setSwitch_ana (s : State) (p : Nat) (x : Option Switch) : (s.setSwitch p x).ana = s.ana := rfl
@[simp] theorem State.setSwitch_pool (s : State) (p : Nat) (x : Option Switch) : (s.setSwitch p x).pool = s.pool := rfl
@[simp] theorem State.setSwitch_cal (s : State) (p : Nat) (x : Option Switch) : (s.setSwitch p x).cal = s.cal := rfl
@[simp] theorem State.setSwitch_chains (s : State) (p : Nat) (x : Option Switch) : (s.setSwitch p x).chains = s.chains := rfl
@[simp] theorem State.setSwitch_cores (s : State) (p : Nat) (x : Option Switch) : (s.setSwitch p x).cores = s.cores := rfl
@[simp] theorem State.setSwitch_net (s : State) (p : Nat) (x : Option Switch) : (s.setSwitch p x).net = s.net := rfl
@[simp] theorem State.setSwitch_wheel (s : State) (p : Nat) (x : Option Switch) : (s.setSwitch p x).wheel = s.wheel := rfl
@[simp] theorem State.setSwitch_fns (s : State) (p : Nat) (x : Option Switch) : (s.setSwitch p x).fns = s.fns := rfl
@[simp] theorem State.setSwitch_mem (s : State) (p : Nat) (x : Option Switch) : (s.setSwitch p x).mem = s.mem := rfl
@[simp] theorem State.setSwitch_sags (s : State) (p : Nat) (x : Option Switch) : (s.setSwitch p x).sags = s.sags := rfl
@[simp] theorem State.setSwitch_loader (s : State) (p : Nat) (x : Option Switch) : (s.setSwitch p x).loader = s.loader := rfl
@[simp] theorem State.setSwitch_noc (s : State) (p : Nat) (x : Option Switch) : (s.setSwitch p x).noc = s.noc := rfl
@[simp] theorem State.setSwitch_boot (s : State) (p : Nat) (x : Option Switch) : (s.setSwitch p x).boot = s.boot := rfl
@[simp] theorem State.setSwitch_events (s : State) (p : Nat) (x : Option Switch) : (s.setSwitch p x).events = s.events := rfl
@[simp] theorem State.setSwitch_logFullSaid (s : State) (p : Nat) (x : Option Switch) : (s.setSwitch p x).logFullSaid = s.logFullSaid := rfl
@[simp] theorem State.setSwitch_freeCtr (s : State) (p : Nat) (x : Option Switch) : (s.setSwitch p x).freeCtr = s.freeCtr := rfl
@[simp] theorem State.setSwitch_hwAt (s : State) (p : Nat) (x : Option Switch) : (s.setSwitch p x).hwAt = s.hwAt := rfl
@[simp] theorem State.setSwitch_hwSet (s : State) (p : Nat) (x : Option Switch) : (s.setSwitch p x).hwSet = s.hwSet := rfl
@[simp] theorem State.setSwitch_out (s : State) (p : Nat) (x : Option Switch) : (s.setSwitch p x).out = s.out := rfl

@[simp] theorem State.setSpiTx_pending (s : State) (u : Nat) (x : TxQueue) : (s.setSpiTx u x).pending = s.pending := rfl
@[simp] theorem State.setSpiTx_part (s : State) (u : Nat) (x : TxQueue) : (s.setSpiTx u x).part = s.part := rfl
@[simp] theorem State.setSpiTx_regs (s : State) (u : Nat) (x : TxQueue) : (s.setSpiTx u x).regs = s.regs := rfl
@[simp] theorem State.setSpiTx_rwtOld (s : State) (u : Nat) (x : TxQueue) : (s.setSpiTx u x).rwtOld = s.rwtOld := rfl
@[simp] theorem State.setSpiTx_time (s : State) (u : Nat) (x : TxQueue) : (s.setSpiTx u x).time = s.time := rfl
@[simp] theorem State.setSpiTx_power (s : State) (u : Nat) (x : TxQueue) : (s.setSpiTx u x).power = s.power := rfl
@[simp] theorem State.setSpiTx_ana (s : State) (u : Nat) (x : TxQueue) : (s.setSpiTx u x).ana = s.ana := rfl
@[simp] theorem State.setSpiTx_pool (s : State) (u : Nat) (x : TxQueue) : (s.setSpiTx u x).pool = s.pool := rfl
@[simp] theorem State.setSpiTx_cal (s : State) (u : Nat) (x : TxQueue) : (s.setSpiTx u x).cal = s.cal := rfl
@[simp] theorem State.setSpiTx_chains (s : State) (u : Nat) (x : TxQueue) : (s.setSpiTx u x).chains = s.chains := rfl
@[simp] theorem State.setSpiTx_cores (s : State) (u : Nat) (x : TxQueue) : (s.setSpiTx u x).cores = s.cores := rfl
@[simp] theorem State.setSpiTx_net (s : State) (u : Nat) (x : TxQueue) : (s.setSpiTx u x).net = s.net := rfl
@[simp] theorem State.setSpiTx_wheel (s : State) (u : Nat) (x : TxQueue) : (s.setSpiTx u x).wheel = s.wheel := rfl
@[simp] theorem State.setSpiTx_fns (s : State) (u : Nat) (x : TxQueue) : (s.setSpiTx u x).fns = s.fns := rfl
@[simp] theorem State.setSpiTx_mem (s : State) (u : Nat) (x : TxQueue) : (s.setSpiTx u x).mem = s.mem := rfl
@[simp] theorem State.setSpiTx_sags (s : State) (u : Nat) (x : TxQueue) : (s.setSpiTx u x).sags = s.sags := rfl
@[simp] theorem State.setSpiTx_loader (s : State) (u : Nat) (x : TxQueue) : (s.setSpiTx u x).loader = s.loader := rfl
@[simp] theorem State.setSpiTx_noc (s : State) (u : Nat) (x : TxQueue) : (s.setSpiTx u x).noc = s.noc := rfl
@[simp] theorem State.setSpiTx_boot (s : State) (u : Nat) (x : TxQueue) : (s.setSpiTx u x).boot = s.boot := rfl
@[simp] theorem State.setSpiTx_events (s : State) (u : Nat) (x : TxQueue) : (s.setSpiTx u x).events = s.events := rfl
@[simp] theorem State.setSpiTx_logFullSaid (s : State) (u : Nat) (x : TxQueue) : (s.setSpiTx u x).logFullSaid = s.logFullSaid := rfl
@[simp] theorem State.setSpiTx_freeCtr (s : State) (u : Nat) (x : TxQueue) : (s.setSpiTx u x).freeCtr = s.freeCtr := rfl
@[simp] theorem State.setSpiTx_hwAt (s : State) (u : Nat) (x : TxQueue) : (s.setSpiTx u x).hwAt = s.hwAt := rfl
@[simp] theorem State.setSpiTx_hwSet (s : State) (u : Nat) (x : TxQueue) : (s.setSpiTx u x).hwSet = s.hwSet := rfl
@[simp] theorem State.setSpiTx_out (s : State) (u : Nat) (x : TxQueue) : (s.setSpiTx u x).out = s.out := rfl

@[simp] theorem State.setSpiRx_pending (s : State) (u : Nat) (x : List Nat) : (s.setSpiRx u x).pending = s.pending := rfl
@[simp] theorem State.setSpiRx_part (s : State) (u : Nat) (x : List Nat) : (s.setSpiRx u x).part = s.part := rfl
@[simp] theorem State.setSpiRx_regs (s : State) (u : Nat) (x : List Nat) : (s.setSpiRx u x).regs = s.regs := rfl
@[simp] theorem State.setSpiRx_rwtOld (s : State) (u : Nat) (x : List Nat) : (s.setSpiRx u x).rwtOld = s.rwtOld := rfl
@[simp] theorem State.setSpiRx_time (s : State) (u : Nat) (x : List Nat) : (s.setSpiRx u x).time = s.time := rfl
@[simp] theorem State.setSpiRx_power (s : State) (u : Nat) (x : List Nat) : (s.setSpiRx u x).power = s.power := rfl
@[simp] theorem State.setSpiRx_ana (s : State) (u : Nat) (x : List Nat) : (s.setSpiRx u x).ana = s.ana := rfl
@[simp] theorem State.setSpiRx_pool (s : State) (u : Nat) (x : List Nat) : (s.setSpiRx u x).pool = s.pool := rfl
@[simp] theorem State.setSpiRx_cal (s : State) (u : Nat) (x : List Nat) : (s.setSpiRx u x).cal = s.cal := rfl
@[simp] theorem State.setSpiRx_chains (s : State) (u : Nat) (x : List Nat) : (s.setSpiRx u x).chains = s.chains := rfl
@[simp] theorem State.setSpiRx_cores (s : State) (u : Nat) (x : List Nat) : (s.setSpiRx u x).cores = s.cores := rfl
@[simp] theorem State.setSpiRx_net (s : State) (u : Nat) (x : List Nat) : (s.setSpiRx u x).net = s.net := rfl
@[simp] theorem State.setSpiRx_wheel (s : State) (u : Nat) (x : List Nat) : (s.setSpiRx u x).wheel = s.wheel := rfl
@[simp] theorem State.setSpiRx_fns (s : State) (u : Nat) (x : List Nat) : (s.setSpiRx u x).fns = s.fns := rfl
@[simp] theorem State.setSpiRx_mem (s : State) (u : Nat) (x : List Nat) : (s.setSpiRx u x).mem = s.mem := rfl
@[simp] theorem State.setSpiRx_sags (s : State) (u : Nat) (x : List Nat) : (s.setSpiRx u x).sags = s.sags := rfl
@[simp] theorem State.setSpiRx_loader (s : State) (u : Nat) (x : List Nat) : (s.setSpiRx u x).loader = s.loader := rfl
@[simp] theorem State.setSpiRx_noc (s : State) (u : Nat) (x : List Nat) : (s.setSpiRx u x).noc = s.noc := rfl
@[simp] theorem State.setSpiRx_boot (s : State) (u : Nat) (x : List Nat) : (s.setSpiRx u x).boot = s.boot := rfl
@[simp] theorem State.setSpiRx_events (s : State) (u : Nat) (x : List Nat) : (s.setSpiRx u x).events = s.events := rfl
@[simp] theorem State.setSpiRx_logFullSaid (s : State) (u : Nat) (x : List Nat) : (s.setSpiRx u x).logFullSaid = s.logFullSaid := rfl
@[simp] theorem State.setSpiRx_freeCtr (s : State) (u : Nat) (x : List Nat) : (s.setSpiRx u x).freeCtr = s.freeCtr := rfl
@[simp] theorem State.setSpiRx_hwAt (s : State) (u : Nat) (x : List Nat) : (s.setSpiRx u x).hwAt = s.hwAt := rfl
@[simp] theorem State.setSpiRx_hwSet (s : State) (u : Nat) (x : List Nat) : (s.setSpiRx u x).hwSet = s.hwSet := rfl
@[simp] theorem State.setSpiRx_out (s : State) (u : Nat) (x : List Nat) : (s.setSpiRx u x).out = s.out := rfl

@[simp] theorem State.setUartTx_pending (s : State) (u : Nat) (x : TxQueue) : (s.setUartTx u x).pending = s.pending := rfl
@[simp] theorem State.setUartTx_part (s : State) (u : Nat) (x : TxQueue) : (s.setUartTx u x).part = s.part := rfl
@[simp] theorem State.setUartTx_regs (s : State) (u : Nat) (x : TxQueue) : (s.setUartTx u x).regs = s.regs := rfl
@[simp] theorem State.setUartTx_rwtOld (s : State) (u : Nat) (x : TxQueue) : (s.setUartTx u x).rwtOld = s.rwtOld := rfl
@[simp] theorem State.setUartTx_time (s : State) (u : Nat) (x : TxQueue) : (s.setUartTx u x).time = s.time := rfl
@[simp] theorem State.setUartTx_power (s : State) (u : Nat) (x : TxQueue) : (s.setUartTx u x).power = s.power := rfl
@[simp] theorem State.setUartTx_ana (s : State) (u : Nat) (x : TxQueue) : (s.setUartTx u x).ana = s.ana := rfl
@[simp] theorem State.setUartTx_pool (s : State) (u : Nat) (x : TxQueue) : (s.setUartTx u x).pool = s.pool := rfl
@[simp] theorem State.setUartTx_cal (s : State) (u : Nat) (x : TxQueue) : (s.setUartTx u x).cal = s.cal := rfl
@[simp] theorem State.setUartTx_chains (s : State) (u : Nat) (x : TxQueue) : (s.setUartTx u x).chains = s.chains := rfl
@[simp] theorem State.setUartTx_cores (s : State) (u : Nat) (x : TxQueue) : (s.setUartTx u x).cores = s.cores := rfl
@[simp] theorem State.setUartTx_net (s : State) (u : Nat) (x : TxQueue) : (s.setUartTx u x).net = s.net := rfl
@[simp] theorem State.setUartTx_wheel (s : State) (u : Nat) (x : TxQueue) : (s.setUartTx u x).wheel = s.wheel := rfl
@[simp] theorem State.setUartTx_fns (s : State) (u : Nat) (x : TxQueue) : (s.setUartTx u x).fns = s.fns := rfl
@[simp] theorem State.setUartTx_mem (s : State) (u : Nat) (x : TxQueue) : (s.setUartTx u x).mem = s.mem := rfl
@[simp] theorem State.setUartTx_sags (s : State) (u : Nat) (x : TxQueue) : (s.setUartTx u x).sags = s.sags := rfl
@[simp] theorem State.setUartTx_loader (s : State) (u : Nat) (x : TxQueue) : (s.setUartTx u x).loader = s.loader := rfl
@[simp] theorem State.setUartTx_noc (s : State) (u : Nat) (x : TxQueue) : (s.setUartTx u x).noc = s.noc := rfl
@[simp] theorem State.setUartTx_boot (s : State) (u : Nat) (x : TxQueue) : (s.setUartTx u x).boot = s.boot := rfl
@[simp] theorem State.setUartTx_events (s : State) (u : Nat) (x : TxQueue) : (s.setUartTx u x).events = s.events := rfl
@[simp] theorem State.setUartTx_logFullSaid (s : State) (u : Nat) (x : TxQueue) : (s.setUartTx u x).logFullSaid = s.logFullSaid := rfl
@[simp] theorem State.setUartTx_freeCtr (s : State) (u : Nat) (x : TxQueue) : (s.setUartTx u x).freeCtr = s.freeCtr := rfl
@[simp] theorem State.setUartTx_hwAt (s : State) (u : Nat) (x : TxQueue) : (s.setUartTx u x).hwAt = s.hwAt := rfl
@[simp] theorem State.setUartTx_hwSet (s : State) (u : Nat) (x : TxQueue) : (s.setUartTx u x).hwSet = s.hwSet := rfl
@[simp] theorem State.setUartTx_out (s : State) (u : Nat) (x : TxQueue) : (s.setUartTx u x).out = s.out := rfl

@[simp] theorem State.setUartRx_pending (s : State) (u : Nat) (x : List Byte) : (s.setUartRx u x).pending = s.pending := rfl
@[simp] theorem State.setUartRx_part (s : State) (u : Nat) (x : List Byte) : (s.setUartRx u x).part = s.part := rfl
@[simp] theorem State.setUartRx_regs (s : State) (u : Nat) (x : List Byte) : (s.setUartRx u x).regs = s.regs := rfl
@[simp] theorem State.setUartRx_rwtOld (s : State) (u : Nat) (x : List Byte) : (s.setUartRx u x).rwtOld = s.rwtOld := rfl
@[simp] theorem State.setUartRx_time (s : State) (u : Nat) (x : List Byte) : (s.setUartRx u x).time = s.time := rfl
@[simp] theorem State.setUartRx_power (s : State) (u : Nat) (x : List Byte) : (s.setUartRx u x).power = s.power := rfl
@[simp] theorem State.setUartRx_ana (s : State) (u : Nat) (x : List Byte) : (s.setUartRx u x).ana = s.ana := rfl
@[simp] theorem State.setUartRx_pool (s : State) (u : Nat) (x : List Byte) : (s.setUartRx u x).pool = s.pool := rfl
@[simp] theorem State.setUartRx_cal (s : State) (u : Nat) (x : List Byte) : (s.setUartRx u x).cal = s.cal := rfl
@[simp] theorem State.setUartRx_chains (s : State) (u : Nat) (x : List Byte) : (s.setUartRx u x).chains = s.chains := rfl
@[simp] theorem State.setUartRx_cores (s : State) (u : Nat) (x : List Byte) : (s.setUartRx u x).cores = s.cores := rfl
@[simp] theorem State.setUartRx_net (s : State) (u : Nat) (x : List Byte) : (s.setUartRx u x).net = s.net := rfl
@[simp] theorem State.setUartRx_wheel (s : State) (u : Nat) (x : List Byte) : (s.setUartRx u x).wheel = s.wheel := rfl
@[simp] theorem State.setUartRx_fns (s : State) (u : Nat) (x : List Byte) : (s.setUartRx u x).fns = s.fns := rfl
@[simp] theorem State.setUartRx_mem (s : State) (u : Nat) (x : List Byte) : (s.setUartRx u x).mem = s.mem := rfl
@[simp] theorem State.setUartRx_sags (s : State) (u : Nat) (x : List Byte) : (s.setUartRx u x).sags = s.sags := rfl
@[simp] theorem State.setUartRx_loader (s : State) (u : Nat) (x : List Byte) : (s.setUartRx u x).loader = s.loader := rfl
@[simp] theorem State.setUartRx_noc (s : State) (u : Nat) (x : List Byte) : (s.setUartRx u x).noc = s.noc := rfl
@[simp] theorem State.setUartRx_boot (s : State) (u : Nat) (x : List Byte) : (s.setUartRx u x).boot = s.boot := rfl
@[simp] theorem State.setUartRx_events (s : State) (u : Nat) (x : List Byte) : (s.setUartRx u x).events = s.events := rfl
@[simp] theorem State.setUartRx_logFullSaid (s : State) (u : Nat) (x : List Byte) : (s.setUartRx u x).logFullSaid = s.logFullSaid := rfl
@[simp] theorem State.setUartRx_freeCtr (s : State) (u : Nat) (x : List Byte) : (s.setUartRx u x).freeCtr = s.freeCtr := rfl
@[simp] theorem State.setUartRx_hwAt (s : State) (u : Nat) (x : List Byte) : (s.setUartRx u x).hwAt = s.hwAt := rfl
@[simp] theorem State.setUartRx_hwSet (s : State) (u : Nat) (x : List Byte) : (s.setUartRx u x).hwSet = s.hwSet := rfl
@[simp] theorem State.setUartRx_out (s : State) (u : Nat) (x : List Byte) : (s.setUartRx u x).out = s.out := rfl

@[simp] theorem State.setTmr_pending (s : State) (n : Nat) (x : TmrSt) : (s.setTmr n x).pending = s.pending := rfl
@[simp] theorem State.setTmr_part (s : State) (n : Nat) (x : TmrSt) : (s.setTmr n x).part = s.part := rfl
@[simp] theorem State.setTmr_regs (s : State) (n : Nat) (x : TmrSt) : (s.setTmr n x).regs = s.regs := rfl
@[simp] theorem State.setTmr_rwtOld (s : State) (n : Nat) (x : TmrSt) : (s.setTmr n x).rwtOld = s.rwtOld := rfl
@[simp] theorem State.setTmr_time (s : State) (n : Nat) (x : TmrSt) : (s.setTmr n x).time = s.time := rfl
@[simp] theorem State.setTmr_power (s : State) (n : Nat) (x : TmrSt) : (s.setTmr n x).power = s.power := rfl
@[simp] theorem State.setTmr_ana (s : State) (n : Nat) (x : TmrSt) : (s.setTmr n x).ana = s.ana := rfl
@[simp] theorem State.setTmr_pool (s : State) (n : Nat) (x : TmrSt) : (s.setTmr n x).pool = s.pool := rfl
@[simp] theorem State.setTmr_cal (s : State) (n : Nat) (x : TmrSt) : (s.setTmr n x).cal = s.cal := rfl
@[simp] theorem State.setTmr_chains (s : State) (n : Nat) (x : TmrSt) : (s.setTmr n x).chains = s.chains := rfl
@[simp] theorem State.setTmr_cores (s : State) (n : Nat) (x : TmrSt) : (s.setTmr n x).cores = s.cores := rfl
@[simp] theorem State.setTmr_net (s : State) (n : Nat) (x : TmrSt) : (s.setTmr n x).net = s.net := rfl
@[simp] theorem State.setTmr_wheel (s : State) (n : Nat) (x : TmrSt) : (s.setTmr n x).wheel = s.wheel := rfl
@[simp] theorem State.setTmr_fns (s : State) (n : Nat) (x : TmrSt) : (s.setTmr n x).fns = s.fns := rfl
@[simp] theorem State.setTmr_mem (s : State) (n : Nat) (x : TmrSt) : (s.setTmr n x).mem = s.mem := rfl
@[simp] theorem State.setTmr_sags (s : State) (n : Nat) (x : TmrSt) : (s.setTmr n x).sags = s.sags := rfl
@[simp] theorem State.setTmr_loader (s : State) (n : Nat) (x : TmrSt) : (s.setTmr n x).loader = s.loader := rfl
@[simp] theorem State.setTmr_noc (s : State) (n : Nat) (x : TmrSt) : (s.setTmr n x).noc = s.noc := rfl
@[simp] theorem State.setTmr_boot (s : State) (n : Nat) (x : TmrSt) : (s.setTmr n x).boot = s.boot := rfl
@[simp] theorem State.setTmr_events (s : State) (n : Nat) (x : TmrSt) : (s.setTmr n x).events = s.events := rfl
@[simp] theorem State.setTmr_logFullSaid (s : State) (n : Nat) (x : TmrSt) : (s.setTmr n x).logFullSaid = s.logFullSaid := rfl
@[simp] theorem State.setTmr_freeCtr (s : State) (n : Nat) (x : TmrSt) : (s.setTmr n x).freeCtr = s.freeCtr := rfl
@[simp] theorem State.setTmr_hwAt (s : State) (n : Nat) (x : TmrSt) : (s.setTmr n x).hwAt = s.hwAt := rfl
@[simp] theorem State.setTmr_hwSet (s : State) (n : Nat) (x : TmrSt) : (s.setTmr n x).hwSet = s.hwSet := rfl
@[simp] theorem State.setTmr_out (s : State) (n : Nat) (x : TmrSt) : (s.setTmr n x).out = s.out := rfl

@[simp] theorem State.count_pending (s : State) (off : Nat) : (s.count off).pending = s.pending := rfl
@[simp] theorem State.count_part (s : State) (off : Nat) : (s.count off).part = s.part := rfl
@[simp] theorem State.count_rwtOld (s : State) (off : Nat) : (s.count off).rwtOld = s.rwtOld := rfl
@[simp] theorem State.count_time (s : State) (off : Nat) : (s.count off).time = s.time := rfl
@[simp] theorem State.count_power (s : State) (off : Nat) : (s.count off).power = s.power := rfl
@[simp] theorem State.count_ana (s : State) (off : Nat) : (s.count off).ana = s.ana := rfl
@[simp] theorem State.count_pool (s : State) (off : Nat) : (s.count off).pool = s.pool := rfl
@[simp] theorem State.count_cal (s : State) (off : Nat) : (s.count off).cal = s.cal := rfl
@[simp] theorem State.count_chains (s : State) (off : Nat) : (s.count off).chains = s.chains := rfl
@[simp] theorem State.count_cores (s : State) (off : Nat) : (s.count off).cores = s.cores := rfl
@[simp] theorem State.count_net (s : State) (off : Nat) : (s.count off).net = s.net := rfl
@[simp] theorem State.count_wheel (s : State) (off : Nat) : (s.count off).wheel = s.wheel := rfl
@[simp] theorem State.count_fns (s : State) (off : Nat) : (s.count off).fns = s.fns := rfl
@[simp] theorem State.count_mem (s : State) (off : Nat) : (s.count off).mem = s.mem := rfl
@[simp] theorem State.count_sags (s : State) (off : Nat) : (s.count off).sags = s.sags := rfl
@[simp] theorem State.count_loader (s : State) (off : Nat) : (s.count off).loader = s.loader := rfl
@[simp] theorem State.count_noc (s : State) (off : Nat) : (s.count off).noc = s.noc := rfl
@[simp] theorem State.count_pins (s : State) (off : Nat) : (s.count off).pins = s.pins := rfl
@[simp] theorem State.count_boot (s : State) (off : Nat) : (s.count off).boot = s.boot := rfl
@[simp] theorem State.count_events (s : State) (off : Nat) : (s.count off).events = s.events := rfl
@[simp] theorem State.count_logFullSaid (s : State) (off : Nat) : (s.count off).logFullSaid = s.logFullSaid := rfl
@[simp] theorem State.count_freeCtr (s : State) (off : Nat) : (s.count off).freeCtr = s.freeCtr := rfl
@[simp] theorem State.count_hwAt (s : State) (off : Nat) : (s.count off).hwAt = s.hwAt := rfl
@[simp] theorem State.count_hwSet (s : State) (off : Nat) : (s.count off).hwSet = s.hwSet := rfl
@[simp] theorem State.count_out (s : State) (off : Nat) : (s.count off).out = s.out := rfl

@[simp] theorem State.resetIntegrator_pending (s : State) (q b : Nat) : (s.resetIntegrator q b).pending = s.pending := rfl
@[simp] theorem State.resetIntegrator_part (s : State) (q b : Nat) : (s.resetIntegrator q b).part = s.part := rfl
@[simp] theorem State.resetIntegrator_regs (s : State) (q b : Nat) : (s.resetIntegrator q b).regs = s.regs := rfl
@[simp] theorem State.resetIntegrator_rwtOld (s : State) (q b : Nat) : (s.resetIntegrator q b).rwtOld = s.rwtOld := rfl
@[simp] theorem State.resetIntegrator_time (s : State) (q b : Nat) : (s.resetIntegrator q b).time = s.time := rfl
@[simp] theorem State.resetIntegrator_power (s : State) (q b : Nat) : (s.resetIntegrator q b).power = s.power := rfl
@[simp] theorem State.resetIntegrator_pool (s : State) (q b : Nat) : (s.resetIntegrator q b).pool = s.pool := rfl
@[simp] theorem State.resetIntegrator_cal (s : State) (q b : Nat) : (s.resetIntegrator q b).cal = s.cal := rfl
@[simp] theorem State.resetIntegrator_chains (s : State) (q b : Nat) : (s.resetIntegrator q b).chains = s.chains := rfl
@[simp] theorem State.resetIntegrator_cores (s : State) (q b : Nat) : (s.resetIntegrator q b).cores = s.cores := rfl
@[simp] theorem State.resetIntegrator_net (s : State) (q b : Nat) : (s.resetIntegrator q b).net = s.net := rfl
@[simp] theorem State.resetIntegrator_wheel (s : State) (q b : Nat) : (s.resetIntegrator q b).wheel = s.wheel := rfl
@[simp] theorem State.resetIntegrator_fns (s : State) (q b : Nat) : (s.resetIntegrator q b).fns = s.fns := rfl
@[simp] theorem State.resetIntegrator_mem (s : State) (q b : Nat) : (s.resetIntegrator q b).mem = s.mem := rfl
@[simp] theorem State.resetIntegrator_sags (s : State) (q b : Nat) : (s.resetIntegrator q b).sags = s.sags := rfl
@[simp] theorem State.resetIntegrator_loader (s : State) (q b : Nat) : (s.resetIntegrator q b).loader = s.loader := rfl
@[simp] theorem State.resetIntegrator_noc (s : State) (q b : Nat) : (s.resetIntegrator q b).noc = s.noc := rfl
@[simp] theorem State.resetIntegrator_pins (s : State) (q b : Nat) : (s.resetIntegrator q b).pins = s.pins := rfl
@[simp] theorem State.resetIntegrator_boot (s : State) (q b : Nat) : (s.resetIntegrator q b).boot = s.boot := rfl
@[simp] theorem State.resetIntegrator_events (s : State) (q b : Nat) : (s.resetIntegrator q b).events = s.events := rfl
@[simp] theorem State.resetIntegrator_logFullSaid (s : State) (q b : Nat) : (s.resetIntegrator q b).logFullSaid = s.logFullSaid := rfl
@[simp] theorem State.resetIntegrator_freeCtr (s : State) (q b : Nat) : (s.resetIntegrator q b).freeCtr = s.freeCtr := rfl
@[simp] theorem State.resetIntegrator_hwAt (s : State) (q b : Nat) : (s.resetIntegrator q b).hwAt = s.hwAt := rfl
@[simp] theorem State.resetIntegrator_hwSet (s : State) (q b : Nat) : (s.resetIntegrator q b).hwSet = s.hwSet := rfl
@[simp] theorem State.resetIntegrator_out (s : State) (q b : Nat) : (s.resetIntegrator q b).out = s.out := rfl

@[simp] theorem State.send_pending (s : State) (p : Packet) : (s.send p).pending = s.pending := rfl
@[simp] theorem State.send_part (s : State) (p : Packet) : (s.send p).part = s.part := rfl
@[simp] theorem State.send_regs (s : State) (p : Packet) : (s.send p).regs = s.regs := rfl
@[simp] theorem State.send_rwtOld (s : State) (p : Packet) : (s.send p).rwtOld = s.rwtOld := rfl
@[simp] theorem State.send_time (s : State) (p : Packet) : (s.send p).time = s.time := rfl
@[simp] theorem State.send_power (s : State) (p : Packet) : (s.send p).power = s.power := rfl
@[simp] theorem State.send_ana (s : State) (p : Packet) : (s.send p).ana = s.ana := rfl
@[simp] theorem State.send_pool (s : State) (p : Packet) : (s.send p).pool = s.pool := rfl
@[simp] theorem State.send_cal (s : State) (p : Packet) : (s.send p).cal = s.cal := rfl
@[simp] theorem State.send_chains (s : State) (p : Packet) : (s.send p).chains = s.chains := rfl
@[simp] theorem State.send_cores (s : State) (p : Packet) : (s.send p).cores = s.cores := rfl
@[simp] theorem State.send_wheel (s : State) (p : Packet) : (s.send p).wheel = s.wheel := rfl
@[simp] theorem State.send_fns (s : State) (p : Packet) : (s.send p).fns = s.fns := rfl
@[simp] theorem State.send_mem (s : State) (p : Packet) : (s.send p).mem = s.mem := rfl
@[simp] theorem State.send_sags (s : State) (p : Packet) : (s.send p).sags = s.sags := rfl
@[simp] theorem State.send_loader (s : State) (p : Packet) : (s.send p).loader = s.loader := rfl
@[simp] theorem State.send_noc (s : State) (p : Packet) : (s.send p).noc = s.noc := rfl
@[simp] theorem State.send_pins (s : State) (p : Packet) : (s.send p).pins = s.pins := rfl
@[simp] theorem State.send_boot (s : State) (p : Packet) : (s.send p).boot = s.boot := rfl
@[simp] theorem State.send_events (s : State) (p : Packet) : (s.send p).events = s.events := rfl
@[simp] theorem State.send_logFullSaid (s : State) (p : Packet) : (s.send p).logFullSaid = s.logFullSaid := rfl
@[simp] theorem State.send_freeCtr (s : State) (p : Packet) : (s.send p).freeCtr = s.freeCtr := rfl
@[simp] theorem State.send_hwAt (s : State) (p : Packet) : (s.send p).hwAt = s.hwAt := rfl
@[simp] theorem State.send_hwSet (s : State) (p : Packet) : (s.send p).hwSet = s.hwSet := rfl
@[simp] theorem State.send_out (s : State) (p : Packet) : (s.send p).out = s.out := rfl

@[simp] theorem State.latchTime_pending (s : State) (f : Nat) : (s.latchTime f).pending = s.pending := rfl
@[simp] theorem State.latchTime_part (s : State) (f : Nat) : (s.latchTime f).part = s.part := rfl
@[simp] theorem State.latchTime_regs (s : State) (f : Nat) : (s.latchTime f).regs = s.regs := rfl
@[simp] theorem State.latchTime_rwtOld (s : State) (f : Nat) : (s.latchTime f).rwtOld = s.rwtOld := rfl
@[simp] theorem State.latchTime_power (s : State) (f : Nat) : (s.latchTime f).power = s.power := rfl
@[simp] theorem State.latchTime_ana (s : State) (f : Nat) : (s.latchTime f).ana = s.ana := rfl
@[simp] theorem State.latchTime_pool (s : State) (f : Nat) : (s.latchTime f).pool = s.pool := rfl
@[simp] theorem State.latchTime_cal (s : State) (f : Nat) : (s.latchTime f).cal = s.cal := rfl
@[simp] theorem State.latchTime_chains (s : State) (f : Nat) : (s.latchTime f).chains = s.chains := rfl
@[simp] theorem State.latchTime_cores (s : State) (f : Nat) : (s.latchTime f).cores = s.cores := rfl
@[simp] theorem State.latchTime_net (s : State) (f : Nat) : (s.latchTime f).net = s.net := rfl
@[simp] theorem State.latchTime_wheel (s : State) (f : Nat) : (s.latchTime f).wheel = s.wheel := rfl
@[simp] theorem State.latchTime_fns (s : State) (f : Nat) : (s.latchTime f).fns = s.fns := rfl
@[simp] theorem State.latchTime_mem (s : State) (f : Nat) : (s.latchTime f).mem = s.mem := rfl
@[simp] theorem State.latchTime_sags (s : State) (f : Nat) : (s.latchTime f).sags = s.sags := rfl
@[simp] theorem State.latchTime_loader (s : State) (f : Nat) : (s.latchTime f).loader = s.loader := rfl
@[simp] theorem State.latchTime_noc (s : State) (f : Nat) : (s.latchTime f).noc = s.noc := rfl
@[simp] theorem State.latchTime_pins (s : State) (f : Nat) : (s.latchTime f).pins = s.pins := rfl
@[simp] theorem State.latchTime_boot (s : State) (f : Nat) : (s.latchTime f).boot = s.boot := rfl
@[simp] theorem State.latchTime_events (s : State) (f : Nat) : (s.latchTime f).events = s.events := rfl
@[simp] theorem State.latchTime_logFullSaid (s : State) (f : Nat) : (s.latchTime f).logFullSaid = s.logFullSaid := rfl
@[simp] theorem State.latchTime_freeCtr (s : State) (f : Nat) : (s.latchTime f).freeCtr = s.freeCtr := rfl
@[simp] theorem State.latchTime_hwAt (s : State) (f : Nat) : (s.latchTime f).hwAt = s.hwAt := rfl
@[simp] theorem State.latchTime_hwSet (s : State) (f : Nat) : (s.latchTime f).hwSet = s.hwSet := rfl
@[simp] theorem State.latchTime_out (s : State) (f : Nat) : (s.latchTime f).out = s.out := rfl

@[simp] theorem State.setFlag_pending (s : State) (off : Nat) (F : Fld) : (s.setFlag off F).pending = s.pending := rfl
@[simp] theorem State.setFlag_part (s : State) (off : Nat) (F : Fld) : (s.setFlag off F).part = s.part := rfl
@[simp] theorem State.setFlag_rwtOld (s : State) (off : Nat) (F : Fld) : (s.setFlag off F).rwtOld = s.rwtOld := rfl
@[simp] theorem State.setFlag_time (s : State) (off : Nat) (F : Fld) : (s.setFlag off F).time = s.time := rfl
@[simp] theorem State.setFlag_power (s : State) (off : Nat) (F : Fld) : (s.setFlag off F).power = s.power := rfl
@[simp] theorem State.setFlag_ana (s : State) (off : Nat) (F : Fld) : (s.setFlag off F).ana = s.ana := rfl
@[simp] theorem State.setFlag_pool (s : State) (off : Nat) (F : Fld) : (s.setFlag off F).pool = s.pool := rfl
@[simp] theorem State.setFlag_cal (s : State) (off : Nat) (F : Fld) : (s.setFlag off F).cal = s.cal := rfl
@[simp] theorem State.setFlag_chains (s : State) (off : Nat) (F : Fld) : (s.setFlag off F).chains = s.chains := rfl
@[simp] theorem State.setFlag_cores (s : State) (off : Nat) (F : Fld) : (s.setFlag off F).cores = s.cores := rfl
@[simp] theorem State.setFlag_net (s : State) (off : Nat) (F : Fld) : (s.setFlag off F).net = s.net := rfl
@[simp] theorem State.setFlag_wheel (s : State) (off : Nat) (F : Fld) : (s.setFlag off F).wheel = s.wheel := rfl
@[simp] theorem State.setFlag_fns (s : State) (off : Nat) (F : Fld) : (s.setFlag off F).fns = s.fns := rfl
@[simp] theorem State.setFlag_mem (s : State) (off : Nat) (F : Fld) : (s.setFlag off F).mem = s.mem := rfl
@[simp] theorem State.setFlag_sags (s : State) (off : Nat) (F : Fld) : (s.setFlag off F).sags = s.sags := rfl
@[simp] theorem State.setFlag_loader (s : State) (off : Nat) (F : Fld) : (s.setFlag off F).loader = s.loader := rfl
@[simp] theorem State.setFlag_noc (s : State) (off : Nat) (F : Fld) : (s.setFlag off F).noc = s.noc := rfl
@[simp] theorem State.setFlag_pins (s : State) (off : Nat) (F : Fld) : (s.setFlag off F).pins = s.pins := rfl
@[simp] theorem State.setFlag_boot (s : State) (off : Nat) (F : Fld) : (s.setFlag off F).boot = s.boot := rfl
@[simp] theorem State.setFlag_events (s : State) (off : Nat) (F : Fld) : (s.setFlag off F).events = s.events := rfl
@[simp] theorem State.setFlag_logFullSaid (s : State) (off : Nat) (F : Fld) : (s.setFlag off F).logFullSaid = s.logFullSaid := rfl
@[simp] theorem State.setFlag_freeCtr (s : State) (off : Nat) (F : Fld) : (s.setFlag off F).freeCtr = s.freeCtr := rfl
@[simp] theorem State.setFlag_out (s : State) (off : Nat) (F : Fld) : (s.setFlag off F).out = s.out := rfl

@[simp] theorem State.holdPads_pending (s : State) (off : Nat) : (s.holdPads off).pending = s.pending := rfl
@[simp] theorem State.holdPads_part (s : State) (off : Nat) : (s.holdPads off).part = s.part := rfl
@[simp] theorem State.holdPads_regs (s : State) (off : Nat) : (s.holdPads off).regs = s.regs := rfl
@[simp] theorem State.holdPads_rwtOld (s : State) (off : Nat) : (s.holdPads off).rwtOld = s.rwtOld := rfl
@[simp] theorem State.holdPads_time (s : State) (off : Nat) : (s.holdPads off).time = s.time := rfl
@[simp] theorem State.holdPads_power (s : State) (off : Nat) : (s.holdPads off).power = s.power := rfl
@[simp] theorem State.holdPads_ana (s : State) (off : Nat) : (s.holdPads off).ana = s.ana := rfl
@[simp] theorem State.holdPads_pool (s : State) (off : Nat) : (s.holdPads off).pool = s.pool := rfl
@[simp] theorem State.holdPads_cal (s : State) (off : Nat) : (s.holdPads off).cal = s.cal := rfl
@[simp] theorem State.holdPads_chains (s : State) (off : Nat) : (s.holdPads off).chains = s.chains := rfl
@[simp] theorem State.holdPads_cores (s : State) (off : Nat) : (s.holdPads off).cores = s.cores := rfl
@[simp] theorem State.holdPads_net (s : State) (off : Nat) : (s.holdPads off).net = s.net := rfl
@[simp] theorem State.holdPads_wheel (s : State) (off : Nat) : (s.holdPads off).wheel = s.wheel := rfl
@[simp] theorem State.holdPads_fns (s : State) (off : Nat) : (s.holdPads off).fns = s.fns := rfl
@[simp] theorem State.holdPads_mem (s : State) (off : Nat) : (s.holdPads off).mem = s.mem := rfl
@[simp] theorem State.holdPads_sags (s : State) (off : Nat) : (s.holdPads off).sags = s.sags := rfl
@[simp] theorem State.holdPads_loader (s : State) (off : Nat) : (s.holdPads off).loader = s.loader := rfl
@[simp] theorem State.holdPads_noc (s : State) (off : Nat) : (s.holdPads off).noc = s.noc := rfl
@[simp] theorem State.holdPads_boot (s : State) (off : Nat) : (s.holdPads off).boot = s.boot := rfl
@[simp] theorem State.holdPads_events (s : State) (off : Nat) : (s.holdPads off).events = s.events := rfl
@[simp] theorem State.holdPads_logFullSaid (s : State) (off : Nat) : (s.holdPads off).logFullSaid = s.logFullSaid := rfl
@[simp] theorem State.holdPads_freeCtr (s : State) (off : Nat) : (s.holdPads off).freeCtr = s.freeCtr := rfl
@[simp] theorem State.holdPads_hwAt (s : State) (off : Nat) : (s.holdPads off).hwAt = s.hwAt := rfl
@[simp] theorem State.holdPads_hwSet (s : State) (off : Nat) : (s.holdPads off).hwSet = s.hwSet := rfl
@[simp] theorem State.holdPads_out (s : State) (off : Nat) : (s.holdPads off).out = s.out := rfl

@[simp] theorem State.rearmPins_pending (s : State) (ps : List Nat) : (s.rearmPins ps).pending = s.pending := rfl
@[simp] theorem State.rearmPins_part (s : State) (ps : List Nat) : (s.rearmPins ps).part = s.part := rfl
@[simp] theorem State.rearmPins_regs (s : State) (ps : List Nat) : (s.rearmPins ps).regs = s.regs := rfl
@[simp] theorem State.rearmPins_rwtOld (s : State) (ps : List Nat) : (s.rearmPins ps).rwtOld = s.rwtOld := rfl
@[simp] theorem State.rearmPins_time (s : State) (ps : List Nat) : (s.rearmPins ps).time = s.time := rfl
@[simp] theorem State.rearmPins_power (s : State) (ps : List Nat) : (s.rearmPins ps).power = s.power := rfl
@[simp] theorem State.rearmPins_ana (s : State) (ps : List Nat) : (s.rearmPins ps).ana = s.ana := rfl
@[simp] theorem State.rearmPins_pool (s : State) (ps : List Nat) : (s.rearmPins ps).pool = s.pool := rfl
@[simp] theorem State.rearmPins_cal (s : State) (ps : List Nat) : (s.rearmPins ps).cal = s.cal := rfl
@[simp] theorem State.rearmPins_chains (s : State) (ps : List Nat) : (s.rearmPins ps).chains = s.chains := rfl
@[simp] theorem State.rearmPins_cores (s : State) (ps : List Nat) : (s.rearmPins ps).cores = s.cores := rfl
@[simp] theorem State.rearmPins_net (s : State) (ps : List Nat) : (s.rearmPins ps).net = s.net := rfl
@[simp] theorem State.rearmPins_wheel (s : State) (ps : List Nat) : (s.rearmPins ps).wheel = s.wheel := rfl
@[simp] theorem State.rearmPins_fns (s : State) (ps : List Nat) : (s.rearmPins ps).fns = s.fns := rfl
@[simp] theorem State.rearmPins_mem (s : State) (ps : List Nat) : (s.rearmPins ps).mem = s.mem := rfl
@[simp] theorem State.rearmPins_sags (s : State) (ps : List Nat) : (s.rearmPins ps).sags = s.sags := rfl
@[simp] theorem State.rearmPins_loader (s : State) (ps : List Nat) : (s.rearmPins ps).loader = s.loader := rfl
@[simp] theorem State.rearmPins_noc (s : State) (ps : List Nat) : (s.rearmPins ps).noc = s.noc := rfl
@[simp] theorem State.rearmPins_boot (s : State) (ps : List Nat) : (s.rearmPins ps).boot = s.boot := rfl
@[simp] theorem State.rearmPins_events (s : State) (ps : List Nat) : (s.rearmPins ps).events = s.events := rfl
@[simp] theorem State.rearmPins_logFullSaid (s : State) (ps : List Nat) : (s.rearmPins ps).logFullSaid = s.logFullSaid := rfl
@[simp] theorem State.rearmPins_freeCtr (s : State) (ps : List Nat) : (s.rearmPins ps).freeCtr = s.freeCtr := rfl
@[simp] theorem State.rearmPins_hwAt (s : State) (ps : List Nat) : (s.rearmPins ps).hwAt = s.hwAt := rfl
@[simp] theorem State.rearmPins_hwSet (s : State) (ps : List Nat) : (s.rearmPins ps).hwSet = s.hwSet := rfl
@[simp] theorem State.rearmPins_out (s : State) (ps : List Nat) : (s.rearmPins ps).out = s.out := rfl

@[simp] theorem State.landed_pending (s : State) (p : Packet) : (s.landed p).pending = s.pending := rfl
@[simp] theorem State.landed_part (s : State) (p : Packet) : (s.landed p).part = s.part := rfl
@[simp] theorem State.landed_regs (s : State) (p : Packet) : (s.landed p).regs = s.regs := rfl
@[simp] theorem State.landed_rwtOld (s : State) (p : Packet) : (s.landed p).rwtOld = s.rwtOld := rfl
@[simp] theorem State.landed_time (s : State) (p : Packet) : (s.landed p).time = s.time := rfl
@[simp] theorem State.landed_power (s : State) (p : Packet) : (s.landed p).power = s.power := rfl
@[simp] theorem State.landed_ana (s : State) (p : Packet) : (s.landed p).ana = s.ana := rfl
@[simp] theorem State.landed_pool (s : State) (p : Packet) : (s.landed p).pool = s.pool := rfl
@[simp] theorem State.landed_cal (s : State) (p : Packet) : (s.landed p).cal = s.cal := rfl
@[simp] theorem State.landed_chains (s : State) (p : Packet) : (s.landed p).chains = s.chains := rfl
@[simp] theorem State.landed_cores (s : State) (p : Packet) : (s.landed p).cores = s.cores := rfl
@[simp] theorem State.landed_wheel (s : State) (p : Packet) : (s.landed p).wheel = s.wheel := rfl
@[simp] theorem State.landed_fns (s : State) (p : Packet) : (s.landed p).fns = s.fns := rfl
@[simp] theorem State.landed_mem (s : State) (p : Packet) : (s.landed p).mem = s.mem := rfl
@[simp] theorem State.landed_sags (s : State) (p : Packet) : (s.landed p).sags = s.sags := rfl
@[simp] theorem State.landed_loader (s : State) (p : Packet) : (s.landed p).loader = s.loader := rfl
@[simp] theorem State.landed_noc (s : State) (p : Packet) : (s.landed p).noc = s.noc := rfl
@[simp] theorem State.landed_pins (s : State) (p : Packet) : (s.landed p).pins = s.pins := rfl
@[simp] theorem State.landed_boot (s : State) (p : Packet) : (s.landed p).boot = s.boot := rfl
@[simp] theorem State.landed_events (s : State) (p : Packet) : (s.landed p).events = s.events := rfl
@[simp] theorem State.landed_logFullSaid (s : State) (p : Packet) : (s.landed p).logFullSaid = s.logFullSaid := rfl
@[simp] theorem State.landed_freeCtr (s : State) (p : Packet) : (s.landed p).freeCtr = s.freeCtr := rfl
@[simp] theorem State.landed_hwAt (s : State) (p : Packet) : (s.landed p).hwAt = s.hwAt := rfl
@[simp] theorem State.landed_hwSet (s : State) (p : Packet) : (s.landed p).hwSet = s.hwSet := rfl
@[simp] theorem State.landed_out (s : State) (p : Packet) : (s.landed p).out = s.out := rfl

@[simp] theorem State.moved_pending (s : State) (p q : Packet) : (s.moved p q).pending = s.pending := rfl
@[simp] theorem State.moved_part (s : State) (p q : Packet) : (s.moved p q).part = s.part := rfl
@[simp] theorem State.moved_regs (s : State) (p q : Packet) : (s.moved p q).regs = s.regs := rfl
@[simp] theorem State.moved_rwtOld (s : State) (p q : Packet) : (s.moved p q).rwtOld = s.rwtOld := rfl
@[simp] theorem State.moved_time (s : State) (p q : Packet) : (s.moved p q).time = s.time := rfl
@[simp] theorem State.moved_power (s : State) (p q : Packet) : (s.moved p q).power = s.power := rfl
@[simp] theorem State.moved_ana (s : State) (p q : Packet) : (s.moved p q).ana = s.ana := rfl
@[simp] theorem State.moved_pool (s : State) (p q : Packet) : (s.moved p q).pool = s.pool := rfl
@[simp] theorem State.moved_cal (s : State) (p q : Packet) : (s.moved p q).cal = s.cal := rfl
@[simp] theorem State.moved_chains (s : State) (p q : Packet) : (s.moved p q).chains = s.chains := rfl
@[simp] theorem State.moved_cores (s : State) (p q : Packet) : (s.moved p q).cores = s.cores := rfl
@[simp] theorem State.moved_wheel (s : State) (p q : Packet) : (s.moved p q).wheel = s.wheel := rfl
@[simp] theorem State.moved_fns (s : State) (p q : Packet) : (s.moved p q).fns = s.fns := rfl
@[simp] theorem State.moved_mem (s : State) (p q : Packet) : (s.moved p q).mem = s.mem := rfl
@[simp] theorem State.moved_sags (s : State) (p q : Packet) : (s.moved p q).sags = s.sags := rfl
@[simp] theorem State.moved_loader (s : State) (p q : Packet) : (s.moved p q).loader = s.loader := rfl
@[simp] theorem State.moved_noc (s : State) (p q : Packet) : (s.moved p q).noc = s.noc := rfl
@[simp] theorem State.moved_pins (s : State) (p q : Packet) : (s.moved p q).pins = s.pins := rfl
@[simp] theorem State.moved_boot (s : State) (p q : Packet) : (s.moved p q).boot = s.boot := rfl
@[simp] theorem State.moved_events (s : State) (p q : Packet) : (s.moved p q).events = s.events := rfl
@[simp] theorem State.moved_logFullSaid (s : State) (p q : Packet) : (s.moved p q).logFullSaid = s.logFullSaid := rfl
@[simp] theorem State.moved_freeCtr (s : State) (p q : Packet) : (s.moved p q).freeCtr = s.freeCtr := rfl
@[simp] theorem State.moved_hwAt (s : State) (p q : Packet) : (s.moved p q).hwAt = s.hwAt := rfl
@[simp] theorem State.moved_hwSet (s : State) (p q : Packet) : (s.moved p q).hwSet = s.hwSet := rfl
@[simp] theorem State.moved_out (s : State) (p q : Packet) : (s.moved p q).out = s.out := rfl

@[simp] theorem State.takeCredits_pending (s : State) (p : Packet) : (s.takeCredits p).pending = s.pending := rfl
@[simp] theorem State.takeCredits_part (s : State) (p : Packet) : (s.takeCredits p).part = s.part := rfl
@[simp] theorem State.takeCredits_regs (s : State) (p : Packet) : (s.takeCredits p).regs = s.regs := rfl
@[simp] theorem State.takeCredits_rwtOld (s : State) (p : Packet) : (s.takeCredits p).rwtOld = s.rwtOld := rfl
@[simp] theorem State.takeCredits_time (s : State) (p : Packet) : (s.takeCredits p).time = s.time := rfl
@[simp] theorem State.takeCredits_power (s : State) (p : Packet) : (s.takeCredits p).power = s.power := rfl
@[simp] theorem State.takeCredits_ana (s : State) (p : Packet) : (s.takeCredits p).ana = s.ana := rfl
@[simp] theorem State.takeCredits_pool (s : State) (p : Packet) : (s.takeCredits p).pool = s.pool := rfl
@[simp] theorem State.takeCredits_cal (s : State) (p : Packet) : (s.takeCredits p).cal = s.cal := rfl
@[simp] theorem State.takeCredits_chains (s : State) (p : Packet) : (s.takeCredits p).chains = s.chains := rfl
@[simp] theorem State.takeCredits_cores (s : State) (p : Packet) : (s.takeCredits p).cores = s.cores := rfl
@[simp] theorem State.takeCredits_net (s : State) (p : Packet) : (s.takeCredits p).net = s.net := rfl
@[simp] theorem State.takeCredits_wheel (s : State) (p : Packet) : (s.takeCredits p).wheel = s.wheel := rfl
@[simp] theorem State.takeCredits_fns (s : State) (p : Packet) : (s.takeCredits p).fns = s.fns := rfl
@[simp] theorem State.takeCredits_mem (s : State) (p : Packet) : (s.takeCredits p).mem = s.mem := rfl
@[simp] theorem State.takeCredits_sags (s : State) (p : Packet) : (s.takeCredits p).sags = s.sags := rfl
@[simp] theorem State.takeCredits_loader (s : State) (p : Packet) : (s.takeCredits p).loader = s.loader := rfl
@[simp] theorem State.takeCredits_pins (s : State) (p : Packet) : (s.takeCredits p).pins = s.pins := rfl
@[simp] theorem State.takeCredits_boot (s : State) (p : Packet) : (s.takeCredits p).boot = s.boot := rfl
@[simp] theorem State.takeCredits_events (s : State) (p : Packet) : (s.takeCredits p).events = s.events := rfl
@[simp] theorem State.takeCredits_logFullSaid (s : State) (p : Packet) : (s.takeCredits p).logFullSaid = s.logFullSaid := rfl
@[simp] theorem State.takeCredits_freeCtr (s : State) (p : Packet) : (s.takeCredits p).freeCtr = s.freeCtr := rfl
@[simp] theorem State.takeCredits_hwAt (s : State) (p : Packet) : (s.takeCredits p).hwAt = s.hwAt := rfl
@[simp] theorem State.takeCredits_hwSet (s : State) (p : Packet) : (s.takeCredits p).hwSet = s.hwSet := rfl
@[simp] theorem State.takeCredits_out (s : State) (p : Packet) : (s.takeCredits p).out = s.out := rfl

@[simp] theorem State.setLink_pending (s : State) (k : Nat) (x : LinkSt) : (s.setLink k x).pending = s.pending := rfl
@[simp] theorem State.setLink_part (s : State) (k : Nat) (x : LinkSt) : (s.setLink k x).part = s.part := rfl
@[simp] theorem State.setLink_regs (s : State) (k : Nat) (x : LinkSt) : (s.setLink k x).regs = s.regs := rfl
@[simp] theorem State.setLink_rwtOld (s : State) (k : Nat) (x : LinkSt) : (s.setLink k x).rwtOld = s.rwtOld := rfl
@[simp] theorem State.setLink_time (s : State) (k : Nat) (x : LinkSt) : (s.setLink k x).time = s.time := rfl
@[simp] theorem State.setLink_power (s : State) (k : Nat) (x : LinkSt) : (s.setLink k x).power = s.power := rfl
@[simp] theorem State.setLink_ana (s : State) (k : Nat) (x : LinkSt) : (s.setLink k x).ana = s.ana := rfl
@[simp] theorem State.setLink_pool (s : State) (k : Nat) (x : LinkSt) : (s.setLink k x).pool = s.pool := rfl
@[simp] theorem State.setLink_cal (s : State) (k : Nat) (x : LinkSt) : (s.setLink k x).cal = s.cal := rfl
@[simp] theorem State.setLink_chains (s : State) (k : Nat) (x : LinkSt) : (s.setLink k x).chains = s.chains := rfl
@[simp] theorem State.setLink_cores (s : State) (k : Nat) (x : LinkSt) : (s.setLink k x).cores = s.cores := rfl
@[simp] theorem State.setLink_net (s : State) (k : Nat) (x : LinkSt) : (s.setLink k x).net = s.net := rfl
@[simp] theorem State.setLink_wheel (s : State) (k : Nat) (x : LinkSt) : (s.setLink k x).wheel = s.wheel := rfl
@[simp] theorem State.setLink_fns (s : State) (k : Nat) (x : LinkSt) : (s.setLink k x).fns = s.fns := rfl
@[simp] theorem State.setLink_mem (s : State) (k : Nat) (x : LinkSt) : (s.setLink k x).mem = s.mem := rfl
@[simp] theorem State.setLink_sags (s : State) (k : Nat) (x : LinkSt) : (s.setLink k x).sags = s.sags := rfl
@[simp] theorem State.setLink_loader (s : State) (k : Nat) (x : LinkSt) : (s.setLink k x).loader = s.loader := rfl
@[simp] theorem State.setLink_pins (s : State) (k : Nat) (x : LinkSt) : (s.setLink k x).pins = s.pins := rfl
@[simp] theorem State.setLink_boot (s : State) (k : Nat) (x : LinkSt) : (s.setLink k x).boot = s.boot := rfl
@[simp] theorem State.setLink_events (s : State) (k : Nat) (x : LinkSt) : (s.setLink k x).events = s.events := rfl
@[simp] theorem State.setLink_logFullSaid (s : State) (k : Nat) (x : LinkSt) : (s.setLink k x).logFullSaid = s.logFullSaid := rfl
@[simp] theorem State.setLink_freeCtr (s : State) (k : Nat) (x : LinkSt) : (s.setLink k x).freeCtr = s.freeCtr := rfl
@[simp] theorem State.setLink_hwAt (s : State) (k : Nat) (x : LinkSt) : (s.setLink k x).hwAt = s.hwAt := rfl
@[simp] theorem State.setLink_hwSet (s : State) (k : Nat) (x : LinkSt) : (s.setLink k x).hwSet = s.hwSet := rfl
@[simp] theorem State.setLink_out (s : State) (k : Nat) (x : LinkSt) : (s.setLink k x).out = s.out := rfl

@[simp] theorem State.setBufs_pending (s : State) (f k : Nat) (l : List HostDesc) : (s.setBufs f k l).pending = s.pending := rfl
@[simp] theorem State.setBufs_part (s : State) (f k : Nat) (l : List HostDesc) : (s.setBufs f k l).part = s.part := rfl
@[simp] theorem State.setBufs_regs (s : State) (f k : Nat) (l : List HostDesc) : (s.setBufs f k l).regs = s.regs := rfl
@[simp] theorem State.setBufs_rwtOld (s : State) (f k : Nat) (l : List HostDesc) : (s.setBufs f k l).rwtOld = s.rwtOld := rfl
@[simp] theorem State.setBufs_time (s : State) (f k : Nat) (l : List HostDesc) : (s.setBufs f k l).time = s.time := rfl
@[simp] theorem State.setBufs_power (s : State) (f k : Nat) (l : List HostDesc) : (s.setBufs f k l).power = s.power := rfl
@[simp] theorem State.setBufs_ana (s : State) (f k : Nat) (l : List HostDesc) : (s.setBufs f k l).ana = s.ana := rfl
@[simp] theorem State.setBufs_pool (s : State) (f k : Nat) (l : List HostDesc) : (s.setBufs f k l).pool = s.pool := rfl
@[simp] theorem State.setBufs_cal (s : State) (f k : Nat) (l : List HostDesc) : (s.setBufs f k l).cal = s.cal := rfl
@[simp] theorem State.setBufs_chains (s : State) (f k : Nat) (l : List HostDesc) : (s.setBufs f k l).chains = s.chains := rfl
@[simp] theorem State.setBufs_cores (s : State) (f k : Nat) (l : List HostDesc) : (s.setBufs f k l).cores = s.cores := rfl
@[simp] theorem State.setBufs_net (s : State) (f k : Nat) (l : List HostDesc) : (s.setBufs f k l).net = s.net := rfl
@[simp] theorem State.setBufs_wheel (s : State) (f k : Nat) (l : List HostDesc) : (s.setBufs f k l).wheel = s.wheel := rfl
@[simp] theorem State.setBufs_mem (s : State) (f k : Nat) (l : List HostDesc) : (s.setBufs f k l).mem = s.mem := rfl
@[simp] theorem State.setBufs_sags (s : State) (f k : Nat) (l : List HostDesc) : (s.setBufs f k l).sags = s.sags := rfl
@[simp] theorem State.setBufs_loader (s : State) (f k : Nat) (l : List HostDesc) : (s.setBufs f k l).loader = s.loader := rfl
@[simp] theorem State.setBufs_noc (s : State) (f k : Nat) (l : List HostDesc) : (s.setBufs f k l).noc = s.noc := rfl
@[simp] theorem State.setBufs_pins (s : State) (f k : Nat) (l : List HostDesc) : (s.setBufs f k l).pins = s.pins := rfl
@[simp] theorem State.setBufs_boot (s : State) (f k : Nat) (l : List HostDesc) : (s.setBufs f k l).boot = s.boot := rfl
@[simp] theorem State.setBufs_events (s : State) (f k : Nat) (l : List HostDesc) : (s.setBufs f k l).events = s.events := rfl
@[simp] theorem State.setBufs_logFullSaid (s : State) (f k : Nat) (l : List HostDesc) : (s.setBufs f k l).logFullSaid = s.logFullSaid := rfl
@[simp] theorem State.setBufs_freeCtr (s : State) (f k : Nat) (l : List HostDesc) : (s.setBufs f k l).freeCtr = s.freeCtr := rfl
@[simp] theorem State.setBufs_hwAt (s : State) (f k : Nat) (l : List HostDesc) : (s.setBufs f k l).hwAt = s.hwAt := rfl
@[simp] theorem State.setBufs_hwSet (s : State) (f k : Nat) (l : List HostDesc) : (s.setBufs f k l).hwSet = s.hwSet := rfl
@[simp] theorem State.setBufs_out (s : State) (f k : Nat) (l : List HostDesc) : (s.setBufs f k l).out = s.out := rfl

@[simp] theorem State.setFill_pending (s : State) (f k : Nat) (x : Fill) : (s.setFill f k x).pending = s.pending := rfl
@[simp] theorem State.setFill_part (s : State) (f k : Nat) (x : Fill) : (s.setFill f k x).part = s.part := rfl
@[simp] theorem State.setFill_regs (s : State) (f k : Nat) (x : Fill) : (s.setFill f k x).regs = s.regs := rfl
@[simp] theorem State.setFill_rwtOld (s : State) (f k : Nat) (x : Fill) : (s.setFill f k x).rwtOld = s.rwtOld := rfl
@[simp] theorem State.setFill_time (s : State) (f k : Nat) (x : Fill) : (s.setFill f k x).time = s.time := rfl
@[simp] theorem State.setFill_power (s : State) (f k : Nat) (x : Fill) : (s.setFill f k x).power = s.power := rfl
@[simp] theorem State.setFill_ana (s : State) (f k : Nat) (x : Fill) : (s.setFill f k x).ana = s.ana := rfl
@[simp] theorem State.setFill_pool (s : State) (f k : Nat) (x : Fill) : (s.setFill f k x).pool = s.pool := rfl
@[simp] theorem State.setFill_cal (s : State) (f k : Nat) (x : Fill) : (s.setFill f k x).cal = s.cal := rfl
@[simp] theorem State.setFill_chains (s : State) (f k : Nat) (x : Fill) : (s.setFill f k x).chains = s.chains := rfl
@[simp] theorem State.setFill_cores (s : State) (f k : Nat) (x : Fill) : (s.setFill f k x).cores = s.cores := rfl
@[simp] theorem State.setFill_net (s : State) (f k : Nat) (x : Fill) : (s.setFill f k x).net = s.net := rfl
@[simp] theorem State.setFill_wheel (s : State) (f k : Nat) (x : Fill) : (s.setFill f k x).wheel = s.wheel := rfl
@[simp] theorem State.setFill_mem (s : State) (f k : Nat) (x : Fill) : (s.setFill f k x).mem = s.mem := rfl
@[simp] theorem State.setFill_sags (s : State) (f k : Nat) (x : Fill) : (s.setFill f k x).sags = s.sags := rfl
@[simp] theorem State.setFill_loader (s : State) (f k : Nat) (x : Fill) : (s.setFill f k x).loader = s.loader := rfl
@[simp] theorem State.setFill_noc (s : State) (f k : Nat) (x : Fill) : (s.setFill f k x).noc = s.noc := rfl
@[simp] theorem State.setFill_pins (s : State) (f k : Nat) (x : Fill) : (s.setFill f k x).pins = s.pins := rfl
@[simp] theorem State.setFill_boot (s : State) (f k : Nat) (x : Fill) : (s.setFill f k x).boot = s.boot := rfl
@[simp] theorem State.setFill_events (s : State) (f k : Nat) (x : Fill) : (s.setFill f k x).events = s.events := rfl
@[simp] theorem State.setFill_logFullSaid (s : State) (f k : Nat) (x : Fill) : (s.setFill f k x).logFullSaid = s.logFullSaid := rfl
@[simp] theorem State.setFill_freeCtr (s : State) (f k : Nat) (x : Fill) : (s.setFill f k x).freeCtr = s.freeCtr := rfl
@[simp] theorem State.setFill_hwAt (s : State) (f k : Nat) (x : Fill) : (s.setFill f k x).hwAt = s.hwAt := rfl
@[simp] theorem State.setFill_hwSet (s : State) (f k : Nat) (x : Fill) : (s.setFill f k x).hwSet = s.hwSet := rfl
@[simp] theorem State.setFill_out (s : State) (f k : Nat) (x : Fill) : (s.setFill f k x).out = s.out := rfl

@[simp] theorem State.takeDesc_pending (s : State) (f : Nat) (d : HostDesc) : (s.takeDesc f d).pending = s.pending := rfl
@[simp] theorem State.takeDesc_part (s : State) (f : Nat) (d : HostDesc) : (s.takeDesc f d).part = s.part := rfl
@[simp] theorem State.takeDesc_regs (s : State) (f : Nat) (d : HostDesc) : (s.takeDesc f d).regs = s.regs := rfl
@[simp] theorem State.takeDesc_rwtOld (s : State) (f : Nat) (d : HostDesc) : (s.takeDesc f d).rwtOld = s.rwtOld := rfl
@[simp] theorem State.takeDesc_time (s : State) (f : Nat) (d : HostDesc) : (s.takeDesc f d).time = s.time := rfl
@[simp] theorem State.takeDesc_power (s : State) (f : Nat) (d : HostDesc) : (s.takeDesc f d).power = s.power := rfl
@[simp] theorem State.takeDesc_ana (s : State) (f : Nat) (d : HostDesc) : (s.takeDesc f d).ana = s.ana := rfl
@[simp] theorem State.takeDesc_pool (s : State) (f : Nat) (d : HostDesc) : (s.takeDesc f d).pool = s.pool := rfl
@[simp] theorem State.takeDesc_cal (s : State) (f : Nat) (d : HostDesc) : (s.takeDesc f d).cal = s.cal := rfl
@[simp] theorem State.takeDesc_chains (s : State) (f : Nat) (d : HostDesc) : (s.takeDesc f d).chains = s.chains := rfl
@[simp] theorem State.takeDesc_cores (s : State) (f : Nat) (d : HostDesc) : (s.takeDesc f d).cores = s.cores := rfl
@[simp] theorem State.takeDesc_net (s : State) (f : Nat) (d : HostDesc) : (s.takeDesc f d).net = s.net := rfl
@[simp] theorem State.takeDesc_wheel (s : State) (f : Nat) (d : HostDesc) : (s.takeDesc f d).wheel = s.wheel := rfl
@[simp] theorem State.takeDesc_mem (s : State) (f : Nat) (d : HostDesc) : (s.takeDesc f d).mem = s.mem := rfl
@[simp] theorem State.takeDesc_sags (s : State) (f : Nat) (d : HostDesc) : (s.takeDesc f d).sags = s.sags := rfl
@[simp] theorem State.takeDesc_loader (s : State) (f : Nat) (d : HostDesc) : (s.takeDesc f d).loader = s.loader := rfl
@[simp] theorem State.takeDesc_noc (s : State) (f : Nat) (d : HostDesc) : (s.takeDesc f d).noc = s.noc := rfl
@[simp] theorem State.takeDesc_pins (s : State) (f : Nat) (d : HostDesc) : (s.takeDesc f d).pins = s.pins := rfl
@[simp] theorem State.takeDesc_boot (s : State) (f : Nat) (d : HostDesc) : (s.takeDesc f d).boot = s.boot := rfl
@[simp] theorem State.takeDesc_events (s : State) (f : Nat) (d : HostDesc) : (s.takeDesc f d).events = s.events := rfl
@[simp] theorem State.takeDesc_logFullSaid (s : State) (f : Nat) (d : HostDesc) : (s.takeDesc f d).logFullSaid = s.logFullSaid := rfl
@[simp] theorem State.takeDesc_freeCtr (s : State) (f : Nat) (d : HostDesc) : (s.takeDesc f d).freeCtr = s.freeCtr := rfl
@[simp] theorem State.takeDesc_hwAt (s : State) (f : Nat) (d : HostDesc) : (s.takeDesc f d).hwAt = s.hwAt := rfl
@[simp] theorem State.takeDesc_hwSet (s : State) (f : Nat) (d : HostDesc) : (s.takeDesc f d).hwSet = s.hwSet := rfl
@[simp] theorem State.takeDesc_out (s : State) (f : Nat) (d : HostDesc) : (s.takeDesc f d).out = s.out := rfl

@[simp] theorem State.putGraph_pending (s : State) (g : Graph) : (s.putGraph g).pending = s.pending := rfl
@[simp] theorem State.putGraph_part (s : State) (g : Graph) : (s.putGraph g).part = s.part := rfl
@[simp] theorem State.putGraph_regs (s : State) (g : Graph) : (s.putGraph g).regs = s.regs := rfl
@[simp] theorem State.putGraph_rwtOld (s : State) (g : Graph) : (s.putGraph g).rwtOld = s.rwtOld := rfl
@[simp] theorem State.putGraph_time (s : State) (g : Graph) : (s.putGraph g).time = s.time := rfl
@[simp] theorem State.putGraph_power (s : State) (g : Graph) : (s.putGraph g).power = s.power := rfl
@[simp] theorem State.putGraph_ana (s : State) (g : Graph) : (s.putGraph g).ana = s.ana := rfl
@[simp] theorem State.putGraph_pool (s : State) (g : Graph) : (s.putGraph g).pool = s.pool := rfl
@[simp] theorem State.putGraph_cal (s : State) (g : Graph) : (s.putGraph g).cal = s.cal := rfl
@[simp] theorem State.putGraph_chains (s : State) (g : Graph) : (s.putGraph g).chains = s.chains := rfl
@[simp] theorem State.putGraph_cores (s : State) (g : Graph) : (s.putGraph g).cores = s.cores := rfl
@[simp] theorem State.putGraph_net (s : State) (g : Graph) : (s.putGraph g).net = s.net := rfl
@[simp] theorem State.putGraph_fns (s : State) (g : Graph) : (s.putGraph g).fns = s.fns := rfl
@[simp] theorem State.putGraph_mem (s : State) (g : Graph) : (s.putGraph g).mem = s.mem := rfl
@[simp] theorem State.putGraph_sags (s : State) (g : Graph) : (s.putGraph g).sags = s.sags := rfl
@[simp] theorem State.putGraph_loader (s : State) (g : Graph) : (s.putGraph g).loader = s.loader := rfl
@[simp] theorem State.putGraph_noc (s : State) (g : Graph) : (s.putGraph g).noc = s.noc := rfl
@[simp] theorem State.putGraph_pins (s : State) (g : Graph) : (s.putGraph g).pins = s.pins := rfl
@[simp] theorem State.putGraph_boot (s : State) (g : Graph) : (s.putGraph g).boot = s.boot := rfl
@[simp] theorem State.putGraph_events (s : State) (g : Graph) : (s.putGraph g).events = s.events := rfl
@[simp] theorem State.putGraph_logFullSaid (s : State) (g : Graph) : (s.putGraph g).logFullSaid = s.logFullSaid := rfl
@[simp] theorem State.putGraph_freeCtr (s : State) (g : Graph) : (s.putGraph g).freeCtr = s.freeCtr := rfl
@[simp] theorem State.putGraph_hwAt (s : State) (g : Graph) : (s.putGraph g).hwAt = s.hwAt := rfl
@[simp] theorem State.putGraph_hwSet (s : State) (g : Graph) : (s.putGraph g).hwSet = s.hwSet := rfl
@[simp] theorem State.putGraph_out (s : State) (g : Graph) : (s.putGraph g).out = s.out := rfl

end Sys2Proof.Machine
end

