-- ==== Sys2Proof/Laws/Ops.lean ====
section
/-! SUPPORT. What the shared operations can do: registers and fields written, events raised, faults logged. -/

namespace Sys2Proof.Machine

/-! ### Registers -/

theorem State.reg_setReg (s : State) (a o : Nat) (w : Word) : (s.setReg a w).reg o = if o = a then w else s.reg o :=
  FMap.get_set ..

@[simp] theorem State.reg_setReg_same (s : State) (a : Nat) (w : Word) : (s.setReg a w).reg a = w := by
  simp [State.reg_setReg]

theorem State.reg_setReg_other (s : State) {a o : Nat} (w : Word) (h : o ≠ a) : (s.setReg a w).reg o = s.reg o := by
  simp [State.reg_setReg, h]

theorem State.reg_setFld (s : State) (a o : Nat) (F : Fld) (x : Nat) :
    (s.setFld a F x).reg o = if o = a then F.put (s.reg a) x else s.reg o := by
  simp [State.setFld, State.reg_setReg]

@[simp] theorem State.reg_setFld_same (s : State) (a : Nat) (F : Fld) (x : Nat) :
    (s.setFld a F x).reg a = F.put (s.reg a) x := by simp [State.reg_setFld]

/-- A register written: all else stays. -/
theorem State.setReg_frame (s : State) (a : Nat) (w : Word) : { s.setReg a w with regs := s.regs } = s := rfl

theorem State.setFld_frame (s : State) (a : Nat) (F : Fld) (x : Nat) : { s.setFld a F x with regs := s.regs } = s := rfl

/-- A flag set by hardware is a field set, and the record that R12 needs. -/
theorem State.reg_setFlag (s : State) (a o : Nat) (F : Fld) :
    (s.setFlag a F).reg o = if o = a then F.put (s.reg a) (2 ^ F.width - 1) else s.reg o := State.reg_setFld ..

/-- A flag set by hardware at this instant: a write at the same instant does not clear it (R12). -/
theorem State.setFlag_justSet (s : State) (a : Nat) (F : Fld) :
    (s.setFlag a F).justSet a = s.justSet a ||| F.mask := by
  simp [State.justSet, State.setFlag, State.setFld]

theorem State.setFlag_frame (s : State) (a : Nat) (F : Fld) :
    { s.setFlag a F with regs := s.regs, hwAt := s.hwAt, hwSet := s.hwSet } = s := rfl

/-- A timed register written reads at once, and what is in force stays (R11). -/
theorem State.setTimed_cur (s : State) (a : Nat) (w : Word) : (s.setTimed a w).oldReg a = s.oldReg a := by
  simp [State.setTimed, State.oldReg]

theorem State.reg_setTimed (s : State) (a o : Nat) (w : Word) :
    (s.setTimed a w).reg o = if o = a then w else s.reg o := State.reg_setReg ..

/-! ### Events (R459–R463) -/

theorem State.deliver_eq (s : State) (e : Event) (f : Nat) :
    s.deliver e f = { s with events := (s.deliver e f).events } := by
  unfold State.deliver; split <;> rfl

@[simp] theorem State.deliver_enabled (s : State) (e : Event) (f g src : Nat) :
    (s.deliver e f).enabled g src = s.enabled g src := by
  rw [State.deliver_eq]; rfl

theorem State.deliver_queueOf (s : State) (e : Event) (f g : Nat) :
    (s.deliver e f).queueOf g = if g = f ∧ s.enabled f e.source then insertEvent e (s.queueOf g) else s.queueOf g := by
  unfold State.deliver State.queueOf
  split
  next h => by_cases hg : g = f <;> simp [FMap.get_set, hg, h]
  next h => simp [h]

theorem State.delivers_eq (fs : List Nat) (e : Event) : ∀ s : State,
    fs.foldl (fun t f => t.deliver e f) s = { s with events := (fs.foldl (fun t f => t.deliver e f) s).events } := by
  induction fs with
  | nil => intro s; rfl
  | cons f fs ih => intro s; simp only [List.foldl_cons]; rw [ih]; conv => rhs; rw [ih]
                    rw [State.deliver_eq]

theorem State.delivers_queueOf (fs : List Nat) (e : Event) (g : Nat) : ∀ s : State, fs.Nodup →
    (fs.foldl (fun t f => t.deliver e f) s).queueOf g =
      if fs.contains g && s.enabled g e.source then insertEvent e (s.queueOf g) else s.queueOf g := by
  induction fs with
  | nil => intro s _; simp
  | cons f fs ih =>
    intro s hn
    simp only [List.nodup_cons] at hn
    simp only [List.foldl_cons]
    rw [ih _ hn.2, State.deliver_queueOf, State.deliver_enabled]
    by_cases hg : g = f
    · subst hg; simp [hn.1]
    · simp [hg]

/-- Raising an event touches nothing but the queues of events. -/
theorem State.raise_eq (s : State) (src rsn : Nat) (args : List Nat) (whom : Nat) (slot : Option Nat) (logged : Bool) :
    s.raise src rsn args whom slot logged = { s with events := (s.raise src rsn args whom slot logged).events } := by
  unfold State.raise
  split
  · exact State.delivers_eq _ _ s
  · rfl

theorem nodup_eraseDups {α : Type} [BEq α] [LawfulBEq α] (l : List α) : l.eraseDups.Nodup := by
  suffices h : ∀ n (l : List α), l.length ≤ n → l.eraseDups.Nodup from h _ _ (Nat.le_refl _)
  intro n
  induction n with
  | zero => intro l h; simp at h; subst h; simp
  | succ n ih =>
    intro l h
    cases l with
    | nil => simp
    | cons a l =>
      rw [List.eraseDups_cons, List.nodup_cons]
      refine ⟨?_, ih _ ?_⟩
      · simp [List.mem_eraseDups]
      · have := List.length_filter_le (fun b => !b == a) l
        simp at h; omega

/-- Each function that an event is for, and that has its source enabled, finds it in its queue, once and in its place;
no other queue changes. -/
theorem State.queueOf_raise (s : State) (src rsn : Nat) (args : List Nat) (whom : Nat) (slot : Option Nat) (logged : Bool)
    (h : sourcePresent s.part src = true) (g : Nat) :
    (s.raise src rsn args whom slot logged).queueOf g =
      if ((if logged then [0] else []) ++ s.recipients src rsn (args.getD 0 0) whom).contains g && s.enabled g src
      then insertEvent (s.eventOf src rsn args whom slot) (s.queueOf g) else s.queueOf g := by
  unfold State.raise
  rw [if_pos h]
  rw [State.delivers_queueOf _ _ _ _ (nodup_eraseDups _)]
  have : ∀ l : List Nat, l.eraseDups.contains g = l.contains g := by
    intro l; rw [Bool.eq_iff_iff]; simp [List.mem_eraseDups]
  rw [this]; rfl

@[simp] theorem State.raise_reg (s : State) (src rsn : Nat) (args : List Nat) (whom : Nat) (slot : Option Nat) (logged : Bool) (o : Nat) :
    (s.raise src rsn args whom slot logged).reg o = s.reg o := by rw [State.raise_eq]; rfl

@[simp] theorem State.raise_regs (s : State) (src rsn : Nat) (args : List Nat) (whom : Nat) (slot : Option Nat) (logged : Bool) :
    (s.raise src rsn args whom slot logged).regs = s.regs := by rw [State.raise_eq]

@[simp] theorem State.raise_pending (s : State) (src rsn : Nat) (args : List Nat) (whom : Nat) (slot : Option Nat) (logged : Bool) :
    (s.raise src rsn args whom slot logged).pending = s.pending := by rw [State.raise_eq]

@[simp] theorem State.raise_part (s : State) (src rsn : Nat) (args : List Nat) (whom : Nat) (slot : Option Nat) (logged : Bool) :
    (s.raise src rsn args whom slot logged).part = s.part := by rw [State.raise_eq]

@[simp] theorem State.raise_rwtOld (s : State) (src rsn : Nat) (args : List Nat) (whom : Nat) (slot : Option Nat) (logged : Bool) :
    (s.raise src rsn args whom slot logged).rwtOld = s.rwtOld := by rw [State.raise_eq]

@[simp] theorem State.raise_time (s : State) (src rsn : Nat) (args : List Nat) (whom : Nat) (slot : Option Nat) (logged : Bool) :
    (s.raise src rsn args whom slot logged).time = s.time := by rw [State.raise_eq]

@[simp] theorem State.raise_power (s : State) (src rsn : Nat) (args : List Nat) (whom : Nat) (slot : Option Nat) (logged : Bool) :
    (s.raise src rsn args whom slot logged).power = s.power := by rw [State.raise_eq]

@[simp] theorem State.raise_ana (s : State) (src rsn : Nat) (args : List Nat) (whom : Nat) (slot : Option Nat) (logged : Bool) :
    (s.raise src rsn args whom slot logged).ana = s.ana := by rw [State.raise_eq]

@[simp] theorem State.raise_pool (s : State) (src rsn : Nat) (args : List Nat) (whom : Nat) (slot : Option Nat) (logged : Bool) :
    (s.raise src rsn args whom slot logged).pool = s.pool := by rw [State.raise_eq]

@[simp] theorem State.raise_cal (s : State) (src rsn : Nat) (args : List Nat) (whom : Nat) (slot : Option Nat) (logged : Bool) :
    (s.raise src rsn args whom slot logged).cal = s.cal := by rw [State.raise_eq]

@[simp] theorem State.raise_chains (s : State) (src rsn : Nat) (args : List Nat) (whom : Nat) (slot : Option Nat) (logged : Bool) :
    (s.raise src rsn args whom slot logged).chains = s.chains := by rw [State.raise_eq]

@[simp] theorem State.raise_cores (s : State) (src rsn : Nat) (args : List Nat) (whom : Nat) (slot : Option Nat) (logged : Bool) :
    (s.raise src rsn args whom slot logged).cores = s.cores := by rw [State.raise_eq]

@[simp] theorem State.raise_net (s : State) (src rsn : Nat) (args : List Nat) (whom : Nat) (slot : Option Nat) (logged : Bool) :
    (s.raise src rsn args whom slot logged).net = s.net := by rw [State.raise_eq]

@[simp] theorem State.raise_wheel (s : State) (src rsn : Nat) (args : List Nat) (whom : Nat) (slot : Option Nat) (logged : Bool) :
    (s.raise src rsn args whom slot logged).wheel = s.wheel := by rw [State.raise_eq]

@[simp] theorem State.raise_fns (s : State) (src rsn : Nat) (args : List Nat) (whom : Nat) (slot : Option Nat) (logged : Bool) :
    (s.raise src rsn args whom slot logged).fns = s.fns := by rw [State.raise_eq]

@[simp] theorem State.raise_mem (s : State) (src rsn : Nat) (args : List Nat) (whom : Nat) (slot : Option Nat) (logged : Bool) :
    (s.raise src rsn args whom slot logged).mem = s.mem := by rw [State.raise_eq]

@[simp] theorem State.raise_sags (s : State) (src rsn : Nat) (args : List Nat) (whom : Nat) (slot : Option Nat) (logged : Bool) :
    (s.raise src rsn args whom slot logged).sags = s.sags := by rw [State.raise_eq]

@[simp] theorem State.raise_loader (s : State) (src rsn : Nat) (args : List Nat) (whom : Nat) (slot : Option Nat) (logged : Bool) :
    (s.raise src rsn args whom slot logged).loader = s.loader := by rw [State.raise_eq]

@[simp] theorem State.raise_noc (s : State) (src rsn : Nat) (args : List Nat) (whom : Nat) (slot : Option Nat) (logged : Bool) :
    (s.raise src rsn args whom slot logged).noc = s.noc := by rw [State.raise_eq]

@[simp] theorem State.raise_pins (s : State) (src rsn : Nat) (args : List Nat) (whom : Nat) (slot : Option Nat) (logged : Bool) :
    (s.raise src rsn args whom slot logged).pins = s.pins := by rw [State.raise_eq]

@[simp] theorem State.raise_boot (s : State) (src rsn : Nat) (args : List Nat) (whom : Nat) (slot : Option Nat) (logged : Bool) :
    (s.raise src rsn args whom slot logged).boot = s.boot := by rw [State.raise_eq]

@[simp] theorem State.raise_logFullSaid (s : State) (src rsn : Nat) (args : List Nat) (whom : Nat) (slot : Option Nat) (logged : Bool) :
    (s.raise src rsn args whom slot logged).logFullSaid = s.logFullSaid := by rw [State.raise_eq]

@[simp] theorem State.raise_freeCtr (s : State) (src rsn : Nat) (args : List Nat) (whom : Nat) (slot : Option Nat) (logged : Bool) :
    (s.raise src rsn args whom slot logged).freeCtr = s.freeCtr := by rw [State.raise_eq]

@[simp] theorem State.raise_out (s : State) (src rsn : Nat) (args : List Nat) (whom : Nat) (slot : Option Nat) (logged : Bool) :
    (s.raise src rsn args whom slot logged).out = s.out := by rw [State.raise_eq]

@[simp] theorem State.raise_hwAt (s : State) (src rsn : Nat) (args : List Nat) (whom : Nat) (slot : Option Nat) (logged : Bool) :
    (s.raise src rsn args whom slot logged).hwAt = s.hwAt := by rw [State.raise_eq]

@[simp] theorem State.raise_hwSet (s : State) (src rsn : Nat) (args : List Nat) (whom : Nat) (slot : Option Nat) (logged : Bool) :
    (s.raise src rsn args whom slot logged).hwSet = s.hwSet := by rw [State.raise_eq]

end Sys2Proof.Machine
end

