-- ==== Sys2Proof/Laws/Effects.lean ====
section
/-! SUPPORT. How the effects that the statements speak of (`Sets`, `Tells`) build up from the shared operations. -/

namespace Sys2Proof.Machine

theorem State.recipients_congr {s t : State} (h : t.regs = s.regs) (a b c d : Nat) :
    t.recipients a b c d = s.recipients a b c d := by
  cases s; cases t; simp only at h; subst h; rfl

theorem State.recordOwner_congr {s t : State} (h : t.regs = s.regs) (a b c d : Nat) :
    t.recordOwner a b c d = s.recordOwner a b c d := by
  cases s; cases t; simp only at h; subst h; rfl

theorem State.enabled_congr {s t : State} (h : t.regs = s.regs) (a b : Nat) : t.enabled a b = s.enabled a b := by
  cases s; cases t; simp only at h; subst h; rfl

/-- What `Same` says, as an equation. -/
theorem Same.eq {u t : State} (h : Same u t) : { t with hwAt := u.hwAt, hwSet := u.hwSet } = u := h

theorem sets_refl (u : State) : Sets u [] u := ⟨fun _ => rfl, rfl⟩

/-- A register written on top of other effects. -/
theorem Sets.setReg {u s : State} {ws : List (Nat × Word)} (h : Sets u ws s) (a : Nat) (w : Word) :
    Sets u ((a, w) :: ws) (s.setReg a w) :=
  ⟨fun o => by rw [State.reg_setReg, wordAt, h.1], h.2⟩

/-- A flag set by hardware on top of other effects: beside the field, only the record of R12 changes. -/
theorem Sets.setFlag {u s : State} {ws : List (Nat × Word)} (h : Sets u ws s) (a : Nat) (F : Fld) :
    Sets u ((a, F.put (wordAt u ws a) (2 ^ F.width - 1)) :: ws) (s.setFlag a F) := by
  refine ⟨fun o => ?_, h.2⟩
  rw [State.reg_setFlag, wordAt, ← h.1, ← h.1]

/-- A field written on top of other effects. -/
theorem Sets.setFld {u s : State} {ws : List (Nat × Word)} (h : Sets u ws s) (a : Nat) (F : Fld) (x : Nat) :
    Sets u ((a, F.put (wordAt u ws a) x) :: ws) (s.setFld a F x) := by
  rw [← h.1]
  exact h.setReg a _

theorem wordAt_congr {u v : State} (h : v.regs = u.regs) (ws : List (Nat × Word)) (o : Nat) :
    wordAt v ws o = wordAt u ws o := by
  induction ws with
  | nil => simp [wordAt, State.reg, h]
  | cons p ws ih => simp [wordAt, ih]

/-! A change of a field that is not the registers, on top of other effects. -/

theorem Sets.rwtOld {u s : State} {ws : List (Nat × Word)} (h : Sets u ws s) (x : FMap (Option Word)) :
    Sets { u with rwtOld := x } ws { s with rwtOld := x } :=
  ⟨fun o => (h.1 o).trans (wordAt_congr (u := u) (v := { u with rwtOld := x }) rfl ws o).symm,
    by have e := congrArg (fun y : State => { y with rwtOld := x }) h.2.eq; exact e⟩

theorem Sets.time {u s : State} {ws : List (Nat × Word)} (h : Sets u ws s) (x : TimeSt) :
    Sets { u with time := x } ws { s with time := x } :=
  ⟨fun o => (h.1 o).trans (wordAt_congr (u := u) (v := { u with time := x }) rfl ws o).symm,
    by have e := congrArg (fun y : State => { y with time := x }) h.2.eq; exact e⟩

theorem Sets.power {u s : State} {ws : List (Nat × Word)} (h : Sets u ws s) (x : FMap Power) :
    Sets { u with power := x } ws { s with power := x } :=
  ⟨fun o => (h.1 o).trans (wordAt_congr (u := u) (v := { u with power := x }) rfl ws o).symm,
    by have e := congrArg (fun y : State => { y with power := x }) h.2.eq; exact e⟩

theorem Sets.ana {u s : State} {ws : List (Nat × Word)} (h : Sets u ws s) (x : AnaSt) :
    Sets { u with ana := x } ws { s with ana := x } :=
  ⟨fun o => (h.1 o).trans (wordAt_congr (u := u) (v := { u with ana := x }) rfl ws o).symm,
    by have e := congrArg (fun y : State => { y with ana := x }) h.2.eq; exact e⟩

theorem Sets.pool {u s : State} {ws : List (Nat × Word)} (h : Sets u ws s) (x : PoolSt) :
    Sets { u with pool := x } ws { s with pool := x } :=
  ⟨fun o => (h.1 o).trans (wordAt_congr (u := u) (v := { u with pool := x }) rfl ws o).symm,
    by have e := congrArg (fun y : State => { y with pool := x }) h.2.eq; exact e⟩

theorem Sets.cal {u s : State} {ws : List (Nat × Word)} (h : Sets u ws s) (x : CalSt) :
    Sets { u with cal := x } ws { s with cal := x } :=
  ⟨fun o => (h.1 o).trans (wordAt_congr (u := u) (v := { u with cal := x }) rfl ws o).symm,
    by have e := congrArg (fun y : State => { y with cal := x }) h.2.eq; exact e⟩

theorem Sets.chains {u s : State} {ws : List (Nat × Word)} (h : Sets u ws s) (x : FMap ChainSt) :
    Sets { u with chains := x } ws { s with chains := x } :=
  ⟨fun o => (h.1 o).trans (wordAt_congr (u := u) (v := { u with chains := x }) rfl ws o).symm,
    by have e := congrArg (fun y : State => { y with chains := x }) h.2.eq; exact e⟩

theorem Sets.cores {u s : State} {ws : List (Nat × Word)} (h : Sets u ws s) (x : FMap Core) :
    Sets { u with cores := x } ws { s with cores := x } :=
  ⟨fun o => (h.1 o).trans (wordAt_congr (u := u) (v := { u with cores := x }) rfl ws o).symm,
    by have e := congrArg (fun y : State => { y with cores := x }) h.2.eq; exact e⟩

theorem Sets.net {u s : State} {ws : List (Nat × Word)} (h : Sets u ws s) (x : List Packet) :
    Sets { u with net := x } ws { s with net := x } :=
  ⟨fun o => (h.1 o).trans (wordAt_congr (u := u) (v := { u with net := x }) rfl ws o).symm,
    by have e := congrArg (fun y : State => { y with net := x }) h.2.eq; exact e⟩

theorem Sets.wheel {u s : State} {ws : List (Nat × Word)} (h : Sets u ws s) (x : WheelSt) :
    Sets { u with wheel := x } ws { s with wheel := x } :=
  ⟨fun o => (h.1 o).trans (wordAt_congr (u := u) (v := { u with wheel := x }) rfl ws o).symm,
    by have e := congrArg (fun y : State => { y with wheel := x }) h.2.eq; exact e⟩

theorem Sets.fns {u s : State} {ws : List (Nat × Word)} (h : Sets u ws s) (x : FMap FnSt) :
    Sets { u with fns := x } ws { s with fns := x } :=
  ⟨fun o => (h.1 o).trans (wordAt_congr (u := u) (v := { u with fns := x }) rfl ws o).symm,
    by have e := congrArg (fun y : State => { y with fns := x }) h.2.eq; exact e⟩

theorem Sets.mem {u s : State} {ws : List (Nat × Word)} (h : Sets u ws s) (x : MemSt) :
    Sets { u with mem := x } ws { s with mem := x } :=
  ⟨fun o => (h.1 o).trans (wordAt_congr (u := u) (v := { u with mem := x }) rfl ws o).symm,
    by have e := congrArg (fun y : State => { y with mem := x }) h.2.eq; exact e⟩

theorem Sets.sags {u s : State} {ws : List (Nat × Word)} (h : Sets u ws s) (x : FMap Sagger) :
    Sets { u with sags := x } ws { s with sags := x } :=
  ⟨fun o => (h.1 o).trans (wordAt_congr (u := u) (v := { u with sags := x }) rfl ws o).symm,
    by have e := congrArg (fun y : State => { y with sags := x }) h.2.eq; exact e⟩

theorem Sets.loader {u s : State} {ws : List (Nat × Word)} (h : Sets u ws s) (x : LoaderSt) :
    Sets { u with loader := x } ws { s with loader := x } :=
  ⟨fun o => (h.1 o).trans (wordAt_congr (u := u) (v := { u with loader := x }) rfl ws o).symm,
    by have e := congrArg (fun y : State => { y with loader := x }) h.2.eq; exact e⟩

theorem Sets.noc {u s : State} {ws : List (Nat × Word)} (h : Sets u ws s) (x : NocSt) :
    Sets { u with noc := x } ws { s with noc := x } :=
  ⟨fun o => (h.1 o).trans (wordAt_congr (u := u) (v := { u with noc := x }) rfl ws o).symm,
    by have e := congrArg (fun y : State => { y with noc := x }) h.2.eq; exact e⟩

theorem Sets.pins {u s : State} {ws : List (Nat × Word)} (h : Sets u ws s) (x : PinsSt) :
    Sets { u with pins := x } ws { s with pins := x } :=
  ⟨fun o => (h.1 o).trans (wordAt_congr (u := u) (v := { u with pins := x }) rfl ws o).symm,
    by have e := congrArg (fun y : State => { y with pins := x }) h.2.eq; exact e⟩

theorem Sets.boot {u s : State} {ws : List (Nat × Word)} (h : Sets u ws s) (x : BootSt) :
    Sets { u with boot := x } ws { s with boot := x } :=
  ⟨fun o => (h.1 o).trans (wordAt_congr (u := u) (v := { u with boot := x }) rfl ws o).symm,
    by have e := congrArg (fun y : State => { y with boot := x }) h.2.eq; exact e⟩

theorem Sets.freeCtr {u s : State} {ws : List (Nat × Word)} (h : Sets u ws s) (x : Nat) :
    Sets { u with freeCtr := x } ws { s with freeCtr := x } :=
  ⟨fun o => (h.1 o).trans (wordAt_congr (u := u) (v := { u with freeCtr := x }) rfl ws o).symm,
    by have e := congrArg (fun y : State => { y with freeCtr := x }) h.2.eq; exact e⟩

theorem Sets.out {u s : State} {ws : List (Nat × Word)} (h : Sets u ws s) (x : List Out) :
    Sets { u with out := x } ws { s with out := x } :=
  ⟨fun o => (h.1 o).trans (wordAt_congr (u := u) (v := { u with out := x }) rfl ws o).symm,
    by have e := congrArg (fun y : State => { y with out := x }) h.2.eq; exact e⟩

/-- The same effect under another list. -/
theorem Sets.as {u s : State} {ws ws' : List (Nat × Word)} (h : Sets u ws s)
    (hw : ∀ o, wordAt u ws o = wordAt u ws' o) : Sets u ws' s := ⟨fun o => by rw [h.1, hw], h.2⟩

/-- An event raised on top of other effects. -/
theorem Sets.raise {u s : State} {ws : List (Nat × Word)} (h : Sets u ws s) (src rsn : Nat) (args : List Nat) (whom : Nat)
    (hp : sourcePresent s.part src = true) : Tells u ws src rsn args whom (s.raise src rsn args whom) := by
  obtain ⟨h1, h3⟩ := h
  replace h3 := h3.eq
  have hr : (s.raise src rsn args whom none false).regs = s.regs := State.raise_regs ..
  refine ⟨by simpa using h1, ?_, ?_⟩
  · rw [State.raise_eq]
    have : u.events = s.events := by rw [← h3]
    simpa [Same, this] using h3
  · intro f
    have hu : u.queueOf f = s.queueOf f := by rw [← h3]; rfl
    rw [State.queueOf_raise _ _ _ _ _ _ _ hp, State.recipients_congr hr, State.enabled_congr hr, hu]
    have : (s.raise src rsn args whom none false).eventOf src rsn args whom none = s.eventOf src rsn args whom none := by
      unfold State.eventOf
      rw [State.recordOwner_congr hr, State.raise_eq]
    rw [this]
    simp

/-- The same effect and event under another list. -/
theorem Tells.as {u s : State} {ws ws' : List (Nat × Word)} {src rsn whom : Nat} {args : List Nat}
    (h : Tells u ws src rsn args whom s) (hw : ∀ o, wordAt u ws o = wordAt u ws' o) : Tells u ws' src rsn args whom s :=
  ⟨fun o => by rw [h.1, hw], h.2⟩

end Sys2Proof.Machine
end

