-- ==== Sys2Proof/Laws/Packets.lean ====
section
/-! SUPPORT. What the shared operations of the network and of the trigger sources can do: one lemma for each, with every outcome. -/

namespace Sys2Proof.Machine

open Regs

/-- A link record written is read back, and no other link changes. -/
theorem State.link_setLink (s : State) (k j : Nat) (x : LinkSt) : (s.setLink k x).link j = if j = k then x else s.link j :=
  FMap.get_set _ _ _ _ _

/-- Sending by a table entry: the packet waits, leaves by the route of the entry, is refused where the entry is not valid, or, as an entry of a
remote table, leaves an XL NI with its route as it is. -/
theorem State.sendBy_cases (s : State) (entry : Nat) (p : Packet) :
    s.sendBy entry p = { s with noc := { s.noc with waiting := s.noc.waiting ++ [(entry, p)] } } ∨
    (entry < 256 ∧ ∃ r, s.routeEntry p.src entry = some r ∧ s.sendBy entry p = s.leaveBy r p) ∨
    (entry < 256 ∧ s.routeEntry p.src entry = none ∧ s.sendBy entry p = s.refuseOwn p 2) ∨
    (256 ≤ entry ∧ ∃ q, q = { p with epoch := s.epochOf p.src } ∧ s.sendBy entry p = (s.takeCredits q).send q) := by
  unfold State.sendBy
  by_cases h : 256 ≤ entry
  · simp only [h, if_true]
    split
    · exact .inr (.inr (.inr ⟨trivial, _, rfl, rfl⟩))
    · exact .inl rfl
  · simp only [h, if_false]
    have h' : entry < 256 := Nat.lt_of_not_le h
    split
    · next hn => exact .inr (.inr (.inl ⟨h', hn, rfl⟩))
    · next r hr =>
      split
      · exact .inr (.inl ⟨h', r, hr, rfl⟩)
      · exact .inl rfl

/-- The tables of an NI at a boundary: all stay, or the other epoch is written and comes into force. -/
theorem State.swapTable_cases (s : State) (n : Nat) (want : List RouteEntry) :
    let e := s.epochOf n
    let may := want.filter (fun r => s.routeOpen (linksOf n r.hops))
    let t : State := { s with noc := { s.noc with tables := FMap.set (fun _ => []) s.noc.tables (2 * n + (1 - e)) may } }
    s.swapTable n want = s ∨ s.swapTable n want = t.setFld (niStatus n) niStatus_EPOCH (1 - e) := by
  unfold State.swapTable
  dsimp only
  split
  · exact .inl rfl
  · exact .inr rfl

/-- Credits go back over the network, over a chip link that is up, or nowhere. -/
theorem State.credit_cases (s : State) (p : Packet) :
    s.credit p = s ∨ (∃ c, s.credit p = s.send c) ∨ ∃ c, isLink p.dst = true ∧ s.credit p = s.emit (.crossed (p.dst / 4 - 56) c) := by
  unfold State.credit
  dsimp only
  split
  · next h =>
    unfold State.onlyIf
    split
    · exact .inr (.inr ⟨_, (Bool.and_eq_true _ _ ▸ h).2, rfl⟩)
    · exact .inl rfl
  · exact .inr (.inl ⟨_, rfl⟩)

/-- A command on a trigger source ends in what it did, or in what the capture streams that select the source make of it. -/
theorem State.riseTriggers_cases (s u : State) (src : Nat) :
    s.riseTriggers u src = u ∨ s.sourceLevel src = false ∧ u.sourceLevel src = true := by
  unfold State.riseTriggers
  split
  · next h => simp at h; exact .inr h
  · exact .inl rfl

end Sys2Proof.Machine
end

