-- ==== Sys2Proof/Tests/Slice0.lean ====
section
/-! SUPPORT. Tests: what WellFormed refuses, states that meet the hypotheses of each statement, and single commands against the
spec's own numbers. -/

namespace Sys2Proof.Tests

open Sys2Proof Sys2Proof.Machine Sys2Proof.Machine.Regs

/-! ### Small states -/

/-- The device with its ticks running, at the start of tick 7, after the sixth boundary. -/
def up : State :=
  { State.reset with time := { State.reset.time with clock := .running, now := 400000, tick := 7, bounds := 8 } }

/-- A register of a state with some of its fields set. -/
def put (s : State) (o : Nat) (l : List (Fld × Nat)) : State := l.foldl (fun t x => t.setFld o x.1 x.2) s

/-- A word with some fields set. -/
def word (l : List (Fld × Nat)) : Word := l.foldl (fun w x => x.1.put w x.2) 0

/-! ### WellFormed -/

/-- A header of R369 with every field in its width. -/
def pkt : Packet :=
  { cmd := 0, route := 0, hop := 0, len := 0, src := 4, tag := 0, domain := 0, lasth := 0, epoch := 0, aux := 0, addr := 0, point := 0,
    tick := 0, sub := 0, dst := 252, data := [], poisoned := false, marks := [], crossed := false, flaws := [] }

theorem wf_accepts : Instr.wf (.connect 7 15 0) = true ∧ Instr.wf (.write pkt) = true ∧ Instr.wf (.nop 71 .clean) = true := by decide
theorem wf_function : Instr.wf (.tickLoRead 8) = false ∧ Instr.wf (.graphStop 8) = false ∧ Instr.wf (.d3hotEntry 8) = false := by decide
theorem wf_quad : Instr.wf (.quadPllUnlock 16) = false ∧ Instr.wf (.connect 0 16 0) = false ∧ Instr.wf (.standbyRunStep 16 (.ref 0)) = false := by decide
theorem wf_channel : Instr.wf (.overloadTrip 0 4) = false ∧ Instr.wf (.chCalReq 0 0 4 0) = false ∧ Instr.wf (.settlingWindowEnd 0 12) = false := by decide
theorem wf_cab : Instr.wf (.cabClip 0 8) = false ∧ Instr.wf (.rstGo 0 0 8 0) = false := by decide
theorem wf_sample : Instr.wf (.dacStreamSample 0 65536) = false ∧ Instr.wf (.injectedConversionDone 0 65536) = false := by decide
theorem wf_slice : Instr.wf (.sliceStartupEnd 0 36) = false := by decide
theorem wf_chain : Instr.wf (.chainStopped 80) = false ∧ Instr.wf (.chainStart 0 80 0) = false := by decide
theorem wf_inputs : Instr.wf (.chainInputSample 0 [1, 2]) = false ∧ Instr.wf (.chainInputSample 0 (List.replicate 9 0)) = true := by decide
theorem wf_core : Instr.wf (.mac 72 .clean) = false ∧ Instr.wf (.interruptEntry 72) = false ∧ Instr.wf (.coreLoadDone 72) = false := by decide
theorem wf_port : Instr.wf (.inputWordArrival 0 8 0) = false ∧ Instr.wf (.outputPostDone 0 ⟨8, .clean⟩) = false := by decide
theorem wf_sagger : Instr.wf (.restart 0 16 0) = false ∧ Instr.wf (.push 0 16 0 false) = false ∧ Instr.wf (.eventLineRise 0 4 0) = false
    ∧ Instr.wf (.eventLineRise 0 0 65536) = false ∧ Instr.wf (.restartHoldRelease 0 4) = false ∧ Instr.wf (.captureEdge 0 []) = false := by decide
theorem wf_pll : Instr.wf (.fabricPllUnlock 2) = false := by decide
theorem wf_router : Instr.wf (.routerHeader 64 pkt) = false ∧ Instr.wf (.portDrainDone 0 4) = false ∧ Instr.wf (.linkIdleTimeout 260 []) = false := by decide
theorem wf_packet : ({ pkt with cmd := 64 } : Packet).wf = false ∧ ({ pkt with route := 2 ^ 39 } : Packet).wf = false
    ∧ ({ pkt with hop := 16 } : Packet).wf = false ∧ ({ pkt with len := 128 } : Packet).wf = false ∧ ({ pkt with src := 256 } : Packet).wf = false
    ∧ ({ pkt with tag := 1024 } : Packet).wf = false ∧ ({ pkt with domain := 16 } : Packet).wf = false := by decide
theorem wf_packet_more : ({ pkt with lasth := 17 } : Packet).wf = false ∧ ({ pkt with epoch := 2 } : Packet).wf = false
    ∧ ({ pkt with aux := 256 } : Packet).wf = false ∧ ({ pkt with addr := 2 ^ 64 } : Packet).wf = false ∧ ({ pkt with point := 512 } : Packet).wf = false
    ∧ ({ pkt with tick := 2 ^ 32 } : Packet).wf = false ∧ ({ pkt with sub := 2 ^ 32 } : Packet).wf = false ∧ ({ pkt with dst := 256 } : Packet).wf = false
    ∧ ({ pkt with data := [0] } : Packet).wf = false ∧ ({ pkt with marks := [16] } : Packet).wf = false := by decide
theorem wf_interface : Instr.wf (.niAwake 256) = false ∧ Instr.wf (.xlTrained 4) = false ∧ Instr.wf (.xlControlUnit 0 4 0 true) = false := by decide
theorem wf_capture : Instr.wf (.captureTrigger 256) = false ∧ Instr.wf (.segmentMapW0Read 0 0x80000) = false ∧ Instr.wf (.bar2Read 0 0x7FFFFFFFF 2 []) = false
    ∧ Instr.wf (.bar2Write 0 0x7FFFFFFFF [0, 0]) = false := by decide
theorem wf_rings : Instr.wf (.dataBuf 0 16) = false ∧ Instr.wf (.ringEnable 0 18 0) = false ∧ Instr.wf (.hostReadFailure 0 (.descriptor 17)) = false
    ∧ Instr.wf (.hostReadFailure 0 (.buffer 256)) = false ∧ Instr.wf (.doorbellReadDone 0 [] []) = false
    ∧ Instr.wf (.doorbellReadDone 0 (List.replicate 64 0) [⟨17, []⟩]) = false := by decide
theorem wf_vector : Instr.wf (.msixUnmask 0 (some 64)) = false ∧ Instr.wf (.holdoffExpiry 0 64) = false := by decide
theorem wf_owner : Instr.wf (.chOwnerWrite 0 8 0) = false ∧ Instr.wf (.pinOwnerWrite 0 56 0) = false := by decide
theorem wf_pin : Instr.wf (.pinFunctionSwitch 448) = false ∧ Instr.wf (.dataSet 0 14 0) = false ∧ Instr.wf (.vccioLow 14) = false
    ∧ Instr.wf (.gpioBankWrite 0 0x1000000 0) = false ∧ Instr.wf (.ptiEdge 16 true) = false := by decide
theorem wf_units : Instr.wf (.tmrCompare 16) = false ∧ Instr.wf (.spiTxdata 0 4 0) = false ∧ Instr.wf (.uartTxdata 0 2 0) = false
    ∧ Instr.wf (.i2cDone 4 []) = false ∧ Instr.wf (.triggerLineEdge 8 true) = false ∧ Instr.wf (.saggerTriggerOutputEdge 0 8 true) = false := by decide
theorem wf_boot : Instr.wf (.selfTestsDone [576] []) = false ∧ Instr.wf (.selfTestsDone [] [72]) = false ∧ Instr.wf (.laneDisagree 3) = false
    ∧ Instr.wf (.supplyWarn 7) = false ∧ Instr.wf (.thermalTrip 8 0) = false := by decide
theorem wf_bar0 : Instr.wf (.registerWrite 0 0x1000000 1 15 0) = false ∧ Instr.wf (.registerWrite 0 0xFFFFFC 5 15 0) = false
    ∧ Instr.wf (.bar0Read 0 0 1 16 0) = false := by decide

/-! ### Witnesses: the hypotheses of each statement, clause by clause -/

theorem witness_ClockReference :
    (State.reset.time.clock = .held ∧ State.reset.boot.held = false) ∧
    ((put up timeStatus [(timeStatus_REF_PRESENT, 1)]).bit timeStatus timeStatus_REF_PRESENT = true ∧ up.time.clock ≠ .held) ∧
    (put up timeStatus [(timeStatus_RELOCKING, 1)]).bit timeStatus timeStatus_RELOCKING = true ∧
    (15 < up.part.quads ∧ bitOf ((put up qpllLock [(qpllLock_LOCK, 0x8000)]).reg qpllLock).toNat 15 = 1) ∧
    bitOf ((put up qpllLock [(qpllLock_LOCK, 0x8000)]).reg qpllLock).toNat 0 = 0 := by decide

theorem witness_TickSettings :
    (up.open_ = true ∧ up.badTickDiv (tickCtrl_TICK_DIV.get (word [(tickCtrl_TICK_DIV, 10000)])) = false) ∧
    up.badTickDiv (tickCtrl_TICK_DIV.get (word [(tickCtrl_TICK_DIV, 0)])) = true ∧
    (syncCtrl_MODE.get (word [(syncCtrl_MODE, 2)]) ≤ 2 ∧ up.graphs = []) ∧
    syncCtrl_MODE.get (word [(syncCtrl_MODE, 3)]) = 3 := by decide

theorem witness_RelockGo :
    let s := put up timeStatus [(timeStatus_HOLDOVER, 1), (timeStatus_REF_PRESENT, 1)]
    let v := word [(refCtrl_RELOCK_GO, 1), (refCtrl_RELOCK, 1)]
    s.open_ = true ∧ refCtrl_RELOCK_GO.get v = 1 ∧ refCtrl_RELOCK.get v = 1 ∧ s.bit timeStatus timeStatus_HOLDOVER = true ∧
      s.bit timeStatus timeStatus_REF_PRESENT = true := by decide

theorem witness_SyncEdges :
    up.fld syncCtrl syncCtrl_MODE = 0 ∧ up.time.sub % 20 = 0 ∧
    (put up syncCtrl [(syncCtrl_MODE, 1)]).fld syncCtrl syncCtrl_MODE = 1 ∧
    (put up syncCtrl [(syncCtrl_MODE, 2)]).fld syncCtrl syncCtrl_MODE = 2 ∧
    (∀ x ∈ [400000, 500000, 500020, 599980],
      let s := { up with time := { up.time with checks := [(x, none)], now := x, sub := x - 400000 } }
      s.time.checks = (x, none) :: [] ∧ x ≤ s.time.now ∧ s.time.clock = .running ∧ s.nextInstant = some 600000 ∧ s.tickStart ≤ x ∧ x ≤ 600000 ∧
        (x - s.tickStart) % 20 = 0 ∧ (600000 - x) % 20 = 0) ∧
    (∀ a ∈ [(0 : Int), -7], let s := { up with time := { up.time with checks := [(399980, some a)] } }
      s.time.checks = (399980, some a) :: [] ∧ 399980 ≤ s.time.now ∧ s.nextInstant = some 600000) := by decide

theorem witness_Boundaries :
    (up.syncFirst = none ∧ up.time.clock = .running) ∧
    (let s := { up with time := { up.time with clock := .locked 400 } }; s.time.clock = .locked 400) ∧
    (let s := { up with time := { up.time with syncs := [⟨400080, 9⟩] } }; s.syncFirst = some ⟨400080, 9⟩) ∧
    State.reset.time.clock = .held := by decide

theorem witness_AnalogueEvents :
    (15 < up.part.quads ∧ up.ovldIe 15 3 = false ∧ (put up (chCtrl 15 3) [(chCtrl_OVLD_IE, 1)]).ovldIe 15 3 = true ∧ up.overSpans 63 = [] ∧
      (put up (chStatus 15 3) [(chStatus_OVLD_NOW, 1)]).fld (chStatus 15 3) chStatus_OVLD_NOW = 1) ∧
    (let s := put up (cabFunc 0 7) [(cabFunc_FUNC, 1)]
     1 ≤ s.cur (cabFunc 0 7) cabFunc_FUNC ∧ s.cur (cabFunc 0 7) cabFunc_FUNC ≤ 4 ∧ s.compares 0 7 = true ∧ s.cabSettling 0 7 = false ∧ s.bit (cabStatus 0 7) cabStatus_CMP_OUT = false ∧
      s.bit (cabCmp 0 7) cabCmp_CMP_IE = false ∧ (put s (cabCmp 0 7) [(cabCmp_CMP_IE, 1)]).bit (cabCmp 0 7) cabCmp_CMP_IE = true) ∧
    (let s := { up with ana := { up.ana with win := [(11, some 400000)] } }
     FMap.get (fun _ => none) s.ana.win (12 * 0 + 11) = some 400000 ∧ 400000 ≤ s.time.now) := by decide

theorem witness_RstGo :
    let s := put up (cabFunc 0 7) [(cabFunc_FUNC, 2), (cabFunc_INT_RST, 3)]
    let v := word [(cabFunc_FUNC, 2), (cabFunc_INT_RST, 3), (cabFunc_RST_GO, 1)]
    s.open_ = true ∧ s.mayCab 0 0 7 = true ∧ cabFunc_RST_GO.get v = 1 ∧
      cabRefusal v (s.reg (cabRes 0 7)) (s.reg (cabCap 0 7)) none = 0 ∧ s.integrator 0 7 3 = true := by decide

theorem witness_MatrixCommands :
    let c (v : Word) (op : Nat) : MxCmd := ⟨op, mxCmd_WIRE.get v, mxCmd_TERM.get v⟩
    let v := word [(mxCmd_WIRE, 7), (mxCmd_TERM, 11)]
    up.open_ = true ∧ up.userMay 0 (fun g => g.usesWire 15 7) = true ∧ up.mayTerm 0 15 11 = true ∧
      (∀ op ∈ [0, 1, 2], up.mxError 15 (c v op) = 0) ∧ up.mxError 15 (c (word [(mxCmd_WIRE, 31)]) 0) ≠ 0 := by decide

theorem witness_WiresOk : let ws := List.replicate 32 ((0, 0) : Wire)
    ws.length = 32 ∧ connectError ws ⟨0, 7, 11⟩ = 0 ∧ termReserved 11 = false ∧ WiresOk ws := by
  refine ⟨by decide, by decide, by decide, ?_, ?_⟩
  · intro i
    rw [show (List.replicate 32 ((0, 0) : Wire)).getD i (0, 0) = (0, 0) by
      simp only [List.getD_eq_getElem?_getD, List.getElem?_replicate]; split <;> rfl]
    decide
  · intro i j b h
    rw [show (List.replicate 32 ((0, 0) : Wire)).getD i (0, 0) = (0, 0) by
      simp only [List.getD_eq_getElem?_getD, List.getElem?_replicate]; split <;> rfl] at h
    simp [bitOf, show wireLoads (0#32, 0#32) = 0 by decide] at h

theorem witness_DacAndReference :
    (∀ l ∈ [[], [(399996, 5)]], let s := put { up with ana := { up.ana with dacQueue := [(15, l)] } } (dacCtrl 15) [(dacCtrl_SRC, 3)]
     s.boot.trip = false ∧ s.cur (dacCtrl 15) dacCtrl_SRC = 3 ∧
      ∀ y ∈ FMap.get (fun _ => []) s.ana.dacQueue 15, y.1 + 4 * 2 ^ s.cur (dacCtrl 15) dacCtrl_STREAM_RATE ≤ s.time.now) ∧
    up.bit (refbufStatus 15) refbufStatus_READY = false ∧
    (refbufCtrl_EN.get (word [(refbufCtrl_EN, 1)]) = 1 ∧ up.bit (refbufCtrl 15) refbufCtrl_EN = false) ∧
    (let s := put up (refbufCtrl 15) [(refbufCtrl_EN, 1)]
     refbufCtrl_EN.get 0 = 0 ∧ s.bit (refbufCtrl 15) refbufCtrl_EN = true ∧ (s.anyActive 15 || s.quadUsed 15) = false ∧
      ((put s (slice 15 35) [(slice_STATE, 2)]).anyActive 15 || s.quadUsed 15) = true ∧
      FMap.get (fun _ => 0) s.ana.refOn 15 + 20 * 20000 ≤ s.time.now) := by decide

theorem witness_SliceStartUp : ∀ w ∈ [WakeFor.graph, .added, .replacing, .standby],
    let s := up.setWake 15 35 (some ⟨400000, w⟩)
    s.wakeOf 15 35 = some ⟨400000, w⟩ ∧ s.boot.trip = false ∧ 400000 ≤ s.time.now := by decide

theorem witness_SliceBlocks : ∀ cold ∈ [true, false],
    let s := put { up with pool := { up.pool with block := [(575, some (334464, cold))] } } (slice 15 35) [(slice_STATE, 2)]
    let good : BlockStats := ⟨false, false, ⟨100, 0, 10⟩, []⟩
    let bad : BlockStats := ⟨true, false, ⟨100, 0, 10⟩, []⟩
    let k := s.fld (slice 15 35) slice_CHAN
    let cause (b : BlockStats) := blockCause b (if s.chanCount 15 k < 2 then [] else (b.others.filter (fun o => s.countsFor 15 35 334464 o.1)).map (·.2))
    s.boot.trip = false ∧ s.fld (slice 15 35) slice_STATE = 2 ∧ FMap.get (fun _ => none) s.pool.block (36 * 15 + 35) = some (334464, cold) ∧
      334464 + 8 * 2 * 4096 = s.time.now ∧ good.limited = false ∧ s.blockMarked 15 k 334464 = false ∧ cause good = 0 ∧ cause bad ≠ 0 ∧
      s.fld (slice 15 35) slice_FAILS < 2 ∧ 2 ≤ (put s (slice 15 35) [(slice_FAILS, 2)]).fld (slice 15 35) slice_FAILS := by decide

/-- Quad 15 with slice 35 as its standby. -/
def withStandby : State := put up (slice 15 35) [(slice_STATE, 3)]

theorem witness_InjectedConversions :
    let v (m : Nat) := word [(injReq_MON, m), (injReq_TAG, 9)]
    let s (k : Nat) := { withStandby with time := { up.time with now := 400960, sub := 960 } }.setInj 15 [⟨11, 9, true, 1, k⟩]
    (up.open_ = true ∧ up.mayInj 0 15 (injReq_MON.get (v 6)) = true ∧
      (withStandby.setPower 15 .on).injError 15 (injReq_MON.get (v 6)) = 0 ∧ up.injError 15 (injReq_MON.get (v 7)) ≠ 0) ∧
    ((s 7).injOf 15 = [⟨11, 9, true, 1, 7⟩] ∧ (s 7).time.bounds = 7 + 1 ∧ (s 7).boot.trip = false ∧ ((s 7).standby 15).isSome = true ∧
      (s 7).injDue 15 ⟨11, 9, true, 1, 7⟩ ≤ (s 7).time.now) ∧
    (let u := { s 6 with time := { up.time with lastStart := 399040 } }
     u.time.bounds = 6 + 2 ∧ u.time.sub = 0 ∧ u.injDue 15 ⟨11, 9, true, 1, 6⟩ = u.time.now ∧ u.injAtLast 15 ⟨11, 9, true, 1, 6⟩ = true) ∧
    6 + 2 ≤ (s 6).time.bounds ∧ (s 6).injAtLast 15 ⟨11, 9, true, 1, 6⟩ = false := by decide

/-- A standby run of quad 15 at the last tick of a step. -/
def run (step : Nat) (ofs gain : Int) : Run := ⟨some 7, step, 1, true, false, 0, 107374182, 0, ofs, gain, none, false⟩

theorem witness_StandbySteps : ∀ k ∈ [1, 2, 3], let s := withStandby.setRun 15 (some (run k 0 0))
    s.runOf 15 = some (run k 0 0) ∧ s.standby 15 = some 35 ∧ s.boot.trip = false ∧ s.deogen = true ∧ (run k 0 0).done = false ∧
      (run k 0 0).left = 1 ∧ (run k 0 0).own = true ∧ 1 ≤ (run k 0 0).step ∧ (run k 0 0).step ≤ 3 ∧ (run k 0 0).target ≠ none := by decide

theorem witness_StandbyRunsEnd :
    let s (g : Int) := put (withStandby.setRun 15 (some (run 4 0 g))) (sGain 15 35) [(sGain_GAIN, 131072)]
    let alone := { run 3 0 0 with target := none }
    let u := put (withStandby.setRun 15 (some alone)) (sGain 15 35) [(sGain_GAIN, 131072)]
    let judge (s : State) (ofs g : Int) := judgeSlice (s.bit (sliceCal 15 35) sliceCal_FIRST) ofs (sx 13 (s.fld (sOfs 15 35) sOfs_OFS)) g
      (s.fld (sGain 15 35) sGain_GAIN)
    (∀ g ∈ [(131072 : Int), 0], (s g).runOf 15 = some (run 4 0 g) ∧ (s g).standby 15 = some 35 ∧ (s g).boot.trip = false ∧ (s g).deogen = true ∧
      (run 4 0 g).done = false ∧ (run 4 0 g).left = 1 ∧ (run 4 0 g).own = true ∧ (run 4 0 g).step = 4 ∧ (run 4 0 g).target = some 7) ∧
    judge (s 131072) 0 131072 = 0 ∧ judge (s 0) 0 0 ≠ 0 ∧
    (u.runOf 15 = some alone ∧ u.standby 15 = some 35 ∧ alone.step = 3 ∧ alone.target = none ∧
      judge u (refOffset alone.m0 (u.cal.otp.e0Of 15)) (refGain alone.mp 0 (u.cal.otp.epOf 15) (u.cal.otp.enOf 15)) ≠ 0 ∧
      judge u (refOffset alone.m0 (u.cal.otp.e0Of 15)) (refGain alone.mp (-107374182) (u.cal.otp.epOf 15) (u.cal.otp.enOf 15)) = 0) ∧
    (s 0).fld (sliceCal 15 35) sliceCal_FAILS < 2 ∧ 2 ≤ (put (s 0) (sliceCal 15 35) [(sliceCal_FAILS, 2)]).fld (sliceCal 15 35) sliceCal_FAILS := by
  decide

theorem witness_ChannelRuns :
    let fg : FgRun := ⟨3, true, 2, 1, true, false, 0, 0, 0, false, false, 0, 0, 0, 0⟩
    let pilot : PilotRun := ⟨3, 400, 0⟩
    let s := { withStandby with time := { withStandby.time with now := 2 ^ 24 },
                                cal := { withStandby.cal with fg := [(15, some fg)], pilot := [(15, some pilot)], holdoff := [(63, 8)] } }
    (s.fgOf 15 = some fg ∧ fg.begun = true ∧ fg.done = false ∧ fg.left = 1 ∧ fg.own = true ∧ s.boot.trip = false ∧ s.deogen = true) ∧
    (s.pilotOf 15 = some pilot ∧ pilot.from_ + 2 ^ 20 * (16 / max 1 (s.chanCount 15 pilot.chan)) ≤ s.time.now ∧
      FMap.get (fun _ => none) s.cal.aPrev (s.setting 15 3) = none) ∧
    (s.open_ = true ∧ s.ownChan (4 * 15 + 3) = 0 + 1 ∧ chCalCtrl_REQ.get (word [(chCalCtrl_REQ, 1)]) = 1) ∧
    FMap.get (fun _ => 0) s.cal.holdoff (4 * 15 + 3) = s.time.bounds ∧
    s.time.bounds < FMap.get (fun _ => 0) ({ s.cal with holdoff := [(63, 9)] }).holdoff (4 * 15 + 3) := by decide

theorem witness_CalibrationStore :
    let s := put { up with time := { up.time with now := 10 ^ 15 } } fwStatus [(fwStatus_RUNNING, 1)]
    let im : Store := ⟨1, 0, 0, [], [], []⟩
    let c := { s with cal := { s.cal with changed := true } }
    let d := { s with cal := { s.cal with image := some im } }
    (s.open_ = true ∧ calCtrl_CAL_CONE.get (word [(calCtrl_CAL_CONE, 1)]) < 2 ∧ 2 ≤ calCtrl_CAL_CONE.get (word [(calCtrl_CAL_CONE, 2)])) ∧
    (s.cal.image = none ∧ s.deogen = true ∧ s.romAlone = false ∧ storeCmd_SAVE.get (word [(storeCmd_SAVE, 1)]) = 1) ∧
    (c.bit calCtrl calCtrl_STORE_EN = true ∧ c.cal.changed = true ∧ c.fld storeInterval storeInterval_SECONDS ≠ 0 ∧
      max c.cal.savedAt c.boot.t0 + 2000000000 * c.fld storeInterval storeInterval_SECONDS ≤ c.time.now) ∧
    (d.cal.image = some im ∧ d.deogen = true ∧ d.flashBusy = false ∧ d.cal.saveAgain = false) := by decide +kernel

theorem witness_ChainCommands :
    let s (k : Nat) := put (put up (chainOwner 9) [(⟨31, 28⟩, 1)]) (chainStatus 79) [(chainStatus_STATE, k)]
    ((s 0).open_ = true ∧ (s 0).ownChain 79 = 0 + 1 ∧ 79 < (s 0).part.chains) ∧
    (∀ k ∈ [0, 1, 2, 3], (s k).fld (chainStatus 79) chainStatus_STATE = k) ∧
    chainCmd_STOP.get (word [(chainCmd_START, 1)]) = 0 ∧ chainCmd_START.get (word [(chainCmd_STOP, 1)]) = 0 ∧
    ((s 2).chain 79).stop = false ∧ ((s 3).chain 79).stopAt + 400 ≤ (s 3).time.now := by decide

theorem witness_ChainInputs :
    let s := put (put (put (up.setPower 15 .on) (chainSrc 79) [(chainSrc_CH, 63)]) (chPool 15 3) [(chPool_NCODE, 1)]) (chainStatus 79) [(chainStatus_STATE, 2)]
    let late := { up with time := { up.time with now := 400400, sub := 400 } }
    (s.fld (chainStatus 79) chainStatus_STATE = 2 ∧ s.cur (chainSrc 79) chainSrc_CH = 63 ∧ s.chanStep 63 ≠ 0 ∧ s.time.clock = .running ∧
      s.boot.trip = false ∧ s.powerOf (63 / 4) = .on ∧
      (max (s.chain 79).next (s.baseIndex 63 + s.time.sub / s.chanStep 63) - s.baseIndex 63) * s.chanStep 63 < s.tickLength) ∧
    (∀ l ∈ [[], [(400400, 5)], [(400401, 5)]], let u := late.setChain 79 { idleChain with pkt := l }
      u.time.clock = .running ∧ 400 ≤ u.time.sub ∧ (u.chain 79).pkt = l) ∧
    (∀ k ∈ [none, some 6], let u := s.setChain 79 { idleChain with started := 7, lastIn := k }
      u.fld (chainStatus 79) chainStatus_STATE = 2 ∧ (u.chain 79).lost = false ∧ (u.chain 79).started < u.time.bounds ∧
        ((u.chain 79).lastIn.all (fun k => decide (k + 1 < u.time.bounds))) = true) ∧
    (let u := put (s.setChain 79 { idleChain with pcanIn := 131072 }) (pcan 79) [(pcan_EN, 1)]
     u.fld (pcan 79) pcan_EN = 1 ∧ 131072 ≤ (u.chain 79).pcanIn) := by decide

/-- Core 71 placed and running at the word `w`, with nothing else. -/
def dsp (w : IWord) (f : Core → Core := id) : State :=
  (put up (dspState 71) [(dspState_STATE, 3)]).setCore 71 (f { idleCore with running := true, ended := false, prog := [(0, w)] })

/-- The opcode and the operand bits of a word. -/
def instr (opc operands : Nat) : IWord := BitVec.ofNat 48 (opc * 2 ^ 40 + operands)

/-- Operand bits of a format P word: [39:36], [35:32] and [31:28]. -/
def ops (a b c : Nat) : Nat := a * 2 ^ 36 + b * 2 ^ 32 + c * 2 ^ 28

theorem witness_DspReady_multiplies : ∀ o ∈ [1, 2, 3, 4, 5, 6, 7, 8, 9], DspReady (dsp (instr o (ops 11 7 7))) 71 o (instr o (ops 11 7 7)) := by
  intro o h; simp only [List.mem_cons, List.not_mem_nil, or_false] at h
  rcases h with rfl | rfl | rfl | rfl | rfl | rfl | rfl | rfl | rfl <;> exact ⟨by decide, by decide, by decide, by decide, by decide⟩

/-- Whether every condition of DspReady holds of core 71 of a state at a word of an opcode. -/
def ready (s : State) (opc : Nat) (w : IWord) : Bool :=
  s.executing 71 && decide ((s.core 71).fetch (s.core 71).pc = w) && decide (opcOf w = opc) && !reserved w (s.core 71).pc
    && !(s.core 71).badPlace w

theorem ready_spec (s : State) (opc : Nat) (w : IWord) (h : ready s opc w = true) : DspReady s 71 opc w := by
  simpa [ready, DspReady, and_assoc] using h

theorem witness_ParallelMoves :
    (∀ m ∈ [(0, 0), (0x404, 0x444), (0x806, 0xC00), (0x43A, 0x87E)], ready (dsp (instr 0 (m.1 * 2 ^ 12 + m.2))) 0 (instr 0 (m.1 * 2 ^ 12 + m.2)) = true) ∧
    (let w := instr 0 (0x43A * 2 ^ 12 + 0x87A); (xmOf w).type = 1 ∧ (ymOf w).type = 2 ∧ (xmOf w).ptr = (ymOf w).ptr) := by decide

theorem witness_AccumulatorResults : ∀ x ∈ [(0x0A, ops 11 11 0), (0x0B, ops 8 0 0), (0x0D, ops 8 7 0), (0x0E, ops 8 0 0), (0x0F, ops 8 0 0), (0x10, ops 8 0 0),
    (0x11, ops 8 0 0), (0x12, ops 8 0 0 + 55 * 2 ^ 24), (0x13, ops 8 0 0 + 2 ^ 24), (0x14, ops 8 7 0)],
    ready (dsp (instr x.1 x.2)) x.1 (instr x.1 x.2) = true := by decide

theorem witness_ComparesAndDivides : ∀ x ∈ [(0x0C, ops 11 11 0), (0x15, ops 8 7 0), (0x16, ops 8 7 0)],
    ready (dsp (instr x.1 x.2)) x.1 (instr x.1 x.2) = true := by decide

theorem witness_DataResults :
    (∀ x ∈ [(0x18, ops 7 7 0), (0x19, ops 0 7 0), (0x1A, ops 0 7 0), (0x1B, ops 7 0 0), (0x1C, ops 0 0 0 + 23 * 2 ^ 24), (0x1D, ops 0 0 0 + 2 ^ 24),
      (0x1E, ops 0 0 0 + 23 * 2 ^ 24), (0x1F, ops 0 7 0), (0x20, ops 0 7 0)], ready (dsp (instr x.1 x.2)) x.1 (instr x.1 x.2) = true) ∧
    (∀ k ∈ [0, 24], let w := instr 0x1C (k * 2 ^ 24); 0x1C ≤ opcOf w ∧ opcOf w ≤ 0x1E ∧ (ibits w 28 24 = 0 ∨ 23 < ibits w 28 24)) := by decide

theorem witness_Multiplies : let w := instr 9 (ops 8 0 0 + 2 ^ 24); 1 ≤ opcOf w ∧ opcOf w ≤ 9 ∧ ibits w 27 24 ≠ 0 := by decide

theorem witness_RegisterMoves :
    (∀ x ∈ [(0x21, 7 * 2 ^ 34 + 8 * 2 ^ 28), (0x21, 8 * 2 ^ 34 + 11 * 2 ^ 28), (0x40, 40 * 2 ^ 34 + 9), (0x41, 2 ^ 23), (0x42, 7 * 2 ^ 34 + 0x7FFF), (0x48, 0x60)],
      ready (dsp (instr x.1 x.2)) x.1 (instr x.1 x.2) = true) ∧
    (let w := instr 0x40 (39 * 2 ^ 34 + 1)
     ready (dsp w) 0x40 w = true ∧ 32 ≤ ibits w 39 34 ∧ ibits w 39 34 < 40 ∧ modReserved (ibits w 23 0) = true ∧ modReserved 2 = false ∧
      ((dsp w).core 71).replay = false) := by decide

theorem witness_RegisterStores : ∀ x ∈ [(0x43, 7 * 2 ^ 34 + 0x7FFF), (0x44, 2 ^ 23 + 7 * 2 ^ 20 + 0xFFFF)],
    ready (dsp (instr x.1 x.2)) x.1 (instr x.1 x.2) = true := by decide

theorem witness_PeripheralWrites : ∀ a ∈ [0x40, 0x47, 0x48, 0x4F, 0x50, 0x57, 0x64, 0x65], let w := instr 0x49 (7 * 2 ^ 34 + a)
    ready (dsp w) 0x49 w = true ∧ a = ibits w 6 0 := by decide

theorem witness_ControlTransfers : ∀ x ∈ [(0x50, 14 * 2 ^ 36 + 0x3FFF), (0x51, 7 * 2 ^ 37 + 0x3FFF), (0x52, 3 * 2 ^ 33), (0x55, 0xFFFFFF), (0x56, 0)],
    ready (dsp (instr x.1 x.2)) x.1 (instr x.1 x.2) = true := by decide

theorem witness_HardwareLoops :
    let full := List.replicate 4 (⟨0, 0, 0⟩ : Loop)
    (∀ x ∈ [(0x58, 5 * 2 ^ 24 + 9), (0x58, 9), (0x59, 7 * 2 ^ 37 + 9)], ready (dsp (instr x.1 x.2)) x.1 (instr x.1 x.2) = true ∧
      ready (dsp (instr x.1 x.2) (fun c => { c with stack := full })) x.1 (instr x.1 x.2) = true) ∧ full.length = 4 ∧
    ready (dsp (instr 0x5A 0)) 0x5A (instr 0x5A 0) = true ∧
    ready (dsp (instr 0x5A 0) (fun c => { c with stack := [⟨1, 2, 3⟩], la := 9 })) 0x5A (instr 0x5A 0) = true ∧
    (∀ n ∈ [0, 1, 2], let s := dsp (instr 0 0) (fun c => { c with stack := [⟨0, 0, 0⟩], lc := n, la := 1 })
      ready s 0 (instr 0 0) = true ∧ (s.core 71).lcWait = [] ∧ (s.core 71).laWait = [] ∧ (s.core 71).pc < 0x4000 ∧
        ((s.core 71).pc + 1) % 0x4000 = (s.core 71).la) := by decide

theorem witness_Repeats : let mac := instr 3 (ops 8 0 1)
    let s (w w2 : IWord) := dsp w (fun c => { c with prog := [(0, w), (1, w2)] })
    (∀ x ∈ [(0x5B, 0xFFF * 2 ^ 24), (0x5B, 0), (0x5C, 7 * 2 ^ 37)], ready (s (instr x.1 x.2) mac) x.1 (instr x.1 x.2) = true) ∧
    listed (opcOf mac) = true ∧ repeatable mac = true ∧ reserved mac 1 = false ∧ listed 0x53 = true ∧ repeatable (instr 0x53 0) = false ∧
    (let lsl := instr 0x1C 0; repeatable lsl = true ∧ reserved lsl 1 = true) ∧ (let none_ := instr 0xFF 0; listed (opcOf none_) = false ∧ reserved none_ 1 = true) := by decide

theorem witness_RunsAndHandlers :
    let h := instr 0x53 0
    let r := instr 0x54 0
    (ready (dsp h) 0x53 h = true ∧ ((dsp h).core 71).replay = false) ∧
    (let s := dsp h (fun c => { c with replay := true }); ready s 0x53 h = true ∧ (s.core 71).replay = true ∧ (s.core 71).ended = false) ∧
    (∀ e ∈ [true, false], let s := dsp r (fun c => { c with inIsr := true, ended := e }); ready s 0x54 r = true ∧ (s.core 71).ended = e) ∧
    (ready (dsp r) 0x54 r = true ∧ ((dsp r).core 71).inIsr = false) ∧
    (let t : Task := ⟨0, 1, 0, [], 0, [], 0, [], 0, 0, 0, [], []⟩
     let s := dsp h (fun c => ({ c with task := some t, irqStat := 1, irqEn := 1, timer := 5 }).setSrg 19 true)
     let bad := s.setCore 71 { s.core 71 with prog := [(0, instr 0x1C 0)] }
     s.takeable_ 71 = true ∧ reserved ((s.core 71).fetch (s.core 71).pc) (s.core 71).pc = false ∧
      (s.core 71).badPlace ((s.core 71).fetch (s.core 71).pc) = false ∧
      (bad.takeable_ 71 = true ∧ (bad.core 71).running = true ∧ (bad.core 71).replay = false ∧
        reserved ((bad.core 71).fetch (bad.core 71).pc) (bad.core 71).pc = true) ∧
      71 < s.part.cores ∧ s.boot.trip = false ∧ (s.core 71).timer ≠ 0) := by decide

theorem witness_InstructionFaults :
    (up.executing 71 = false) ∧
    (let w := instr 0x1C 0; let s := dsp w
     s.executing 71 = true ∧ opcOf w = 0x1C ∧ reserved w (s.core 71).pc = true ∧ (s.core 71).replay = false) ∧
    (let w := instr 0xFF 0; (dsp w).executing 71 = true ∧ listed (opcOf w) = false) ∧
    (put up (dspStatus 71) [(dspStatus_ECC_CORR, 1)]).bit (dspStatus 71) dspStatus_ECC_CORR = true := by decide

theorem witness_CoreEvents :
    let p : InPort := ⟨7, 4, true, 0x7FFE, 0, false, 0, 0⟩
    let t : Task := ⟨0, 1, 0, [], 0, [], 0, [], 0, 0, 0, [p], [⟨7, 4, false⟩]⟩
    let s := dsp 0 (fun c => { c with task := some t, out := [(7, { noOut with posted := 3, busy := some ⟨false, 0, false, 0, 0, false, 3, 0⟩ })] })
    let u := dsp 0 (fun c => { c with replay := true, pend := [⟨6, []⟩], cycles := 117600 })
    let v := put s (dspState 71) [(dspState_STATE, 2)]
    ((s.core 71).inPort 7 = some p ∧ s.coreState 71 = 3 ∧ FMap.get (fun _ => ⟨[], false⟩) (s.core 71).rx 7 = ⟨[], false⟩) ∧
    (((s.core 71).outOf 7).busy = some ⟨false, 0, false, 0, 0, false, 3, 0⟩ ∧ (s.core 71).ended = false) ∧
    (put s (dspState 71) [(dspState_STATE, 1)]).coreState 71 = 1 ∧ v.coreState 71 = 2 ∧ (v.setCore 71 { v.core 71 with home := some 3 }).coreState 71 = 2 ∧
    (dsp 0 (fun c => { c with running := false, ended := true })).mayTest 71 = true ∧
    ((dsp 0 (fun c => { c with home := some 3 })).core 71).home ≠ none ∧
    (u.boot.trip = false ∧ (u.core 71).running = true ∧ (u.core 71).ended = false ∧ (u.core 71).replay = true ∧ u.budget ≤ (u.core 71).cycles ∧
      (u.core 71).pend.length ≤ 1) := by decide

/-- The 64 bytes of a descriptor (R435): its code with flag bits, LENGTH, ADDR and parameters. -/
def desc (code len buf : Nat) (ps : List Nat) : HostDesc :=
  ⟨0, 0, 0x1000, leBytes 4 code ++ leBytes 4 len ++ leBytes 8 buf ++ (List.range 7).flatMap (fun i => leBytes 4 (ps.getD i 0))
    ++ List.replicate 20 0, 0, none⟩

/-- Firmware runs, and function `f` has descriptors that wait. -/
def host (f : Nat) (ds : List HostDesc) : State :=
  let s := put (put up fwStatus [(fwStatus_RUNNING, 1)]) bootStatus [(bootStatus_READY, 1), (bootStatus_STAGE, 3)]
  s.setFn f { s.fn f with cmds := ds }

/-- Whether every condition of CommandReady holds. -/
def takes (s : State) (f code : Nat) (d : HostDesc) : Bool :=
  decide (f < 8 ∧ (s.fn f).silent = false ∧ s.nextDesc f code = some d ∧ (s.romAlone = true → romAccepts code = true) ∧ d.judge f = 0)

theorem takes_spec (s : State) (f code : Nat) (d : HostDesc) (h : takes s f code d = true) : CommandReady s f code d := by
  unfold CommandReady; exact of_decide_eq_true h

theorem witness_CommandRules :
    takes (host 7 [desc 0 0 0 []]) 7 0 (desc 0 0 0 []) = true ∧
    (∀ k ∈ [0, 1, 2, 3, 4, 5], let d := desc (k + 2 ^ 15) 5 9 []
      (host 7 [d]).nextDesc 7 k = some d ∧ (host 7 [d]).romAlone = false ∧ (host 7 [d]).wheelTurn 7 d = true ∧ d.judge 7 ≠ 0) ∧
    (let d := { desc 0 0 0 [] with expiry := some 8 }; let s := host 7 [d]
     (s.fn 7).silent = false ∧ (s.fn 7).cmds.find? (fun d => d.expiry.any (fun e => decide (e ≤ s.time.bounds))) = some d) ∧
    (let s := host 7 [desc 0 0 0 []]
     ∀ x ∈ [{ s.fn 7 with d3 := true }, { s.fn 7 with waking := true }, { s.fn 7 with busMaster := false }],
      ((s.setFn 7 x).fn 7).silent = true ∧ (s.setFn 7 x).nextDesc 7 0 = some (desc 0 0 0 [])) := by decide

theorem witness_DataBuffers :
    let d (len bad : Nat) : HostDesc := { desc (bad * 2 ^ 15) len 64 [] with ring := 16 }
    (∀ x ∈ [(2080, 0), (2079, 0), (4096, 1)], let s := host 7 [d x.1 x.2]
      (s.fn 7).silent = false ∧ (s.fn 7).cmds.find? (fun d => d.ring == 15 + 1) = some (d x.1 x.2)) ∧
    (d 2080 0).malformed = false ∧ 2080 ≤ (d 2080 0).length ∧ (d 2079 0).length < 2080 ∧ (d 4096 1).malformed = true ∧
    (let s := (host 7 []).setFn 7 { (host 7 []).fn 7 with bufs := [(15, [d 4096 0])], fill := [(15, ⟨1, 64, 6, some 8⟩)] }
     s.bufsOf 7 15 = [d 4096 0] ∧ (s.fillOf 7 15).expiry = some 8 ∧ 8 ≤ s.time.bounds) := by decide

theorem witness_Doorbells :
    let s := put ((host 7 []).setReg (dbAddrLo 7) 0x1000) (cmdCtrl 7) [(cmdCtrl_EN, 1), (cmdCtrl_RIDX, 0xFFFF)]
    let r := s.setFn 7 { s.fn 7 with reading := some 8 }
    let p := leAt ([0, 0] ++ List.replicate 62 0) 0 2
    (s.open_ = true ∧ wake_GO.get (word [(wake_GO, 1)]) = 1 ∧ s.wantsDoorbell 7 = true ∧ (s.fn 7).reading = none ∧ (r.fn 7).reading ≠ none ∧
      ((r.setFn 7 { r.fn 7 with again := true }).fn 7).again = true) ∧
    ((r.fn 7).reading = some 8 ∧ (r.fn 7).again = false ∧ (r.fn 7).silent = false ∧ r.ready = true ∧ (r.fn 7).ignore = [] ∧ r.ringRuns 7 0 = true ∧
      (p + 2 ^ 16 - r.fld (cmdCtrl 7) cmdCtrl_RIDX) % 2 ^ 16 ≤ 2 ^ r.fld (cmdCtrl 7) cmdCtrl_SIZE) ∧
    ((host 7 []).fld (cmdCtrl 7) cmdCtrl_EN = 0 ∧ cmdCtrl_EN.get (word [(cmdCtrl_EN, 1), (cmdCtrl_SIZE, 4)]) = 1 ∧
      4 ≤ cmdCtrl_SIZE.get (word [(cmdCtrl_EN, 1), (cmdCtrl_SIZE, 4)]) ∧ cmdCtrl_SIZE.get (word [(cmdCtrl_EN, 1), (cmdCtrl_SIZE, 3)]) < 4) ∧
    (s.fld (cmdCtrl 7) cmdCtrl_EN = 1 ∧ cmdCtrl_EN.get (word [(cmdCtrl_SIZE, 4)]) = 0 ∧
      cmdCtrl_SIZE.get (word [(cmdCtrl_SIZE, 4)]) = s.fld (cmdCtrl 7) cmdCtrl_SIZE) := by decide

theorem witness_EventRecords :
    let e : Event := ⟨856, 1, 15, none, 7, 0, 0, 0, 0⟩
    let s := { host 7 [] with events := [(7, [e])] }
    let r := put s (evtCtrl 7) [(evtCtrl_EN, 1)]
    let m := r.setFn 7 { r.fn 7 with msixOn := true, msixMask := false, msix := [(4 * 63 + 3, 0)], holding := [63], msixPend := [63] }
    (s.queueOf 7 = [e] ∧ (s.fn 7).silent = false ∧ s.open_ = true ∧ r.evtRoom 7 = true ∧ (r.fn 7).lostNow = 0 ∧ s.evtRoom 7 = false) ∧
    (63 ∈ (m.fn 7).holding ∧ (m.fn 7).mayMsix 63 = true ∧ FMap.get (fun _ => 0) (m.fn 7).holdEnd 63 ≤ m.time.now) ∧
    (let k := m.setFn 7 { m.fn 7 with holding := [] }
     (k.fn 7).msixOn = true ∧ (k.fn 7).msixMask = false ∧ (k.fn 7).msixPend = [63] ∧ (k.fn 7).holding.contains 63 = false) := by decide

/-- A graph file of one CHANNEL element pinned to channel 3 (R263, R264). -/
def graphFile : List Byte :=
  let b := leBytes 4 0x4B474650 ++ leBytes 4 4 ++ leBytes 4 up.part.idcode ++ leBytes 4 68 ++ leBytes 2 1 ++ leBytes 2 0 ++ leBytes 4 10000
    ++ leBytes 4 32 ++ leBytes 4 48 ++ leBytes 2 1 ++ leBytes 1 1 ++ leBytes 1 0 ++ leBytes 2 0x2003 ++ leBytes 2 0 ++ leBytes 4 4 ++ leBytes 4 48
    ++ [0x803F, 0, 4, 0].flatMap (leBytes 4)
  b ++ leBytes 4 (crc32c b)

/-- What the file says. -/
def file : GraphFile := ⟨up.part.idcode, 10000, [⟨1, 1, 0x2003, [0x803F, 0, 4, 0]⟩], []⟩

/-- The Wheel accepts graphs. -/
def wheel (s : State) : State := { s with wheel := { s.wheel with ready := true } }

theorem graphFile_parses : parseGraph graphFile = .inr file := by decide +kernel

theorem witness_GraphAdmission :
      let d := desc 1 68 0x1000 [5]
      let s := host 0 [d]
      let bid (s : State) := (s.judgeGraph ⟨0, 5, file, [], [], [], [], [], []⟩ true false).2
      graphFits d graphFile = true ∧ s.wheelTurn 0 d = true ∧ s.boot.hold = false ∧ takes s 0 1 d = true ∧ 5 = d.param 0 % 2 ^ 8 ∧
        s.graphAt 0 5 = none ∧ (s.graphs.filter (fun g => g.fn == 0)).length < 4 ∧ (bid s).verdict = some (6, 0xFFFF) ∧
        (bid (wheel s)).verdict = none ∧ (bid (wheel s)).handle = 5 ∧ (bid (wheel s)).fn = 0 ∧ d.tick = 0 := by decide +kernel

/-- A running graph of F7 with nothing in it. -/
def idle : Graph := ⟨7, 255, .running, [], [], 1, 0, 3, 2, 3, none, none, 0⟩

theorem witness_GraphChange :
      let g := { idle with fn := 0 }
      let d := desc 2 68 0x1000 [255]
      let s := { wheel (host 0 [d]) with wheel := { (wheel (host 0 [d])).wheel with graphs := [g] } }
      let bid (busy : Bool) := (s.judgeGraph ⟨0, 255, file, [], [], [], [], [], []⟩ false busy).2
      takes s 0 2 d = true ∧ s.graphAt 0 255 = some g ∧ (bid false).verdict = none ∧ (bid true).verdict = some (7, 0xFFFF) := by decide +kernel

theorem witness_WheelCommands :
    let s (f : Nat) (d : HostDesc) : State := { host f [d] with wheel := { (host f [d]).wheel with graphs := [idle] } }
    (∀ k ∈ [0, 9], let d := desc 3 0 0 [255, k]
      takes (s 7 d) 7 3 d = true ∧ (s 7 d).wheelTurn 7 d = true ∧ (s 7 d).graphAt 7 255 = some idle ∧ idle.phase = .running ∧ idle.stopAt = none ∧
        idle.change = none ∧ (d.tick = 0 ∨ (s 7 d).time.tick + 2 ≤ d.tick)) ∧
    (∀ x ∈ [(60, 2), (110, 20), (59, 2), (111, 2), (60, 1), (60, 21)], let d := desc 5 0 0 [1 + x.1 * 2 ^ 8 + x.2 * 2 ^ 16]
      takes (s 0 d) 0 5 d = true ∧ (d.param 0 / 2 ^ 8) % 2 ^ 8 = x.1 ∧ (d.param 0 / 2 ^ 16) % 2 ^ 8 = x.2) ∧
    (let d := desc 4 32 0x1000 [255]
     takes (s 7 d) 7 4 d = true ∧ (s 7 d).wheel.graphs.find? (fun g => g.fn == 7 && g.handle == 255) = some idle ∧
      32 * (1 + idle.elems.length + idle.edges.length) ≤ d.length) := by decide

theorem witness_WheelEvents :
    (let s := put up (dspState 71) [(dspState_STATE, 2)]; 71 < s.part.cores ∧ s.coreState 71 = 2 ∧ (s.core 71).home = none) ∧
    (let t : Task := ⟨0, 1, 0, [], 0, [], 0, [], 0, 0, 0, [], []⟩
     let m : Move := ⟨7, 255, 0, 0x4000, 0x4000 + 71, 6, true⟩
     let s := (dsp 0 (fun c => { c with task := some t, kept := [⟨6, []⟩] }))
     let u := { s with wheel := { s.wheel with moves := [m] } }
     u.wheel.moves.find? (fun m => m.begun && m.new == 0x4000 + 71) = some m ∧ (u.core 71).task = some t ∧ (u.core 71).kept.getLast? = some ⟨6, []⟩) ∧
    (let e : PlacedEdge := ⟨⟨1, 0, false, 2, 0, 4⟩, 4, 1, 0, 0, 4, [0, 4], 0, 0, 0, 3, false⟩
     let s := put (host 7 []) (portStatus 0) [(⟨1, 0⟩, 3)]
     let g := { idle with edges := [e] }
     s.deogen = true ∧ g.phase ≠ .stopping ∧ e ∈ g.edges ∧ s.broken e = true) := by decide

/-- Sagger 15 with a design that runs. -/
def fabric : State := put up (sagState 15) [(sagState_STATE, 3), (sagState_POWERED, 1)]

theorem witness_SaggerCommands :
    let v (a c r : Nat) := word [(sagCmd_CAP_ARM, a), (sagCmd_CAP_CANCEL, c), (sagCmd_RESTART, r)]
    let armed := fabric.setSag 15 { fabric.sag 15 with armed := true }
    (15 < fabric.part.saggers ∧ fabric.open_ = true ∧ fabric.maySag 0 15 = true ∧ fabric.fired 15 = true) ∧
    (sagCmd_RESTART.get (v 0 0 1) = 1 ∧ sagCmd_CAP_ARM.get (v 1 0 0) = 1 ∧ sagCmd_CAP_CANCEL.get (v 0 1 0) = 1) ∧
    (fabric.armError 15 ≠ 0 ∧ (armed.sag 15).armed = true ∧ (fabric.setReg (clksel 15) 0).armError 15 = 0) := by decide

theorem witness_DesignEvents :
    let on := put fabric (sagEvt 15) [(sagEvt_EN, 8)]
    let armed := fabric.setSag 15 { fabric.sag 15 with armed := true, event := some 800001, setting := word [(capCtrl_MODE, 2)] }
    let ticked := { (fabric.setReg (clksel 15) 0).setSag 15 { fabric.sag 15 with armed := true, want := 7, setting := word [(capCtrl_MODE, 1), (capCtrl_DELAY, 2)] } with
      time := { fabric.time with now := 400005, sub := 5 } }
    let free := (fabric.setReg (clksel 15) 0x4).setSag 15 { fabric.sag 15 with armed := true, due := some 12, edges := [(0, 12)] }
    (armed.designRuns 15 = true ∧ (armed.sag 15).armed = true ∧ armed.captureDue 15 = true ∧
      ticked.captureDue 15 = true ∧ free.captureDue 15 = true ∧
      (armed.setSag 15 { armed.sag 15 with held := [0] }).netRises 15 ((armed.fab 15).num (.clock 0 0) 2) = false) ∧
    ((fabric.fab 15).num (.clock 127 15) 2 = 0 ∧ (fabric.setSag 15 { fabric.sag 15 with released := [2] }).designLive 15 = true ∧
      (fabric.fab 15).cfg (.enableUsed 127 15) = false ∧ (fabric.fab 15).cfg (.setUsed 127 15) = false ∧ (fabric.sag 15).released.contains 3 = false) ∧
    (let y : PlacedElem := ⟨⟨2, 6, 0, []⟩, 0x600F, 3, 0, 0, none⟩
     let e : PlacedEdge := ⟨⟨1, 0, false, 2, 15, 4⟩, 4, 1, 0, 4, 67, [0, 4], 0, 9, 0, 3, false⟩
     ({ fabric with wheel := { fabric.wheel with graphs := [{ idle with elems := [y], edges := [e] }] } }).inputBound 15 15 = true ∧
     (let x : PlacedElem := ⟨⟨1, 5, 0, []⟩, 0x600F, 0, 0, 0, none⟩
      let o : PlacedEdge := ⟨⟨1, 31, false, 2, 0, 4⟩, 4, 1, 0, 4, 67, [0, 4], 0, 9, 0, 3, false⟩
      let bound := { fabric with wheel := { fabric.wheel with graphs := [{ idle with elems := [x], edges := [o] }] } }
      let full := bound.setSag 15 { bound.sag 15 with pushed := [(15, 4)] }
      let heavy := bound.setSag 15 { bound.sag 15 with pkt := [(packetKey 15 o, List.replicate 512 0)] }
      bound.outFull 15 15 = false ∧ heavy.outFull 15 15 = true ∧
      fabric.streamsFrom (0x6000 + 15) (16 + 15) = [] ∧ bound.streamsFrom (0x6000 + 15) (16 + 15) = [o] ∧
      o.words ≤ FMap.get (fun _ => 0) (full.sag 15).pushed 15 ∧ 16 + 15 ∉ (full.sag 15).said ∧ 32 + 15 ∉ (full.sag 15).said)) ∧
    (fabric.fired 15 = true ∧ ((fabric.inFifo 15 15).drop (0 - FMap.get (fun _ => 0) (fabric.sag 15).popped 15)).length < 512 ∧
      512 ≤ (List.replicate 512 (0 : Word)).length) ∧
    (fabric.designRuns 15 = true ∧ fabric.muted 15 15 = false) ∧
    (on.outLive 15 = true ∧ bitOf (on.fld (sagEvt 15) sagEvt_EN) 3 = 1 ∧ 3 ∉ (on.sag 15).lines) := by decide +kernel

theorem witness_FabricClocks :
    let held := fabric.setSag 15 { fabric.sag 15 with held := [3] }
    let s := put fabric (fpllStatus 1) [(fpllStatus_LOCK, 1), (fpllStatus_FREQ, 100)]
    let a := put { up with loader := { up.loader with abortAt := [(15, some 0)] }, time := { up.time with now := 300000000 } } (sagState 15) [(sagState_STATE, 1)]
    (15 < held.part.saggers ∧ held.designRuns 15 = true ∧ 3 ∈ (held.sag 15).held ∧ (held.setReg (clksel 15) 0).holdOver 15 3 = true ∧
      ((held.setReg (clksel 15) 0x4000).setSag 15 { held.sag 15 with edges := [(3, 16)] }).holdOver 15 3 = true) ∧
    (s.fld (fpllStatus 1) fpllStatus_LOCK = 1 ∧ s.fld (fpllStatus 1) fpllStatus_FREQ ≠ 0) ∧
    (FMap.get (fun _ => none) a.loader.abortAt 15 = some 0 ∧ a.saggerState 15 = 1 ∧ a.loader.load = none ∧ 0 + 200000000 ≤ a.tickStart ∧
      (a.setPower 31 .on).powerOf (16 + 15) = .on ∧ a.noc.reqs = [] ∧ a.net = [] ∧
      (let r : NetReq := ⟨niSagger 15 0, 0, 0, 4, 8, 3, 0, 1⟩; let b := { a with noc := { a.noc with reqs := [r] } }; r ∈ b.noc.reqs ∧ r.ni = niSagger 15 0)) := by decide

theorem witness_PinCommands :
    (13 < 14 ∧ up.open_ = true ∧ 31 < 32 ∧ ownerMay 0 (up.ownPin (32 * 13 + 31)) = true) ∧
    (∀ i ∈ [0, 31], up.fld (pinCfg 13 i) pinCfg_IRQ ≠ 4 ∧ up.fld (pinCfg 13 i) pinCfg_IRQ ≠ 5) ∧
    (let s := put up (pinCfg 13 31) [(pinCfg_IRQ, 3), (pinCfg_IE, 1)]
     s.pinLive 447 = true ∧ s.pinLevel 447 ≠ true ∧ s.bit (pinCfg 13 31) pinCfg_IE = true ∧ 447 ∉ s.pins.said) ∧
    (∀ e ∈ [400001, 400000], let s := { up with pins := { up.pins with switch := [(447, some ⟨400000, e, false⟩)] } }
      s.switchOf 447 = some ⟨400000, e, false⟩ ∧ 400000 ≤ s.time.now) := by decide

theorem witness_SerialUnits :
    let full : TxQueue := ⟨List.replicate 16 (0, none), 0, 0⟩
    let spi := { up with pins := { up.pins with spiTx := [(3, full)] } }
    let done := put { up with pins := { up.pins with spiTx := [(3, ⟨[], 0, 1⟩)] } } (spiStatus 3) [(spiStatus_BUSY, 1)]
    let i2c := put { up with pins := { up.pins with i2c := [(3, ⟨[], [], some (word [(i2cCmd_COUNT, 16)])⟩)] } } (i2cCtrl 3) [(i2cCtrl_EN, 1)]
    let uart := put { up with pins := { up.pins with uartTx := [(1, full)], uartRx := [(1, [5])] } } (uartCtrl 1) [(uartCtrl_EN, 1)]
    ((up.spiNow 3).queue.length < 16 ∧ 16 ≤ (spi.spiNow 3).queue.length ∧ up.open_ = true) ∧
    (done.bit (spiStatus 3) spiStatus_BUSY = true ∧ (done.spiNow 3).queue = [] ∧ (done.spiNow 3).last ≤ done.time.now) ∧
    (i2c.bit (i2cCtrl 3) i2cCtrl_EN = true ∧ i2c.bit (i2cStatus 3) i2cStatus_BUSY = false ∧ i2cCmd_COUNT.get (word [(i2cCmd_COUNT, 16)]) ≤ 16 ∧
      (i2c.i2cOf 3).cmd = some (word [(i2cCmd_COUNT, 16)])) ∧
    ((up.uartNow 1).queue.length < 16 ∧ 16 ≤ ({ spi with pins := { spi.pins with uartTx := [(1, full)] } }.uartNow 1).queue.length ∧
      uart.bit (uartCtrl 1) uartCtrl_EN = true ∧ (uart.uartRxOf 1).length < 16 ∧ uart.uartRxOf 1 ≠ [] ∧ up.uartRxOf 1 = []) := by decide

theorem witness_UartFull :
    let s := put { up with pins := { up.pins with uartRx := [(1, List.replicate 16 5)] } } (uartCtrl 1) [(uartCtrl_EN, 1)]
    s.bit (uartCtrl 1) uartCtrl_EN = true ∧ 16 ≤ (s.uartRxOf 1).length := by decide

theorem witness_TimersAndTriggers :
    let s := { up with pins := { up.pins with tmr := [(15, ⟨some (7, 0), true, some 400000⟩)] } }
    let t := put up trigIn [(trigIn_RISE_EN, 0x80), (trigIn_FALL_EN, 0x80)]
    let high := { t with pins := { t.pins with lines := [(7, true)] } }
    (up.open_ = true ∧ tmrCtrl_EDGE.get (word [(tmrCtrl_EN, 1), (tmrCtrl_MODE, 2)]) ≠ 3 ∧ stampBeforeStamp (8, 0) (up.time.tick, up.time.sub) = false ∧
      stampBeforeStamp (6, 0) (up.time.tick, up.time.sub) = true) ∧
    ((s.tmr 15).armed = some (7, 0) ∧ 7 = s.time.tick ∧ 0 ≤ s.time.sub ∧ (s.tmr 15).pulseEnd = some 400000) ∧
    (t.lineLevel 7 = false ∧ (true : Bool) = (true != (bitOf (t.cur trigIn trigIn_INV) 7 == 1)) ∧ bitOf (t.fld trigIn trigIn_RISE_EN) 7 = 1) ∧
    (high.lineLevel 7 = true ∧ bitOf (high.fld trigIn trigIn_FALL_EN) 7 = 1) ∧
    (fabric.outLive 15 = true ∧ 15 < fabric.part.saggers) := by decide

theorem witness_PtiEdge : let s := { up with pins := { up.pins with alt := [(15, 5)] } }; s.feeder (5, 15, 0) = some 15 := by decide +kernel

theorem witness_OwnersAndAcknowledgement :
    up.open_ = true ∧ (∀ i, i < 8 → up.ownUsed up.ownChannels (8 * 7 + i) = false) ∧ nibble 0x90000000 7 = 9 ∧ nibble (up.reg (up.ownChannels.written 7)) 7 = 1 ∧
    (∀ n ∈ [1, 64, 127], let s := put up flStatus [(flStatus_COUNT, 64), (flStatus_FULL, 1)]
      0 < min (flAck_N.get (word [(flAck_N, n)])) (s.fld flStatus flStatus_COUNT)) := by decide

theorem witness_HostFunctions :
    let s := put (host 7 [desc 0x10 64 0x1000 []]) (cmdCtrl 7) [(cmdCtrl_EN, 1)]
    let r := s.setFn 7 { s.fn 7 with reading := some 8 }
    let g := { s with wheel := { s.wheel with graphs := [idle] } }
    (s.boot.held = false ∧ (∀ x ∈ g.wheel.graphs, x.fn = 7 ∧ x.phase ≠ .admitted ∧ x.phase ≠ .stopped)) ∧
    ((r.fn 7).silent = false ∧ (r.fn 7).reading = some 8 ∧ (r.fn 7).again = false ∧ (r.fn 7).dbSaid = false ∧
      (let w := (r.setReg (dbAddrLo 7) 0x1000).setFn 7 { r.fn 7 with again := true }; (w.fn 7).again = true ∧ w.wantsDoorbell 7 = true) ∧
      ((s.setFn 7 { s.fn 7 with d3 := true }).fn 7).d3 = true ∧ s.ringRuns 7 0 = true) ∧
    (put s (dataCtrl 7 15) [(cmdCtrl_EN, 1)]).ringRuns 7 16 = true ∧
    (∀ c ∈ [8, 0x10, 0x11], takes (host 0 [desc c 64 0x1000 []]) 0 c (desc c 64 0x1000 []) = true) ∧
    (∀ c ∈ [1, 2], takes (host 7 [desc c 64 0x1000 [9]]) 7 c (desc c 64 0x1000 [9]) = true) ∧ s.loader.load = none := by decide

theorem witness_HeatAndSupplies :
    let s := { withStandby.setInj 15 [⟨0, 0, false, 0, 6⟩] with time := { up.time with lastStart := 399040 }, boot := { up.boot with warned := [6] } }
    let h := { up with boot := { up.boot with hold := true }, time := { up.time with now := 2000000000 } }
    (s.injOf 15 = [⟨0, 0, false, 0, 6⟩] ∧ s.time.bounds = 6 + 2 ∧ s.time.sub = 0 ∧ s.injDue 15 ⟨0, 0, false, 0, 6⟩ = s.time.now ∧ s.boot.trip = false ∧ (s.standby 15).isSome = true) ∧
    ((readSensor (s.sensorOf 15) (16 * 40) s.time.tick).1 = true ∧ (readSensor (s.sensorOf 15) (16 * 2000) s.time.tick).1 = false ∧
      (readSensor (s.sensorOf 15) (16 * 110) s.time.tick).1 = true ∧ 16 * s.part.tmax < 16 * 110 ∧ s.boot.warnAt = none) ∧
    (h.boot.hold = true ∧ h.boot.clearDue = false ∧ h.boot.hotAt + 2000000000 ≤ h.time.now) ∧
    (up.boot.held = false ∧ up.boot.trip = false ∧ 6 ∉ up.boot.warned ∧ 6 ∈ s.boot.warned) := by decide

theorem witness_DeviceResets :
    let v := word [(resetCtrl_KEY, 0xB007), (resetCtrl_DEV_RESET, 1)]
    (up.boot.held = false ∧ up.cal.image = none ∧ up.open_ = true ∧ up.boot.resetAt = none ∧ resetCtrl_KEY.get v = 0xB007 ∧ resetCtrl_DEV_RESET.get v = 1) ∧
    (let s := { up with boot := { up.boot with held := true } }; s.boot.held = true) ∧
    (let s := { up with boot := { up.boot with resetAt := some 400000 } }
     s.boot.resetAt = some 400000 ∧ 400000 ≤ s.time.now ∧ s.loader.op.any (fun x => x.fw) = false) := by decide

theorem witness_BootSequence :
    let s := { State.reset with loader := { State.reset.loader with starting := 2 } }
    let late := { s with time := { s.time with now := 1000000000 } }
    let m := host 7 []
    let l := { m with boot := { m.boot with lane := some 2, tested := true } }
    (State.reset.boot.held = false ∧ State.reset.boot.otpRead = false) ∧
    (s.loader.starting = 2 ∧ late.boot.fwAt + 1000000000 ≤ late.time.now) ∧
    (late.time.clock = .held ∧ late.bit bootStatus bootStatus_REF_WAIT = false ∧ late.boot.t0 + 80000000 ≤ late.time.now) ∧
    (m.bit bootStatus bootStatus_READY = true ∧ m.boot.tested = false ∧ m.deogen = true ∧ m.boot.lane = none) ∧
    (l.boot.tested = true ∧ l.time.clock = .running ∧ l.loader.load = none ∧ l.loader.op = none ∧ l.cal.image = none ∧
      l.bit imageStatus imageStatus_BISQUE_OK = false ∧ l.bit imageStatus imageStatus_BISQUE_FAIL = false) ∧
    (m.open_ = true ∧ m.ownChan (4 * 15) = 0 + 1 ∧ bisqueCh_DEC.get (word [(bisqueCh_DEC, 6)]) ≠ 7) ∧ l.boot.lane = some 2 := by decide

theorem witness_Firmware : State.reset.fwValid 1 = false ∧ State.reset.fwValid 2 = false := by decide +kernel

/-- A load from flash at frame address 0 of the bisque image's place. -/
def load (f : Load → Load := id) : Load :=
  f ⟨false, 0, 0, none, 0, [], [], false, 100, 0, [], none, [], [], [], 0, [], [], [1, 2, 3, 4], none, none, 0⟩

/-- The loader at a state of its register with a load. -/
def loading (state : Nat) (l : Load) : State :=
  let s := put (host 7 []) loadStatus [(loadStatus_STATE, state)]
  { s with loader := { s.loader with load := some l } }

/-- A header (R334) of a bisque image of one frame. -/
def header : List Byte :=
  let b := leBytes 4 0x4B494D47 ++ leBytes 4 4 ++ leBytes 4 up.part.idcode ++ [1, 0, 0, 0xE4] ++ leBytes 4 1 ++ leBytes 4 788 ++ List.replicate 228 0
  b ++ leBytes 4 (crc32c b)

/-- A frame (R338) of frame address `a` with an empty cell. -/
def frame (a : Nat) : List Byte :=
  let b := leBytes 4 (0x1000000 + a) ++ List.replicate 524 0
  b ++ leBytes 4 (crc32c b)

theorem header_passes : up.headerError header = 0 ∧ up.headerError (List.replicate 256 0) ≠ 0 := by decide +kernel

/-- A host load whose inbox holds a header, and one whose inbox holds a frame. -/
def headed : Load := load (fun l => { l with host := true, inbox := header })
def framed : Load := load (fun l => { l with host := true, hdr := some (parseHeader header), taken := 256, inbox := frame 255 })

theorem witness_ImageHeader : (loading 1 headed).loader.load = some headed ∧ (loading 1 headed).deogen = true ∧ (loading 1 headed).loadState = 1 ∧
    ((loading 1 headed).sourceBytes headed 256).map (loading 1 headed).headerError = some 0 :=
  ⟨rfl, by decide +kernel, by decide +kernel, by decide +kernel⟩

set_option maxRecDepth 20000 in
theorem witness_Frame : (loading 3 framed).loader.load = some framed ∧ framed.hdr = some (parseHeader header) ∧ (loading 3 framed).loadState = 3 ∧
    ((loading 3 framed).sourceBytes framed 532).map (fun b => (frameError framed (parseHeader header) b, leAt b 0 4)) = some (0, 0x10000FF) ∧
    frameError framed (parseHeader header) (frame 256) ≠ 0 :=
  ⟨rfl, rfl, by decide +kernel, by decide +kernel, by decide +kernel⟩

theorem witness_ImageLoading :
    let h := parseHeader header
    let p := { h with kind := 3, region := 16, enc := true, epochFrames := 1 }
    let l := load (fun l => { l with hdr := some p, index := 1, tags := [(true, 0, 0), (false, 0, 0)], deadline := 8 })
    let s := loading 2 l
    let t := loading 3 l
    (s.loadState = 2 ∧ l.hdr = some p ∧ p.kind = 3 ∧ s.powerOf (16 + (p.region - 1)) ≠ .on ∧ l.readyAt ≤ s.time.now) ∧
    (let r := s.setPower 31 .on; r.powerOf (16 + (p.region - 1)) = .on ∧ l.taken < p.length ∧ l.host = false) ∧
    (t.loadState = 3 ∧ ({ l with tags := [] } : Load).trailerDue = true ∧ (t.sourceBytes l 32).isSome = true) ∧
    (l.tags = (true, 0, 0) :: [(false, 0, 0)] ∧ 1 ≤ s.loadState ∧ s.loadState ≤ 4 ∧ l.deadline ≤ s.time.bounds) := by decide +kernel

theorem witness_LoadCommands :
    let h := parseHeader header
    let go := word [(loadCmd_FLASH_GO, 1), (loadCmd_SLOT, 1)]
    let stop := word [(loadCmd_CANCEL, 1)]
    let s (l : Load) := loading 6 l
    (up.open_ = true ∧ loadCmd_FLASH_GO.get go = 1 ∧ loadCmd_CANCEL.get go = 0 ∧ loadCmd_CANCEL.get stop = 1 ∧ loadCmd_FLASH_GO.get stop = 0) ∧
    ((loading 5 (load id)).loader.load = some (load id) ∧ (loading 5 (load id)).loadState < 6 ∧ (loading 3 (load id)).loadState < 4 ∧ (load id).host = false) ∧
    (let l := load (fun l => { l with hdr := some h, stepAt := some 400000 })
     (s l).loadState = 6 ∧ l.steps = 1 :: 2 :: [3, 4] ∧ l.stepAt = some 400000 ∧ 400000 ≤ (s l).time.now) ∧
    (let l := load (fun l => { l with hdr := some h, steps := [3], stepAt := some 400000 }); (s l).loadState = 6 ∧ l.steps = [3] ∧ l.hdr = some h) ∧
    (let l := load (fun l => { l with hdr := some h, steps := [0, 1], waitFrom := some 0 })
     l.waitFrom = some 0 ∧ (s l).pllsReady h = true ∧ 0 + 20000000 ≤ ({ up with time := { up.time with now := 20000000 } }).time.now) := by decide +kernel

theorem witness_CfgData : ∀ k ∈ [8, 8 + 0x100], let d := desc k 9 0x1000 []
    takes (host 0 [d]) 0 8 d = true ∧ (host 0 [d]).loader.load = none ∧ (d.ends = true ↔ k = 8 + 0x100) := by decide

/-- A flash that holds an image set in slot A: its directory (R342) with the header of a production image. -/
def flashed : State :=
  let d := leBytes 4 0x4B534C54 ++ leBytes 4 4 ++ leBytes 4 1 ++ List.replicate 4 0 ++ leBytes 4 156 ++ leBytes 4 256 ++ List.replicate 128 0
  let b := d ++ leBytes 4 (crc32c d) ++ List.replicate 12 0 ++ [2]
  let s := host 0 []
  { s with loader := { s.loader with flash := ((List.range b.length).map (fun i => (0x1000000 + i, b.getD i 0))) } }

theorem witness_FlashGo : flashed.slotValid 1 = true ∧ flashed.loader.load = none ∧ flashed.loader.set = none ∧ flashed.loader.op = none ∧
    flashed.cal.image = none ∧ flashed.prodUp = false := by decide +kernel

/-- A firmware file (R522) of four bytes. -/
def firmware : List Byte :=
  let code : List Byte := [1, 2, 3, 4]
  let b := leBytes 4 0x4B465744 ++ leBytes 4 1 ++ leBytes 4 0x200 ++ leBytes 4 4 ++ leBytes 4 0 ++ leBytes 4 (crc32c code) ++ List.replicate 20 0
  b ++ leBytes 4 (crc32c b) ++ List.replicate 16 0 ++ code

/-- A flash with the firmware file and an INSTALL_SEQ in each of some slots. -/
def armed (slots : List (Nat × Nat)) : State :=
  let b (x : Nat × Nat) := ((List.range firmware.length).map (fun i => (fwBase x.1 + i, firmware.getD i 0))) ++ (List.range 4).map (fun i => (fwBase x.1 + 0x3FFFFC + i, (leBytes 4 x.2).getD i 0))
  { State.reset with loader := { State.reset.loader with flash := slots.flatMap b } }

theorem witness_FirmwareSlots : ((armed [(1, 5)]).fwValid 1 = true ∧ (armed [(1, 5)]).fwValid 2 = false) ∧
    (∀ k ∈ [4, 5, 6], let s := armed [(1, 5), (2, k)]; s.fwValid 1 = true ∧ s.fwValid 2 = true ∧ s.installSeq 1 = 5 ∧ s.installSeq 2 = k) := by
  decide +kernel

/-- An image set (R342) of one production image that names this part. -/
def imageSet : List Byte :=
  let d := leBytes 4 0x4B534C54 ++ leBytes 4 4 ++ leBytes 4 1 ++ List.replicate 4 0 ++ leBytes 4 156 ++ leBytes 4 256 ++ List.replicate 128 0
  let h := leBytes 4 0x4B494D47 ++ leBytes 4 4 ++ leBytes 4 up.part.idcode ++ [2, 0, 0, 0xE4] ++ leBytes 4 1 ++ leBytes 4 788 ++ List.replicate 228 0
  d ++ leBytes 4 (crc32c d) ++ h ++ leBytes 4 (crc32c h)

theorem witness_FlashInstalls :
    let d := desc 0x10 100 0x1000 []
    let e := desc 0x11 412 0x1000 [1]
    let hdr := (imageSet.drop (leAt imageSet 0x10 4)).take 256
    let x : FlashOp := ⟨true, some d, fwBase 2, 1, firmware, 5⟩
    let s := { host 0 [d] with loader := { up.loader with op := some x } }
    (takes (host 0 [d]) 0 0x10 d = true ∧ d.length ≤ 0x400000 ∧ (host 0 [d]).flashFree = true ∧ up.fwError firmware = 0 ∧ up.fwError [] ≠ 0) ∧
    (takes (host 0 [e]) 0 0x11 e = true ∧ e.length ≤ 0x1000000 ∧ (host 0 [e]).flashFree = true ∧
      dirValid imageSet imageSet.length (fun o => leAt imageSet (o + 0xC) 1) = true ∧ badHeader hdr = false ∧ leAt hdr 8 4 = up.part.idcode ∧
      dirValid [] 0 (fun o => leAt [] (o + 0xC) 1) = false) ∧
    (s.loader.op = some x ∧ s.loader.set = none ∧ x.d = some d ∧ (s.fn 0).silent = false ∧ x.bytes.length ≤ 0x3FFFFC) := by decide +kernel

theorem witness_NetworkRequests :
    let p := { pkt with dst := 67, cmd := 3, len := 1, data := List.replicate 32 7, aux := 1 }
    let y : PlacedElem := ⟨⟨2, 8, 0, []⟩, 0x8000, 3, 0, 5, none⟩
    let e : PlacedEdge := ⟨⟨1, 0, false, 2, 0, 4⟩, 4, 1, 0, 4, 67, [0, 4], 0, 9, 0, 3, false⟩
    let g := { idle with elems := [y], edges := [e] }
    let w := up.setPower (niDomain 67) .on
    let s := put { w with wheel := { w.wheel with graphs := [g] } } (capStrStatus 5) [(capStrStatus_STATE, 2)]
    let t := put (s.setCap 5 { s.cap 5 with begun := true }) (writtenLo 5) [(⟨31, 0⟩, 1)]
    (p.dst < 256 ∧ p.src < 256 ∧ tooLong p = false ∧ reservedCmd p.cmd = false ∧ p.poisoned = false ∧ w.niPower 67 = 0 ∧
      (let n := { w with net := [p] }; p ∈ n.net ∧ n.noc.linkWait = [])) ∧
    (p.flaws = [] ∧ ({ p with flaws := [⟨0, true⟩] }).flaws = [⟨0, true⟩] ∧ 0 < p.aux ∧ p.addr / 32 ≤ 0 ∧ 32 * 0 < p.addr + 32 * p.aux) ∧
    ((w.memoryError p (32 * p.len)).1 = 0 ∧ (w.memoryError { p with addr := 2 ^ 34 } 32).1 ≠ 0 ∧ p.data.length = 32 * p.len ∧ p.crossed = false) ∧
    (isLink p.dst = false ∧ p.src ≠ 250) ∧
    (let f := { p with src := 250, dst := 98 }
     isLink 98 = false ∧ 0 / 0x80000 ≠ regionOf 98 ∧ { f with addr := 0x80005 }.addr / 0x80000 = regionOf 98 ∧ { f with addr := 0x80000 }.addr / 0x80000 ≠ regionOf 67) ∧
    (t.bound 67 9 = some (g, e) ∧ g.sink e = some y ∧ y.el.kind = 8 ∧ y.stream = 5 ∧ t.capState 5 = 2 ∧ t.capRaw 5 = false ∧
      (t.cap 5).begun = true ∧ (t.cap 5).trig = none ∧ 0 < t.pair (writtenLo 5) (writtenHi 5) % 16384 ∧
      (t.pair (writtenLo 5) (writtenHi 5) % 16384 + 1) % 8 ≠ 0) ∧
    (t.bound 67 8 = none ∧ 3 ≠ 0 ∧ 3 ≠ g.fn + 1) ∧
    (∀ l ∈ [0, 1, 2, 3], let c := { pkt with dst := niLink l, cmd := 1, crossed := true }
      l < 4 ∧ c.dst < 256 ∧ tooLong c = false ∧ c.poisoned = false ∧ up.niPower c.dst = 0 ∧ c.crossed = true ∧ up.linkActive l = false) := by decide

theorem witness_CfgFrame :
    let p := { pkt with cmd := 5, src := 250, dst := 67, addr := 255 }
    let l := load (fun l => { l with written := [255] })
    p.src = 250 ∧ (loading 3 l).loader.load = some l ∧ p.addr ∈ l.written ∧ isLink p.dst = false := by decide

theorem witness_LinkStream : ∀ st ∈ [2, 3],
    let y : PlacedElem := ⟨⟨2, 10, 0, [3, 9]⟩, 0, 3, 0, 0, none⟩
    let e : PlacedEdge := ⟨⟨1, 0, false, 2, 0, 4⟩, 4, 1, 0, 4, niLink 3, [0, 4], 0, 9, 0, 3, false⟩
    let g := { idle with elems := [y], edges := [e] }
    let s := put { up with wheel := { up.wheel with graphs := [g] } } (xlStatus 3) [(xlStatus_STATE, st)]
    s.bound (niLink 3) 9 = some (g, e) ∧ g.sink e = some y ∧ y.el.kind = 10 ∧ s.fld (xlStatus 3) xlStatus_STATE = st ∧ niLink 3 < 256 ∧
      s.niPower (niLink 3) = 0 ∧ s.linkUsed 3 + (1 + 64) ≤ niGrants (niLink 3) ∧ s.noc.linkWait = [] ∧
      niGrants (niLink 3) < ({ s with noc := { s.noc with linkUsed := [(3, niGrants (niLink 3))] } }).linkUsed 3 + (1 + 0) := by decide

theorem witness_StreamSinks : ∀ k ∈ [4, 5],
    let y : PlacedElem := ⟨⟨2, k, 0, []⟩, 0x4000, 3, 0, 0, none⟩
    let e : PlacedEdge := ⟨⟨1, 0, false, 2, 0, 4⟩, 4, 1, 0, 4, 1, [0, 4], 0, 9, 0, 3, false⟩
    let g := { idle with elems := [y], edges := [e] }
    let s := { up with wheel := { up.wheel with graphs := [g] } }
    s.bound 1 9 = some (g, e) ∧ g.sink e = some y ∧ y.el.kind = k ∧ isLink 1 = false := by decide

theorem witness_LinksAndResponses :
    let r : NetReq := ⟨252, 0, 0, 4, 8, 3, 0, 1⟩
    let s := { up with noc := { up.noc with reqs := [r] } }
    let shut := put up (portStatus 63) [(⟨1, 0⟩, 3), (⟨7, 6⟩, 1)]
    (s.noc.reqs.find? (fun r => r.ni == pkt.dst && r.tag == pkt.tag) = some r ∧ up.noc.reqs.find? (fun r => r.ni == pkt.dst && r.tag == pkt.tag) = none ∧
      s.noc.reqs.find? (fun r => r.ni == 252 && decide (r.expiry ≤ s.time.bounds) && !s.answered r) = some r ∧
      (let e := { up with noc := { up.noc with expired := [r] } }; e.noc.reqs = [] ∧ r ∈ e.noc.expired ∧ r.ni = pkt.dst ∧ r.tag = pkt.tag ∧ r.addr = pkt.addr) ∧
      up.noc.waiting = [] ∧ ({ pkt with poisoned := true }).poisoned = true) ∧
    (∀ h ∈ [0, 3, 4, 7], let p := { pkt with route := h * 8 ^ 11, hop := 11 }; p.route / 8 ^ p.hop % 8 = h ∧ p.hop < 12) ∧
    (up.portState 63 0 = 0 ∧ shut.portState 63 0 ≠ 0 ∧ shut.portState 63 3 = 1) ∧
    (let long := { pkt with len := 65 }
     long.hop = 0 ∧ tooLong long = true ∧ long.src < 256 ∧ tooLong { pkt with len := 64 } = false ∧
      (let u := { up with noc := { up.noc with used := [(256 * 4 + 252, 128)] } }
       pkt ∉ u.net ∧ isResponse pkt = false ∧ u.creditsAt 4 252 < u.creditsUsed 4 252 + (1 + 0)) ∧
      up.bufferLoad 255 + (1 + 64) ≤ niGrants 255 + 128 ∧ reservedCmd 0 = true ∧ reservedCmd 1 = false) ∧
    (let p := { pkt with route := 0, hop := 1, src := 252, len := 64 }
     let load (s : State) := ((s.net.filter (fun x => isResponse x == isResponse p && standsIn x == some (4 * 63 + 0))).map (fun x => 1 + x.len)).foldl (· + ·) 0
     let two := { up with net := [{ p with tag := 1 }, { p with tag := 2 }] }
     load up + 65 ≤ 160 ∧ load two = 130 ∧ 160 < load two + 65) ∧
    (∀ n ∈ [252, 167], let d := { up.setPower (niDomain n) .draining with noc := { up.noc with reqs := [{ r with ni := n }] } }
      d.powerOf (niDomain n) = .draining ∧ ∃ r ∈ d.noc.reqs, r.ni = n) ∧
    (up.linkOn 0 = true ∧ up.linkOn 255 = true ∧ (put up (xlStatus 3) [(xlStatus_STATE, 2)]).linkOn 259 = true) := by decide

theorem witness_LinkUnits :
    let u : LinkUnit := ⟨0, crc32c (leBytes 32 0), 0⟩
    let bad : LinkUnit := { u with crc := u.crc + 1 }
    unitGood u = true ∧ unitGood bad = false ∧ u.seq = (up.link 0).due ∧ ({ u with seq := 1 } : LinkUnit).seq ≠ (up.link 0).due ∧
      (up.link 0).resend = false ∧ ((up.setLink 0 ⟨0, 15, true, 0, 0⟩).link 0).resend = true ∧ ((up.setLink 0 ⟨0, 15, true, 0, 0⟩).link 0).bad = 15 ∧
      (up.link 0).heard + 2000 ≤ up.time.now := by decide +kernel

theorem witness_Links :
    let s (st : Nat) := put up (xlStatus 3) [(xlStatus_STATE, st)]
    (up.open_ = true ∧ xlCtrl_EN.get (word [(xlCtrl_EN, 1)]) = 1 ∧ up.fld (xlStatus 3) xlStatus_STATE = 0) ∧
    ((s 1).fld (xlStatus 3) xlStatus_STATE = 1 ∧ (s 2).fld (xlStatus 3) xlStatus_STATE = 2 ∧ (s 3).fld (xlStatus 3) xlStatus_STATE = 3) ∧
    (∀ x ∈ [Power.draining, .waking], ∀ n ∈ [167, 251], (up.setPower (niDomain n) x).powerOf (niDomain n) = x) := by decide

theorem witness_CaptureCommands :
    let s (st : Nat) := put up (capStrStatus 255) [(capStrStatus_STATE, st), (capStrStatus_OWNER, 1)]
    let x : Seg := { freeSeg with owner := 1, state := 3, stream := 255 }
    let m := { s 5 with mem := { up.mem with segs := [(524287, x)] } }
    let d := desc 9 0 0 [2 ^ 31, 524287, 1]
    let c := desc 0xA 65535 0x1000 [0, 524287, 1, 1]
    let fit (d : HostDesc) : State := { host 0 [d] with mem := m.mem, regs := (m.setFld fwStatus fwStatus_RUNNING 1).regs }
    ((put (s 2) (capStrCtrl 255) [(capStrCtrl_TRIG_SRC, 0x40)]).cur (capStrCtrl 255) capStrCtrl_TRIG_SRC ≠ 0x1FF ∧ (put (s 2) (capStrCtrl 255) [(capStrCtrl_TRIG_SRC, 0x1FF)]).cur (capStrCtrl 255) capStrCtrl_TRIG_SRC = 0x1FF ∧
      (s 2).sourceLevel 0x40 = false ∧ ((s 4).cap 255).ending = false ∧ (((s 4).setCap 255 { (s 4).cap 255 with ending := true }).cap 255).ending = true ∧
      (put (s 2) trigLevel [(⟨8, 8⟩, 1)]).sourceLevel 0xD8 = true) ∧
    (∀ k ∈ [2, 3, 4], (s k).capState 255 = k) ∧ (s 2).capOwner 255 = 0 + 1 ∧ up.trigSourceOk 1 0x1FF = true ∧ up.trigSourceOk 1 0x1FE = false ∧
    (∀ g ∈ segsOf (524287 * 65536) 4096, m.mayReadSeg 0 g = true) ∧ (4096 ≤ (up.fn 0).readSize ∧ up.boot.bar2 = true) ∧ (524287 ∈ segsOf (524287 * 65536) 1 ∧ m.mayReadSeg 1 524287 = false) ∧
    (takes (fit d) 0 9 d = true ∧ bitOf (d.param 0) 31 = 1 ∧ d.param 1 + d.param 2 ≤ 524288 ∧ x.owner = 0 + 1 ∧ (fit d).capState x.stream = 5 ∧
      d.length = 0 ∧ d.buffer = 0) ∧
    (takes (fit c) 0 0xA c = true ∧ c.param 2 < 65536 ∧ 0 < c.param 3 ∧ c.param 1 + c.param 3 ≤ 524288 ∧
      c.length ≤ c.param 3 * 65536 - c.param 2 ∧ ∀ u ∈ [1073739776, 1073741823], (c.param 1 * 65536 + c.param 2) / 32 ≤ u ∧
        32 * u < c.param 1 * 65536 + c.param 2 + c.length) ∧
    (let w := { up with boot := { up.boot with warm := true } }; w.boot.held = false ∧ w.boot.warm = true ∧ w.boot.bar2 = true ∧
      ({ up with boot := { up.boot with bar2 := false } }).boot.bar2 = false) := by decide +kernel

theorem witness_CaptureCommandsRises : let s := put up (capStrStatus 255) [(capStrStatus_STATE, 2)]
    let sel := put s (capStrCtrl 255) [(capStrCtrl_TRIG_SRC, 0xD8)]
    let u := put sel trigLevel [(⟨8, 8⟩, 1)]
    sel.sourceLevel 0xD8 = false ∧ u.sourceLevel 0xD8 = true ∧ sel.cur (capStrCtrl 255) capStrCtrl_TRIG_SRC = 0xD8 ∧
      u.cur (capStrCtrl 255) capStrCtrl_TRIG_SRC = 0xD8 ∧ u.capState 255 = 2 ∧ u.cur (capStrCtrl 255) capStrCtrl_TRIG_SRC ≠ 0x40 := by decide

theorem witness_RegisterAccesses :
    let s := put (put up (chOwnerNow 7) [(⟨31, 28⟩, 8)]) (coreOwner 8) [(⟨31, 28⟩, 8)]
    up.open_ = true ∧ (∀ a ∈ [0x1C, 0xFFFFFC], a % 4 = 0 ∧ Regs.find a = none ∧ inFaultlog a = false ∧ inMsix a = false ∧ inSegWindow a = false) ∧
    (∀ a ∈ [flStatus, flEntry 63 7], a % 4 = 0 ∧ inFaultlog a = true ∧ (Regs.find a).isSome = true) ∧
    (∀ a ∈ [tickCtrl, xlStatus 3], a % 4 = 0 ∧ inFaultlog a = false ∧ a < 0x510000 ∧ (Regs.find a).isSome = true) ∧
    (s.open_ = true ∧ s.ownChan (4 * 15 + 3) = 7 + 1 ∧ s.ownCore 71 = 7 + 1 ∧ 71 < s.part.cores) ∧
    goodForm 2 1 15 = false ∧ goodForm 0 1 7 = false ∧ goodForm 0 1 15 = true := by decide

theorem witness_FaultLog :
    let r (s : State) : FaultRec := ⟨1, 7 + 1, (s.resource 2).2, (s.resource 2).1, 2, 0, 2, 1 + 2 * 15, s.time.tick⟩
    let full := put up flStatus [(flStatus_COUNT, 64)]
    (up.open_ = true ∧ goodForm 2 1 15 = false ∧ up.coalesces (r up) = false ∧ up.fld flStatus flStatus_COUNT < 64) ∧
    (full.coalesces (r full) = false ∨ full.coalesces (r full) = true) ∧ full.fld flStatus flStatus_COUNT = 64 := by decide

/-- The state after a write in a wrong form, which a second one like it meets. -/
def logged : State := match exec (.registerWrite 7 2 1 15 0) up with | .next t => t | _ => up

theorem witness_FaultLogRepeat :
    logged.coalesces ⟨1, 7 + 1, (logged.resource 2).2, (logged.resource 2).1, 2, 0, 2, 1 + 2 * 15, logged.time.tick⟩ = true := by decide +kernel

theorem witness_OnlyPhysicalFunction : 0 < 7 ∧ 7 < 8 ∧ up.open_ = true ∧ up.fld flStatus flStatus_COUNT = 0 := by decide

theorem witness_StepsRunCommands :
    let late (n : Nat) := { up with time := { up.time with now := n, sub := n - 400000 } }
    let p := { put (late 400009) (pinCfg 13 31) [(pinCfg_IRQ, 5)] with pins := { up.pins with rearm := [447], rearmAt := 400010 } }
    State.reset.pending = [] ∧ State.reset.nextInstant = none ∧ (late 599999).nextInstant = some 600000 ∧
    (p.pending = [] ∧ p.nextInstant = some 600000 ∧ p.pins.rearm ≠ [] ∧ p.pins.rearmAt = p.time.now + 1) := by decide

theorem witness_StepsKeepStatesSound : State.reset.regsWf = true ∧ State.reset.mem.wf = true ∧ State.reset.subWf = true := by decide

/-! ### Single commands against the spec's numbers -/

/-- The next state that a command answers, and the state itself where it answers none. -/
def after (c : Instr) (s : State) : State := match exec c s with | .next t => t | _ => s

/-- R31: the first boundary comes 40 ns after lock. -/
theorem test_first_boundary : (after .systemPllLock State.reset).time.clock = .locked 80 := by decide

/-- R32: 100 to 1,000,000 in multiples of 4. -/
theorem test_tick_div : (∀ v ∈ [100, 1000000], up.badTickDiv v = false) ∧ (∀ v ∈ [96, 102, 1000004], up.badTickDiv v = true) := by decide

/-- R9: the identity of the parts. -/
theorem test_identity : (after (.bar0Read 7 idcode 1 15 0) up).out = [.readData 7 0x56416EB3] ∧
    (after (.bar0Read 0 idcode 1 15 0) (State.resetFor .ka3216C)).out = [.readData 0 0x53216EB3] ∧
    (after (.bar0Read 0 revision 1 15 0) (State.resetFor .ka6416E)).out = [.readData 0 0x00000102] := by decide

/-- R44: an edge in mode RESET commits the load 4 + DELAY CLKREF periods on, and the mode becomes CHECK. -/
theorem test_sync_edge : let s := after .syncEdge (put up syncCtrl [(syncCtrl_MODE, 2), (syncCtrl_DELAY, 1)])
    s.time.syncs = [⟨400100, 0⟩] ∧ s.fld syncCtrl syncCtrl_MODE = 1 := by decide

/-- R69: a fifth load is one too many for a wire. -/
theorem test_fifth_load : let s := (List.range 4).foldl (fun s k => after (.connect 0 0 (word [(mxCmd_WIRE, 7), (mxCmd_TERM, 24 + 5 * k)])) s) up
    (s.mxQueue 0).length = 4 ∧ (after (.connect 0 0 (word [(mxCmd_WIRE, 7), (mxCmd_TERM, 44)])) s).fld (mxStatus 0) mxStatus_ERR = 3 := by decide

/-- The core after the word `w`, from registers that `f` gives. -/
def ran (c : Nat → Ecc → Instr) (w : IWord) (f : Core → Core) : Core := (after (c 71 .clean) (dsp w f)).core 71

/-- A core with D0 and D1. -/
def pair (a b : DWord) (c : Core) : Core := c.withBank (fun k => { k with d := (k.d.setIfInBounds 0 a).setIfInBounds 1 b })

/-- R243: 0.5 times 0.5 is 0.25, which has bit 45 of the accumulator; −1 times −1 is 1, which sets W. -/
theorem test_mpy : (ran .mpy (instr 1 (ops 8 0 1)) (pair 0x400000 0x400000)).accn 0 = 2 ^ 45 ∧
    (ran .mpy (instr 1 (ops 8 0 1)) (pair 0x800000 0x800000)).srgBit 5 = true := by decide

/-- R242: adding −1 to 1 carries out of bit 55. -/
theorem test_add_carry : let f (c : Core) : Core := c.withBank (fun k => { k with acc := (k.acc.setIfInBounds 0 1).setIfInBounds 1 (-1) })
    (ran .add (instr 0x0A (ops 8 9 0)) f).srgBit 2 = true ∧ (ran .add (instr 0x0A (ops 8 9 0)) f).accn 0 = 0 := by decide

/-- R246: LSL moves bit 23 to C; SUBD borrows. -/
theorem test_data : (ran .lsl (instr 0x1C (2 ^ 24)) (pair 0x800001 0)).du 0 = 2 ∧ (ran .lsl (instr 0x1C (2 ^ 24)) (pair 0x800001 0)).srgBit 2 = true ∧
    (ran .subd (instr 0x20 (ops 0 1 0)) (pair 1 2)).du 0 = 0xFFFFFF ∧ (ran .subd (instr 0x20 (ops 0 1 0)) (pair 1 2)).srgBit 2 = true := by decide

/-- R205: a buffer of length 5 starts at a multiple of 8, and a step of 1 from its last word goes back to its start. -/
theorem test_modulo : stepped 5 12 1 = 8 ∧ stepped 5 8 (-1) = 12 ∧ stepped 0 0x7FFF 1 = 0 ∧ stepped 0x8000 0 0x4000 = 0x4000 := by decide

/-- R252: a loop of count 2 goes back once and ends. -/
theorem test_loop : let f (c : Core) : Core := { c with stack := [⟨0, 0, 0⟩], lc := 2, la := 1, ls := 0 }
    (ran .nop 0 f).pc = 0 ∧ (ran .nop 0 f).lc = 1 ∧ (ran .nop 0 (fun c => { f c with lc := 1 })).stack = [] := by decide

/-- R259: a fifth loop is a program fault of code 3, which ends the run. -/
theorem test_loop_fault : let w := instr 0x58 (5 * 2 ^ 24 + 9)
    let s := after (.doImm 71 .clean) (dsp w (fun c => { c with stack := List.replicate 4 ⟨0, 0, 0⟩ }))
    s.fld (pfaultInfo 71) pfaultInfo_CODE = 3 ∧ (s.core 71).running = false := by decide

/-- R220: a double-bit error retires the core with CAUSE 1 and nothing executed. -/
theorem test_double_error : let s := after (.mpy 71 .double) (dsp (instr 1 (ops 8 0 1)) (pair 0x400000 0x400000))
    s.coreState 71 = 4 ∧ s.fld (dspState 71) dspState_CAUSE = 1 ∧ (s.core 71).accn 0 = 0 := by decide

/-- R110, R111: the third failing block in a row retires the slice. -/
theorem test_third_failure : let s := put up (slice 0 5) [(slice_STATE, 2), (slice_FAILS, 2)]
    let t := after (.sliceBlockEnd 0 5 ⟨true, false, ⟨100, 0, 10⟩, []⟩) { s with pool := { s.pool with block := [(5, some (0, false))] } }
    t.fld (slice 0 5) slice_STATE = 4 ∧ t.bit (poolStatus 0) poolStatus_RETIRE = true := by decide

/-- R467, R470: a write of F3 to TICK_DIV changes nothing and makes one entry of the fault log. -/
theorem test_violation : let s := after (.tickDivWrite 3 400) up
    s.fld tickCtrl tickCtrl_TICK_DIV = 10000 ∧ s.fld flStatus flStatus_COUNT = 1 := by decide

/-- R483: DATA_SET touches only the pins that the function may write. -/
theorem test_data_set : let s := put up (pinOwnerNow 0) [(⟨3, 0⟩, 2)]
    (after (.dataSet 0 0 3) s).reg (dataOut 0) = 2 ∧ (after (.dataSet 1 0 3) s).reg (dataOut 0) = 1 := by decide

/-- R405, R413: a free segment belongs to nobody; R414: a read of it is a violation. -/
theorem test_free_segment : (after (.bar2Read 0 0 4 []) up).out = [.completerAbort 0] := by decide

/-- R498: a seventeenth byte is dropped with OVF. -/
theorem test_uart_overflow : let s := (List.range 16).foldl (fun s k => after (.uartTxdata 0 0 (BitVec.ofNat 32 k)) s) up
    s.bit (uartStatus 0) uartStatus_OVF = false ∧ (after (.uartTxdata 0 0 9) s).bit (uartStatus 0) uartStatus_OVF = true := by decide +kernel

/-- R334: the check value of CRC-32C over the nine digits is E3069283 hexadecimal. -/
theorem test_crc : crc32c [0x31, 0x32, 0x33, 0x34, 0x35, 0x36, 0x37, 0x38, 0x39] = 0xE3069283 := by decide +kernel

/-- R579: a die sensor above 120 °C stops the clocks: no core executes. -/
theorem test_trip : let s := dsp (instr 1 (ops 8 0 1)) (pair 0x400000 0x400000)
    s.executing 71 = true ∧ (after (.thermalTrip 0 1936) s).executing 71 = false := by decide

/-- R512: a warm reset begins 1 µs after its write. -/
theorem test_warm_reset : (after (.devReset 0 0xB0070001) up).boot.resetAt = some 402000 := by decide

end Sys2Proof.Tests
end

section
/-! SUPPORT. What accesses to BAR0 do, by the registers they reach, and the effect of the fault log. -/

namespace Sys2Proof.Machine

open Regs

/-! ### Bits of words -/

theorem bitOf_toNat (w : Word) (k : Nat) : bitOf w.toNat k = (w.getLsbD k).toNat := by
  rw [bitOf, ← BitVec.testBit_toNat, Nat.toNat_testBit]

/-- A field of one bit. -/
theorem Fld.get_bit (k : Nat) (w : Word) : Fld.get ⟨k, k⟩ w = (w.getLsbD k).toNat := by
  rw [← bitOf_toNat]; simp [Fld.get, Fld.width, bitOf]

/-- A field depends on its own bits only. -/
theorem Fld.get_congr {F : Fld} {w v : Word} (h : ∀ i, i < F.width → w.getLsbD (F.lo + i) = v.getLsbD (F.lo + i)) :
    F.get w = F.get v := by
  refine Nat.eq_of_testBit_eq fun i => ?_
  simp only [Fld.get, Nat.testBit_mod_two_pow, Nat.testBit_div_two_pow, BitVec.testBit_toNat, Nat.add_comm i]
  by_cases hi : i < F.width
  · simp [hi, h i hi]
  · simp [hi]

/-! ### Writes of registers by their field maps (R11, R12, R545) -/

/-- A register that no write sets a field of: a write clears W1C bits. -/
theorem Regs.Desc.write_of_w1c {d : Desc} (hrw : d.bits .rw = 0#32) (hrwt : d.bits .rwt = 0#32) (w v : Word) :
    d.write w v = w &&& ~~~ (d.bits .w1c &&& v) := by
  rw [Desc.write, hrw, hrwt, BitVec.or_zero, BitVec.not_zero, BitVec.and_allOnes, BitVec.and_zero, BitVec.or_zero]

/-- A register whose every bit is RW takes the word written. -/
theorem Regs.Desc.write_of_rw {d : Desc} (hrw : d.bits .rw = BitVec.allOnes 32) (w v : Word) : d.write w v = v := by
  have hset : BitVec.allOnes 32 ||| d.bits .rwt = BitVec.allOnes 32 := BitVec.allOnes_or
  rw [Desc.write, hrw, hset, BitVec.not_allOnes, BitVec.and_zero, BitVec.zero_and, BitVec.zero_or, BitVec.and_allOnes]

/-- A bit after a write of a register that has W1C bits and no others to write: written 1 it goes, but for what hardware sets now (R12). -/
theorem Regs.Desc.getLsbD_write_effective {d : Desc} (hrw : d.bits .rw = 0#32) (hrwt : d.bits .rwt = 0#32) (s : State) (a : Nat) (w v : Word)
    (k : Nat) : (d.write w (s.effective a d v)).getLsbD k
      = (w.getLsbD k && !((d.bits .w1c).getLsbD k && v.getLsbD k && !(s.justSet a).getLsbD k)) := by
  rw [Desc.write_of_w1c hrw hrwt]
  by_cases hk : k < 32
  · simp only [State.effective, BitVec.getLsbD_and, BitVec.getLsbD_not, hk, decide_true, Bool.true_and]
    cases (d.bits .w1c).getLsbD k <;> simp
  · simp [BitVec.getLsbD_of_ge _ _ (Nat.le_of_not_lt hk)]

theorem State.effective_of_no_w1c {d : Desc} (hw : d.bits .w1c = 0#32) (s : State) (a : Nat) (v : Word) : s.effective a d v = v := by
  rw [State.effective, hw, BitVec.zero_and, BitVec.not_zero, BitVec.and_allOnes]

theorem State.writeReg_of_not_timed {d : Desc} (hd : d.timed = false) (s : State) (a : Nat) (v : Word) :
    s.writeReg a d v = s.setReg a (d.write (s.reg a) (s.effective a d v)) := by
  simp [State.writeReg, hd]

theorem State.writeReg_of_timed {d : Desc} (hd : d.timed = true) (s : State) (a : Nat) (v : Word) :
    s.writeReg a d v = s.setTimed a (d.write (s.reg a) (s.effective a d v)) := by
  simp [State.writeReg, hd]

theorem State.sets_setReg (s : State) (a : Nat) (w : Word) : Sets s [(a, w)] (s.setReg a w) := (sets_refl s).setReg a w

theorem State.sets_setTimed (s : State) (a : Nat) (w : Word) :
    Sets { s with rwtOld := (s.setTimed a w).rwtOld } [(a, w)] (s.setTimed a w) := (s.sets_setReg a w).rwtOld _

/-- A register that is RW throughout, written. -/
theorem State.writeReg_rw {d : Desc} (hrw : d.bits .rw = BitVec.allOnes 32) (hw : d.bits .w1c = 0#32) (ht : d.timed = false) (s : State)
    (a : Nat) (v : Word) : s.writeReg a d v = s.setReg a v := by
  rw [State.writeReg_of_not_timed ht, Desc.write_of_rw hrw, State.effective_of_no_w1c hw]

/-! ### The effect of the fault log (R470–R475) -/

/-- `t` is `s` but for the FAULTLOG block, the events that wait and the record of R12. -/
def OnlyLogs (s t : State) : Prop :=
  (∀ o, o < 0x30000 ∨ 0x30900 ≤ o → t.reg o = s.reg o) ∧
    Same s { t with regs := s.regs, events := s.events, logFullSaid := s.logFullSaid }

theorem OnlyLogs.refl (s : State) : OnlyLogs s s := ⟨fun _ _ => rfl, rfl⟩

theorem OnlyLogs.setReg {s t : State} (h : OnlyLogs s t) {a : Nat} (w : Word) (ha : 0x30000 ≤ a) (hb : a < 0x30900) :
    OnlyLogs s (t.setReg a w) :=
  ⟨fun o ho => by rw [State.reg_setReg_other _ _ (by omega), h.1 o ho], h.2⟩

theorem OnlyLogs.setFld {s t : State} (h : OnlyLogs s t) {a : Nat} (F : Fld) (x : Nat) (ha : 0x30000 ≤ a) (hb : a < 0x30900) :
    OnlyLogs s (t.setFld a F x) := h.setReg _ ha hb

theorem OnlyLogs.setFlag {s t : State} (h : OnlyLogs s t) {a : Nat} (F : Fld) (ha : 0x30000 ≤ a) (hb : a < 0x30900) :
    OnlyLogs s (t.setFlag a F) := ⟨(h.setFld F _ ha hb).1, h.2⟩

theorem OnlyLogs.raise {s t : State} (h : OnlyLogs s t) (src rsn : Nat) (args : List Nat) (whom : Nat) (slot : Option Nat) (logged : Bool) :
    OnlyLogs s (t.raise src rsn args whom slot logged) := by
  rw [State.raise_eq]; exact h

theorem OnlyLogs.logFullSaid {s t : State} (h : OnlyLogs s t) (b : Bool) : OnlyLogs s { t with logFullSaid := b } := h

theorem OnlyLogs.out {s t : State} (h : OnlyLogs s t) : t.out = s.out := by
  have := congrArg State.out h.2.eq
  exact this

/-- An entry's words lie in the FAULTLOG block. -/
theorem flEntry_bounds {i j : Nat} (hi : i < 64) (hj : j < 8) : 0x30000 ≤ flEntry i j ∧ flEntry i j < 0x30900 := by
  unfold flEntry; omega

theorem State.onlyLogs_repeatFault (s : State) : OnlyLogs s s.repeatFault := by
  obtain ⟨ha, hb⟩ := flEntry_bounds (Nat.mod_lt ((s.reg flSeqNext).toNat + 63) (by decide : 0 < 64)) (by decide : 7 < 8)
  exact (OnlyLogs.refl s).setFld _ _ ha hb

theorem State.onlyLogs_loseFault (s : State) : OnlyLogs s s.loseFault := by
  have h : OnlyLogs s ((s.count flLost).setFlag flStatus flStatus_LOST_ANY) :=
    ((OnlyLogs.refl s).setReg _ (by decide) (by decide)).setFlag _ (by decide) (by decide)
  unfold State.loseFault
  dsimp only
  split
  · exact h
  · exact (h.raise ..).logFullSaid true

theorem State.onlyLogs_writeFault (s : State) (r : FaultRec) : OnlyLogs s (s.writeFault r) := by
  have hi : (s.reg flSeqNext).toNat % 64 < 64 := Nat.mod_lt _ (by decide)
  have word {t : State} (h : OnlyLogs s t) (j x : Nat) (hj : j < 8) :
      OnlyLogs s (t.setReg (flEntry ((s.reg flSeqNext).toNat % 64) j) (BitVec.ofNat 32 x)) :=
    h.setReg _ (flEntry_bounds hi hj).1 (flEntry_bounds hi hj).2
  have status {t : State} (h : OnlyLogs s t) (F : Fld) (x : Nat) : OnlyLogs s (t.setFld flStatus F x) :=
    h.setFld F x (by decide) (by decide)
  have seq {t : State} (h : OnlyLogs s t) : OnlyLogs s (t.count flSeqNext) := h.setReg _ (by decide) (by decide)
  have entry := word (word (word (word (word (word (word (word (.refl s) 0 r.w0 (by decide)) 1 (s.reg flSeqNext).toNat (by decide))
    2 r.tick (by decide)) 3 (r.tick / 0x100000000) (by decide)) 4 r.addr (by decide)) 5 (r.addr / 0x100000000) (by decide))
    6 r.addr2 (by decide)) 7 (r.code * 0x100 + r.info) (by decide)
  have counted (n : Nat) := status (status (seq entry) flStatus_COUNT n) flStatus_FULL (flag (n == 64))
  unfold State.writeFault
  dsimp only
  split
  · exact status (counted _) _ _
  · exact counted _

theorem State.onlyLogs_report (s : State) (r : FaultRec) (src rsn : Nat) (args : List Nat) (whom : Nat) :
    OnlyLogs s (s.report r src rsn args whom) := by
  unfold State.report
  split
  · exact s.onlyLogs_repeatFault
  · split
    · exact s.onlyLogs_loseFault.raise ..
    · exact (s.onlyLogs_writeFault r).raise ..

/-- A violation: a read is aborted, and the rest is the log's (R470). -/
theorem State.onlyLogs_violation (s : State) (f off : Nat) (write : Bool) (data code be : Nat) (res : Option Nat) :
    OnlyLogs (if write then s else s.abortRead f) (s.violation f off write data code be res) := State.onlyLogs_report ..

/-- What the host sees of an aborted read (R424). -/
theorem State.abortRead_eq (s : State) (f : Nat) :
    s.abortRead f = { s with out := (if (s.fn f).aerMask = true then [] else [.aer f]) ++ .completerAbort f :: s.out } := by
  have hfn : FMap.get (fun _ => idleFn) s.fns f = s.fn f := rfl
  unfold State.abortRead
  dsimp only [State.emit]
  rw [hfn]
  split <;> rfl

/-! ### Accesses to BAR0 (R423, R542, R543) -/

theorem State.open_iff (s : State) : s.open_ = true ↔ s.boot.held = false ∧ s.boot.warm = false := by
  simp [State.open_]

theorem goodForm_of_aligned {a : Nat} (ha : a % 4 = 0) : goodForm a 1 15 = true := by
  simp [goodForm, ha]

section
variable {s : State} {f a : Nat}

theorem exec_bar0Read (ho : s.open_ = true) (ha : a % 4 = 0) (pads : Word) :
    exec (.bar0Read f a 1 15 pads) s = .next (s.readBar0 f a pads) := by
  obtain ⟨hheld, hwarm⟩ := s.open_iff.mp ho
  simp [exec, execBar0Read, hheld, hwarm, goodForm_of_aligned ha]

theorem exec_bar0Read_of_bad_form (ho : s.open_ = true) {n be : Nat} (hg : goodForm a n be = false) (pads : Word) :
    exec (.bar0Read f a n be pads) s = .next (s.violation f a false 0 2 be) := by
  obtain ⟨hheld, hwarm⟩ := s.open_iff.mp ho
  simp [exec, execBar0Read, hheld, hwarm, hg]

theorem exec_registerWrite (ho : s.open_ = true) (ha : a % 4 = 0) (v : Word) :
    exec (.registerWrite f a 1 15 v) s = .next (s.writeBar0 f a v) := by
  simp [exec, execRegisterWrite, State.hostWrite, ho, goodForm_of_aligned ha]

/-! ### Reads -/

theorem State.readBar0_of_faultlog (hl : inFaultlog a = true) (hf : f ≠ 0) (pads : Word) :
    s.readBar0 f a pads = s.violation f a false 0 := by
  simp [State.readBar0, hl, hf]

/-- An offset that names no register reads as 0 (R542). -/
theorem State.readBar0_of_none (hn : find a = none) (hl : inFaultlog a = false) (hm : inMsix a = false) (hs : inSegWindow a = false)
    (pads : Word) : s.readBar0 f a pads = s.emit (.readData f 0) := by
  simp [State.readBar0, hl, hm, hs, hn]

/-- A register of a unit that the part has not (R4). -/
theorem State.readBar0_of_absent {d : Desc} (hd : find a = some d) (hl : inFaultlog a = false ∨ f = 0) (hm : inMsix a = false)
    (hs : inSegWindow a = false) (hx : s.absentAt a = true) (pads : Word) :
    s.readBar0 f a pads = s.emit (.readData f (absentWord a)) := by
  have hnl : ¬ (inFaultlog a = true ∧ f ≠ 0) := by rcases hl with h | h <;> simp [h]
  unfold State.readBar0
  rw [if_neg hnl, if_neg (by simp [hm]), if_neg (by simp [hs]), hd]
  exact if_pos hx

/-- A register whose reads have no side effect. -/
theorem State.readBar0_of_word {d : Desc} (hd : find a = some d) (hl : inFaultlog a = false ∨ f = 0) (hm : inMsix a = false)
    (hs : inSegWindow a = false) (hx : s.absentAt a = false) (ht : a ≠ tickLo) (hg : a < 0x510000 ∨ 0x520000 ≤ a)
    (hu : a < 0x60F000 ∨ 0x60FA00 ≤ a) (pads : Word) :
    s.readBar0 f a pads = s.emit (.readData f (s.readWord f a pads)) := by
  have hnl : ¬ (inFaultlog a = true ∧ f ≠ 0) := by rcases hl with h | h <;> simp [h]
  unfold State.readBar0
  rw [if_neg hnl, if_neg (by simp [hm]), if_neg (by simp [hs]), hd]
  dsimp only
  rw [if_neg (by simp [hx]), if_neg ht]
  repeat rw [if_neg (by omega)]

/-- Every read that is no violation answers with the word of its register; those of R543 do something beside. -/
theorem State.readBar0_cases (s : State) (pads : Word) (hl : inFaultlog a = false ∨ f = 0) :
    (∃ w, s.readBar0 f a pads = s.emit (.readData f w)) ∨
    (inSegWindow a = true ∧ s.readBar0 f a pads = s.readW0 f ((a - 0x1000000) / 16)) ∨
    (a = tickLo ∧ s.readBar0 f a pads = (s.latchTime f).emit (.readData f (BitVec.ofNat 32 s.time.tick))) ∨
    (0x510000 ≤ a ∧ a < 0x520000) ∨
    (0x60F000 ≤ a ∧ a < 0x60FA00 ∧ (s.readBar0 f a pads = s.readSpiRx f ((a - 0x60F000) / 0x100) ∨
      s.readBar0 f a pads = s.readI2c f ((a - 0x60F400) / 0x100) ∨ s.readBar0 f a pads = s.readUartRx f ((a - 0x60F800) / 0x100))) := by
  have hnl : ¬ (inFaultlog a = true ∧ f ≠ 0) := by rcases hl with h | h <;> simp [h]
  unfold State.readBar0
  rw [if_neg hnl]
  dsimp only
  split
  · exact .inl ⟨_, rfl⟩
  split
  · next hs =>
    split
    · exact .inr (.inl ⟨hs, rfl⟩)
    · exact .inl ⟨_, rfl⟩
  split
  · exact .inl ⟨_, rfl⟩
  split
  · exact .inl ⟨_, rfl⟩
  split
  · next ht => exact .inr (.inr (.inl ⟨ht, rfl⟩))
  split
  · next hg => exact .inr (.inr (.inr (.inl ⟨hg.1, hg.2.1⟩)))
  split
  · next hu => exact .inr (.inr (.inr (.inr ⟨by omega, by omega, .inl rfl⟩)))
  split
  · next hu => exact .inr (.inr (.inr (.inr ⟨by omega, by omega, .inr (.inl rfl)⟩)))
  split
  · next hu => exact .inr (.inr (.inr (.inr ⟨by omega, by omega, .inr (.inr rfl)⟩)))
  · exact .inl ⟨_, rfl⟩

theorem State.readUartRx_out (s : State) (f u : Nat) : ∃ w, (s.readUartRx f u).out = .readData f w :: s.out := by
  unfold State.readUartRx
  split <;> exact ⟨_, rfl⟩

/-- R543: every read in good form answers with one word, and away from the clock's latches, CAPTURE, the serial units and the segment map
it does nothing else. -/
theorem State.readBar0_completes (s : State) (pads : Word) (hl : inFaultlog a = false ∨ f = 0) (hc : a < 0x510000 ∨ 0x520000 ≤ a) :
    ∃ w, (s.readBar0 f a pads).out = .readData f w :: s.out ∧
      (a ≠ tickLo → a < 0x60F000 ∨ (0x60FA00 ≤ a ∧ a < 0x1000000) → s.readBar0 f a pads = s.emit (.readData f w)) := by
  obtain ⟨w, h⟩ | ⟨hs, h⟩ | ⟨ht, h⟩ | hg | ⟨hlo, hhi, hu⟩ := s.readBar0_cases (f := f) pads hl
  · exact ⟨w, by rw [h]; rfl, fun _ _ => h⟩
  · have : 0x1000000 ≤ a := by simp [inSegWindow] at hs; exact hs.1
    rw [h]
    exact ⟨_, rfl, fun _ hr => by omega⟩
  · rw [h]
    exact ⟨_, rfl, fun hn => absurd ht hn⟩
  · omega
  · obtain ⟨w, hw⟩ : ∃ w, (s.readBar0 f a pads).out = .readData f w :: s.out := by
      obtain h | h | h := hu <;> rw [h]
      · exact ⟨_, rfl⟩
      · exact ⟨_, rfl⟩
      · exact s.readUartRx_out ..
    exact ⟨w, hw, fun _ hr => by omega⟩

/-- The blocks whose registers read as they stand: EVENTS, FAULTLOG and DSP. -/
def PlainBlock (a : Nat) : Prop :=
  (0x20000 ≤ a ∧ a < 0x30000) ∨ (0x30000 ≤ a ∧ a < 0x30900) ∨ (0x300000 ≤ a ∧ a < 0x400000)

theorem State.readWord_of_plainBlock (s : State) (pads : Word) (h : PlainBlock a) : s.readWord f a pads = s.reg a := by
  unfold PlainBlock at h
  have : a ≠ idcode ∧ a ≠ revision ∧ a ≠ caps ∧ a ≠ tickHi ∧ a ≠ subtickReg ∧ a ≠ trigLevel := by
    simp only [idcode, revision, caps, tickHi, subtickReg, trigLevel]
    omega
  unfold State.readWord
  dsimp only
  repeat rw [if_neg (by omega)]

theorem absentWord_of_plainBlock (h : PlainBlock a) (hx : s.absentAt a = true) : absentWord a = if a % 0x1000 = 0 then 7 else 0 := by
  unfold PlainBlock at h
  have hd : 0x300000 ≤ a ∧ a < 0x348000 := by
    refine Decidable.byContradiction fun hn => ?_
    unfold State.absentAt at hx
    repeat rw [if_neg (by omega)] at hx
    cases hx
  unfold absentWord
  by_cases hz : a % 0x1000 = 0
  · rw [if_pos (by omega), if_pos hz]
  · rw [if_neg (by omega), if_neg hz]

theorem State.readBar0_of_plainBlock {d : Desc} (hd : find a = some d) (h : PlainBlock a) (hl : inFaultlog a = false ∨ f = 0) (pads : Word) :
    s.readBar0 f a pads = s.emit (.readData f (if s.absentAt a = false then s.reg a else if a % 0x1000 = 0 then 7 else 0)) := by
  have hb := h
  unfold PlainBlock at hb
  have hm : inMsix a = false := by simp [inMsix]; omega
  have hs : inSegWindow a = false := by simp [inSegWindow]; omega
  cases hx : s.absentAt a with
  | true => rw [s.readBar0_of_absent hd hl hm hs hx, absentWord_of_plainBlock h hx]; rfl
  | false =>
    rw [s.readBar0_of_word hd hl hm hs hx (by unfold tickLo; omega) (by omega) (by omega), s.readWord_of_plainBlock pads h]
    rfl

/-! ### Writes -/

/-- An offset outside the FAULTLOG block, the MSI-X structures and the segment-map window. -/
def RegisterOffset (a : Nat) : Prop := a < 0x1C000 ∨ (0x1E000 ≤ a ∧ a < 0x30000) ∨ (0x30900 ≤ a ∧ a < 0x1000000)

theorem State.writeBar0_of_none (hn : find a = none) (hl : inFaultlog a = false) (hm : inMsix a = false) (hs : inSegWindow a = false)
    (v : Word) : s.writeBar0 f a v = s := by
  simp [State.writeBar0, hl, hm, hs, hn]

/-- A write that no rule on its offset catches goes by the fields of its register: to its block, or to the rule of RO registers. -/
theorem State.writeBar0_of_some {d : Desc} (hd : find a = some d) (ha : RegisterOffset a) (hx : s.absentAt a = false) (v : Word) :
    s.writeBar0 f a v = if d.writable then s.writeBlock f a d v else s.writeReadOnly f a v := by
  unfold RegisterOffset at ha
  have hl : inFaultlog a = false := by simp [inFaultlog]; omega
  have hm : inMsix a = false := by simp [inMsix]; omega
  have hs : inSegWindow a = false := by simp [inSegWindow]; omega
  simp [State.writeBar0, hl, hm, hs, hd, hx]

theorem State.writeBlock_events (h : 0x20000 ≤ a ∧ a < 0x30000) (d : Desc) (v : Word) : s.writeBlock f a d v = s.writeEvents f a d v := by
  unfold State.writeBlock
  repeat rw [if_neg (by omega)]
  exact if_pos h.2

theorem State.writeBlock_time (h : 0x40000 ≤ a ∧ a < 0x100000) (d : Desc) (v : Word) : s.writeBlock f a d v = s.writeTime f a d v := by
  unfold State.writeBlock
  repeat rw [if_neg (by omega)]
  exact if_pos h.2

theorem State.writeBlock_quad (h : 0x100000 ≤ a ∧ a < 0x200000) (d : Desc) (v : Word) :
    s.writeBlock f a d v = s.writeQuad f ((a - 0x100000) / 0x10000) ((a - 0x100000) % 0x10000) d v := by
  unfold State.writeBlock
  repeat rw [if_neg (by omega)]
  exact if_pos h.2

theorem State.writeBlock_dsp (h : 0x300000 ≤ a ∧ a < 0x400000) (d : Desc) (v : Word) :
    s.writeBlock f a d v = s.allowed (s.ownCore ((a - 0x300000) / 0x1000) == f + 1) f a v (s.writeReg a d v) := by
  unfold State.writeBlock
  repeat rw [if_neg (by omega)]
  exact if_pos h.2

theorem State.allowed_of_true {b : Bool} (h : b = true) (v : Word) (t : State) : s.allowed b f a v t = t := if_pos h

/-- A write of a register of a channel, four bytes each from its place in the quad (R84). -/
theorem State.writeBlock_channel {q k x : Nat} (hq : q < 16) (hk : k < 4) (hx : x < 8) (d : Desc) (v : Word) :
    s.writeBlock f (0x100000 + 0x10000 * q + 0x20 * k + 4 * x) d v = s.writeChannel f q k x v := by
  have e1 : (0x100000 + 0x10000 * q + 0x20 * k + 4 * x - 0x100000) / 0x10000 = q := by omega
  have e2 : (0x100000 + 0x10000 * q + 0x20 * k + 4 * x - 0x100000) % 0x10000 = 0x20 * k + 4 * x := by omega
  have e3 : (0x20 * k + 4 * x) / 0x20 = k := by omega
  have e4 : (0x20 * k + 4 * x) % 0x20 / 4 = x := by omega
  rw [State.writeBlock_quad (by omega), e1, e2]
  unfold State.writeQuad State.writeQuadAnalogue
  dsimp only
  rw [if_pos (by omega), if_pos (by omega), e3, e4]

end

/-! ### The registers that the statement names -/

theorem Part.quads_le (p : Part) : p.quads ≤ 16 := by cases p <;> decide

theorem Part.cores_le (p : Part) : p.cores ≤ 72 := by cases p <;> decide

theorem find_evEnable : ∀ f < 8, ∀ i < 27, find (evEnable f i) = some evEnableDesc := by decide +kernel

theorem find_chOffset : ∀ q < 16, ∀ k < 4, find (chOffset q k) = some chOffsetDesc := by decide +kernel

theorem find_chStatus : ∀ q < 16, ∀ k < 4, find (chStatus q k) = some chStatusDesc := by decide +kernel

theorem find_dspStatus : ∀ n < 72, find (dspStatus n) = some dspStatusDesc := by decide +kernel

section
variable {s : State} {f : Nat}

theorem State.writeBar0_evEnable {i : Nat} (hf : f < 8) (hi : i < 27) (v : Word) :
    s.writeBar0 f (evEnable f i) v = s.setReg (evEnable f i) v := by
  have ha : evEnable f i = 0x20000 + 0x1000 * f + 4 * i := rfl
  have hx : s.absentAt (evEnable f i) = false := by
    unfold State.absentAt
    repeat rw [if_neg (by omega)]
  rw [State.writeBar0_of_some (find_evEnable f hf i hi) (by unfold RegisterOffset; omega) hx, if_pos (by decide),
    State.writeBlock_events (by omega), State.writeEvents, State.allowed_of_true (by simp; omega), if_neg (by omega),
    State.writeReg_rw (by decide) (by decide) (by decide)]

theorem State.writeBar0_syncLoadLo (v : Word) : s.writeBar0 0 syncLoadLo v = s.setReg syncLoadLo v := by
  have hd : find syncLoadLo = some syncLoadLoDesc := by decide
  have hx : s.absentAt syncLoadLo = false := rfl
  rw [State.writeBar0_of_some hd (by unfold RegisterOffset syncLoadLo; omega) hx, if_pos (by decide),
    State.writeBlock_time (by unfold syncLoadLo; omega), State.writeTime, if_neg (by decide), if_neg (by decide), if_neg (by decide),
    State.allowed_of_true (show (0 == 0) = true from rfl), State.writeReg_rw (by decide) (by decide) (by decide)]

theorem State.present_channel {q : Nat} (hq : q < s.part.quads) {a : Nat} (ha : 0x100000 + 0x10000 * q ≤ a)
    (hb : a < 0x110000 + 0x10000 * q) : s.absentAt a = false := by
  have h16 := s.part.quads_le
  unfold State.absentAt
  rw [if_neg (by omega), if_pos (by omega)]
  simp
  omega

theorem State.writeBar0_chOffset {q k : Nat} (hq : q < s.part.quads) (hk : k < 4) (ho : s.ownChan (4 * q + k) = f + 1) (v : Word) :
    s.writeBar0 f (chOffset q k) v = s.writeReg (chOffset q k) chOffsetDesc v := by
  have h16 : q < 16 := Nat.lt_of_lt_of_le hq s.part.quads_le
  have ha : chOffset q k = 0x100000 + 0x10000 * q + 0x20 * k + 4 * 1 := by unfold chOffset; omega
  rw [State.writeBar0_of_some (find_chOffset q h16 k hk) (by unfold RegisterOffset; omega)
    (State.present_channel hq (by omega) (by omega)), if_pos (by decide), ha, State.writeBlock_channel h16 hk (by decide), ← ha]
  exact State.allowed_of_true (by simp [ho]) ..

theorem State.writeBar0_chStatus {q k : Nat} (hq : q < s.part.quads) (hk : k < 4) (ho : s.ownChan (4 * q + k) = f + 1) (v : Word) :
    s.writeBar0 f (chStatus q k) v = s.writeReg (chStatus q k) chStatusDesc v := by
  have h16 : q < 16 := Nat.lt_of_lt_of_le hq s.part.quads_le
  have ha : chStatus q k = 0x100000 + 0x10000 * q + 0x20 * k + 4 * 2 := by unfold chStatus; omega
  rw [State.writeBar0_of_some (find_chStatus q h16 k hk) (by unfold RegisterOffset; omega)
    (State.present_channel hq (by omega) (by omega)), if_pos (by decide), ha, State.writeBlock_channel h16 hk (by decide), ← ha]
  exact State.allowed_of_true (by simp [ho]) ..

theorem State.writeBar0_dspStatus {n : Nat} (hn : n < s.part.cores) (ho : s.ownCore n = f + 1) (v : Word) :
    s.writeBar0 f (dspStatus n) v = s.writeReg (dspStatus n) dspStatusDesc v := by
  have h72 : n < 72 := Nat.lt_of_lt_of_le hn s.part.cores_le
  have ha : dspStatus n = 0x300000 + 0x1000 * n + 4 := by unfold dspStatus; omega
  have hu : (dspStatus n - 0x300000) / 0x1000 = n := by omega
  have hx : s.absentAt (dspStatus n) = false := by
    unfold State.absentAt
    rw [if_neg (by omega), if_neg (by omega), if_neg (by omega), if_pos (by omega), hu]
    simpa using hn
  rw [State.writeBar0_of_some (find_dspStatus n h72) (by unfold RegisterOffset; omega) hx, if_pos (by decide),
    State.writeBlock_dsp (by omega), hu, State.allowed_of_true (by simp [ho])]

/-- The identity registers are read only, and a write of one is no violation (R16, R552). -/
theorem State.writeBar0_identity {a : Nat} (ha : a ∈ [idcode, revision, caps]) (v : Word) : s.writeBar0 f a v = s := by
  simp only [List.mem_cons, List.not_mem_nil, or_false] at ha
  obtain rfl | rfl | rfl := ha
  · rw [State.writeBar0_of_some (d := idcodeDesc) (by decide) (by unfold RegisterOffset idcode; omega) rfl]; rfl
  · rw [State.writeBar0_of_some (d := revisionDesc) (by decide) (by unfold RegisterOffset revision; omega) rfl]; rfl
  · rw [State.writeBar0_of_some (d := capsDesc) (by decide) (by unfold RegisterOffset caps; omega) rfl]; rfl

end

/-- A read of the identity (R9, R552). -/
theorem State.readBar0_identity (s : State) (f : Nat) (pads : Word) {p : Nat × Nat}
    (hp : p ∈ [(idcode, s.part.idcode), (revision, s.part.revision), (caps, s.part.caps)]) :
    s.readBar0 f p.1 pads = s.emit (.readData f (BitVec.ofNat 32 p.2)) := by
  have word {a : Nat} {d : Desc} (hd : find a = some d) (ha : a < 0x10) :
      s.readBar0 f a pads = s.emit (.readData f (s.readWord f a pads)) := by
    have hx : s.absentAt a = false := by
      unfold State.absentAt
      repeat rw [if_neg (by omega)]
    exact State.readBar0_of_word hd (.inl (by simp [inFaultlog]; omega)) (by simp [inMsix]; omega) (by simp [inSegWindow]; omega) hx
      (by unfold tickLo; omega) (by omega) (by omega) pads
  simp only [List.mem_cons, List.not_mem_nil, or_false] at hp
  obtain rfl | rfl | rfl := hp
  · exact word (show find idcode = some idcodeDesc by decide) (show idcode < 0x10 by decide)
  · exact word (show find revision = some revisionDesc by decide) (show revision < 0x10 by decide)
  · exact word (show find caps = some capsDesc by decide) (show caps < 0x10 by decide)

/-- A read of TICK_LO takes the latches of the reader (R36). -/
theorem State.readBar0_tickLo (s : State) (f : Nat) (pads : Word) :
    s.readBar0 f tickLo pads = (s.latchTime f).emit (.readData f (BitVec.ofNat 32 s.time.tick)) := by
  have hd : find tickLo = some tickLoDesc := by decide
  unfold State.readBar0
  rw [if_neg (by simp [inFaultlog, tickLo]), if_neg (by decide), if_neg (by decide), hd]
  rfl

/-! ### What the writes of the statement leave -/

theorem State.fld_bit (s : State) (a k : Nat) : s.fld a ⟨k, k⟩ = bitOf (s.reg a).toNat k := by
  rw [State.fld, Fld.get_bit, bitOf_toNat]

/-- CH_OFFSET reads at once as written, and what is in force stays (R11). -/
theorem State.writeReg_chOffset (s : State) (q k : Nat) (v : Word) :
    let t := s.writeReg (chOffset q k) chOffsetDesc v
    t.fld (chOffset q k) chOffset_OFS = chOffset_OFS.get v ∧ t.cur (chOffset q k) chOffset_OFS = s.cur (chOffset q k) chOffset_OFS ∧
      Sets { s with rwtOld := t.rwtOld } [(chOffset q k, t.reg (chOffset q k))] t := by
  intro t
  have hrw : chOffsetDesc.bits .rw = 0#32 := by decide
  have hrwt : chOffsetDesc.bits .rwt = 0xFFF#32 := by decide
  have hw1c : chOffsetDesc.bits .w1c = 0#32 := by decide
  have he : s.effective (chOffset q k) chOffsetDesc v = v := State.effective_of_no_w1c hw1c ..
  have ht : t = s.setTimed (chOffset q k) (chOffsetDesc.write (s.reg (chOffset q k)) v) := by
    rw [← he]; exact State.writeReg_of_timed (by decide) ..
  have hw : t.reg (chOffset q k) = chOffsetDesc.write (s.reg (chOffset q k)) v := by
    rw [ht, State.reg_setTimed, if_pos rfl]
  refine ⟨?_, ?_, ?_⟩
  · have hbits : ∀ i < 12, ((0xFFF#32 : Word).getLsbD (0 + i)) = true := by decide
    rw [State.fld, hw]
    refine Fld.get_congr fun i hi => ?_
    have hset : (0xFFF#32 : Word).getLsbD (chOffset_OFS.lo + i) = true := hbits i hi
    simp only [Desc.write, hrw, hrwt, BitVec.zero_or, BitVec.getLsbD_or, BitVec.getLsbD_and, BitVec.getLsbD_not, hset]
    simp
  · rw [State.cur, ht, State.setTimed_cur]; rfl
  · rw [hw, ht]; exact s.sets_setTimed _ _

/-- A write of a register that has W1C bits and no others to write: which bits it clears (R12). -/
theorem State.writeReg_w1c {d : Desc} (hrw : d.bits .rw = 0#32) (hrwt : d.bits .rwt = 0#32) (ht : d.timed = false) (s : State) (a : Nat)
    (v : Word) : let t := s.writeReg a d v
    Sets s [(a, t.reg a)] t ∧ ∀ k, bitOf (t.reg a).toNat k =
      if (d.bits .w1c).getLsbD k = true ∧ bitOf v.toNat k = 1 ∧ bitOf (s.justSet a).toNat k = 0 then 0 else bitOf (s.reg a).toNat k := by
  intro t
  have hw : t = s.setReg a (d.write (s.reg a) (s.effective a d v)) := State.writeReg_of_not_timed ht ..
  have hr : t.reg a = d.write (s.reg a) (s.effective a d v) := by rw [hw, State.reg_setReg_same]
  refine ⟨by rw [hr, hw]; exact s.sets_setReg _ _, fun k => ?_⟩
  rw [hr]
  simp only [bitOf_toNat, Desc.getLsbD_write_effective hrw hrwt, Bool.toNat_eq_one, Bool.toNat_eq_zero]
  split
  · next hclear => simp [hclear]
  · next hstay =>
    have hkeep : (!((d.bits .w1c).getLsbD k && v.getLsbD k && !(s.justSet a).getLsbD k)) = true := by
      rw [Bool.not_eq_true', ← Bool.not_eq_true]
      simpa using hstay
    rw [hkeep, Bool.and_true]

/-- CH_STATUS: REFUSED and OVLD are W1C, CAL_HOLD and OVLD_NOW are read only. -/
theorem State.writeReg_chStatus (s : State) (a : Nat) (v : Word) :
    let t := s.writeReg a chStatusDesc v
    (∀ F ∈ [chStatus_REFUSED, chStatus_OVLD], t.fld a F = if F.get v = 1 ∧ F.get (s.justSet a) = 0 then 0 else s.fld a F) ∧
    (∀ F ∈ [chStatus_CAL_HOLD, chStatus_OVLD_NOW], t.fld a F = s.fld a F) ∧ Sets s [(a, t.reg a)] t := by
  intro t
  have ⟨hsets, hbit⟩ := State.writeReg_w1c (d := chStatusDesc) (by decide) (by decide) (by decide) s a v
  have clears (k : Nat) (hk : (chStatusDesc.bits .w1c).getLsbD k = true) :
      t.fld a ⟨k, k⟩ = if Fld.get ⟨k, k⟩ v = 1 ∧ Fld.get ⟨k, k⟩ (s.justSet a) = 0 then 0 else s.fld a ⟨k, k⟩ := by
    rw [State.fld_bit, State.fld_bit, Fld.get_bit, Fld.get_bit, ← bitOf_toNat, ← bitOf_toNat, hbit]
    simp only [hk, true_and]
  have stays (k : Nat) (hk : (chStatusDesc.bits .w1c).getLsbD k = false) : t.fld a ⟨k, k⟩ = s.fld a ⟨k, k⟩ := by
    rw [State.fld_bit, State.fld_bit, hbit, hk]
    exact if_neg (by simp)
  refine ⟨fun F hF => ?_, fun F hF => ?_, hsets⟩ <;> simp only [List.mem_cons, List.not_mem_nil, or_false] at hF <;>
    obtain rfl | rfl := hF
  · exact clears 3 (by decide)
  · exact clears 0 (by decide)
  · exact stays 2 (by decide)
  · exact stays 1 (by decide)

/-- STATUS of a core: bits 0 to 5 are W1C, CATCHUP is read only. -/
theorem State.writeReg_dspStatus (s : State) (a : Nat) (v : Word) :
    let t := s.writeReg a dspStatusDesc v
    (∀ i, i < 6 → bitOf (t.reg a).toNat i = if bitOf v.toNat i = 1 ∧ bitOf (s.justSet a).toNat i = 0 then 0 else bitOf (s.reg a).toNat i) ∧
    t.fld a dspStatus_CATCHUP = s.fld a dspStatus_CATCHUP ∧ Sets s [(a, t.reg a)] t := by
  intro t
  have ⟨hsets, hbit⟩ := State.writeReg_w1c (d := dspStatusDesc) (by decide) (by decide) (by decide) s a v
  have hw1c : ∀ i < 6, (dspStatusDesc.bits .w1c).getLsbD i = true := by decide
  refine ⟨fun i hi => ?_, ?_, hsets⟩
  · rw [hbit]
    simp only [hw1c i hi, true_and]
  · rw [dspStatus_CATCHUP, State.fld_bit, State.fld_bit, hbit]
    exact if_neg fun h => absurd h.1 (by decide)

/-- A read that is a violation: the host sees an abort, and all else that changes is the log's and the events'. -/
theorem State.violation_of_read (s : State) (f off code be : Nat) :
    let t := s.violation f off false 0 code be
    t.out = (if (s.fn f).aerMask = true then [] else [.aer f]) ++ .completerAbort f :: s.out ∧
    (∀ o, o < 0x30000 ∨ 0x30900 ≤ o → t.reg o = s.reg o) ∧
    Same s { t with regs := s.regs, events := s.events, out := s.out, logFullSaid := s.logFullSaid } := by
  intro t
  have h : OnlyLogs (s.abortRead f) t := State.onlyLogs_violation (write := false) ..
  rw [State.abortRead_eq] at h
  have hsame := congrArg (fun u : State => { u with out := s.out }) h.2.eq
  exact ⟨h.out, h.1, hsame⟩

/-! ### The statement -/

theorem aligned_identity : ∀ a ∈ [idcode, revision, caps], a % 4 = 0 := by decide

/-- Settles O55: each clause is a read or a write in good form of one kind of register, by the lemma that says what it does, or the
violation that an access in another form is. -/
theorem registerAccesses : Obligations.RegisterAccesses := by
  unfold Obligations.RegisterAccesses
  intro s f hf ho aborted
  refine ⟨?read, ?faultlog, ?identity, ?plain, ?tickLo, ?unmapped, ?enable, ?syncLoad, ?channel, ?dsp, ?readOnly, ?badForm⟩
  case read =>
    intro a pads ha hl hc
    obtain ⟨w, hout, hrest⟩ := s.readBar0_completes pads hl hc
    exact ⟨_, w, exec_bar0Read ho ha pads, hout, hrest⟩
  case faultlog =>
    intro a pads ha hl hf0
    rw [exec_bar0Read ho ha, State.readBar0_of_faultlog hl hf0]
    exact ⟨_, rfl, (s.violation_of_read ..).1⟩
  case identity =>
    intro p hp pads
    have ha : p.1 % 4 = 0 := aligned_identity p.1 (by simpa using List.mem_map_of_mem (f := Prod.fst) hp)
    rw [exec_bar0Read ho ha, State.readBar0_identity _ _ _ hp]; rfl
  case plain =>
    intro a d ha hd hr pads
    simp only [inFaultlog, decide_eq_true_eq] at hr
    have hl : inFaultlog a = false ∨ f = 0 := by
      simp only [inFaultlog, decide_eq_false_iff_not]; omega
    rw [exec_bar0Read ho ha, State.readBar0_of_plainBlock hd (by unfold PlainBlock; omega) hl]; rfl
  case tickLo =>
    intro pads
    rw [exec_bar0Read ho (by decide), State.readBar0_tickLo]
    exact ⟨_, rfl, rfl, FMap.get_set_same .., FMap.get_set_same .., rfl⟩
  case unmapped =>
    intro a ha hn hl hm hs
    refine ⟨fun pads => ?_, fun v => ?_⟩
    · rw [exec_bar0Read ho ha, State.readBar0_of_none hn hl hm hs]; rfl
    · rw [exec_registerWrite ho ha, State.writeBar0_of_none hn hl hm hs]
  case enable =>
    intro i v hi
    rw [exec_registerWrite ho (by unfold evEnable; omega), State.writeBar0_evEnable hf hi]
    exact ⟨_, rfl, s.sets_setReg _ _⟩
  case syncLoad =>
    intro v
    rw [exec_registerWrite ho (by decide), State.writeBar0_syncLoadLo]
    exact ⟨_, rfl, s.sets_setReg _ _⟩
  case channel =>
    intro q k v hq hk hown
    rw [exec_registerWrite ho (by unfold chOffset; omega), State.writeBar0_chOffset hq hk hown,
      exec_registerWrite ho (by unfold chStatus; omega), State.writeBar0_chStatus hq hk hown]
    exact ⟨⟨_, rfl, s.writeReg_chOffset q k v⟩, ⟨_, rfl, s.writeReg_chStatus _ v⟩⟩
  case dsp =>
    intro n v hn hown
    rw [exec_registerWrite ho (by unfold dspStatus; omega), State.writeBar0_dspStatus hn hown]
    exact ⟨_, rfl, s.writeReg_dspStatus _ v⟩
  case readOnly =>
    intro a ha v
    rw [exec_registerWrite ho (aligned_identity a ha), State.writeBar0_identity ha]
  case badForm =>
    intro a n be pads hg
    rw [exec_bar0Read_of_bad_form ho hg]
    exact ⟨_, rfl, s.violation_of_read ..⟩

/-! ### A stray NI number

`State` leaves the source NI of a placed stream any number, and `Obligations.PinCommands` speaks of every state. NIs are numbered 0 to 255
(R365); the error registers that the number 0xFF07 would have fall on PIN_CFG of pins 25 to 28. -/

/-- A stream out of output port 0 of sagger 1 whose source is given as NI 0xFF07, where no route table is. -/
def strayStream : PlacedEdge where
  ed := { frm := 0, fromPort := 16, analog := false, to_ := 0, toPort := 0, words := 0 }
  words := 0
  units := 0
  wire := 0
  src := 0xFF07
  dst := 0
  hops := []
  entry := 0
  num := 0
  tag := 0
  since := 0
  stopped := false

/-- The graph of that stream, running, with one element, placed in sagger 1. -/
def strayGraph : Graph where
  fn := 0
  handle := 0
  phase := .running
  elems := [{ el := { id := 0, kind := 0, pin := 0, params := [] }, unit := 0x6001, since := 0, flags := 0, stream := 0, movedAt := none }]
  edges := [strayStream]
  gen := 0
  genAt := 0
  changeTick := 0
  decided := 0
  start := 0
  change := none
  stopAt := none
  ends := 0

/-- Sagger 1 is fired, with clock net 0 on EXT, which pin 28 feeds in fabric clock mode; the next edge of the net is that of its TICK pulse,
which closes the open packet of the stray stream. Pin 28 is to interrupt on a rising edge. -/
def strayState : State :=
  { ((State.reset.setReg (clksel 1) 0x7776).setFld (sagState 1) sagState_STATE 3).setFld (pinCfg 0 28) pinCfg_IRQ 1 with
    sags := [(1, { idleSagger with released := [2], held := [0], late := [(0, 1)], pkt := [(packetKey 0 strayStream, [0])] })]
    wheel := { State.reset.wheel with graphs := [strayGraph] }
    pins := { State.reset.pins with alt := [(28, 11)] }
    boot := { State.reset.boot with held := false } }

theorem strayState_awaits_rise :
    strayState.pinLive 28 = true ∧ strayState.padCfg 28 pinCfg_IRQ = 1 ∧ strayState.pinLevel 28 = false := by decide +kernel

/-- The rise clocks the net, the packet of the stray stream is refused, and POINT of the refusal is recorded over PIN_CFG of pin 28: the pin
no longer interrupts. -/
theorem strayState_rise_sets_no_irq : niErrPoint 0xFF07 = pinCfg 0 28 ∧ (strayState.acceptLevel 28 true).padCfg 28 pinCfg_IRQ = 0 ∧
    bitOf ((strayState.acceptLevel 28 true).reg (irqStat (28 / 32))).toNat (28 % 32) = 0 := by decide +kernel

theorem exec_debounceAccept {s : State} {p : Nat} (hp : p < 448) (hl : s.pinLive p = true) (l : Bool) :
    exec (.debounceAccept p l) s = .next (s.acceptLevel p l) := by
  simp [exec, execDebounceAccept, State.onlyIf, hp, hl]

/-- Refutes O41: in `strayState` a rise accepted on pin 28, which is set to interrupt on one, sets no bit of IRQ_STAT. The state names an NI
that the device has not; the rest of the statement is not touched by it. -/
theorem not_pinCommands : ¬ Obligations.PinCommands := by
  unfold Obligations.PinCommands
  intro h
  obtain ⟨hlive, hirq, hlow⟩ := strayState_awaits_rise
  obtain ⟨-, -, hzero⟩ := strayState_rise_sets_no_irq
  obtain ⟨-, haccept, -⟩ := h strayState
  obtain ⟨t, hnext, -, hset, -⟩ := haccept 28 true 1 (by decide) hlive hirq.symm
  rw [exec_debounceAccept (by decide) hlive] at hnext
  have hone := (hset (by simp [hlow]) (.inl ⟨rfl, rfl⟩)).1
  rw [← Host.Outcome.next.inj hnext, hzero] at hone
  exact absurd hone (by decide)

end Sys2Proof.Machine
end

section
/-! SUPPORT. What stands in a word after a field of it is written, and the units and sources that a part has. -/

namespace Sys2Proof.Machine

open Regs

/-! ### Fields put into words (R545) -/

theorem Fld.getLsbD_mask (F : Fld) {i : Nat} (hi : i < 32) : F.mask.getLsbD i = decide (F.lo ≤ i ∧ i - F.lo < F.width) := by
  rw [Fld.mask, BitVec.getLsbD_ofNat, Nat.testBit_mul_two_pow, Nat.testBit_two_pow_sub_one]
  simp [hi]

/-- Bit by bit: the bits of the field come from the value, all others stay. -/
theorem Fld.getLsbD_put (F : Fld) (w : Word) (x : Nat) {i : Nat} (hi : i < 32) :
    (F.put w x).getLsbD i = if F.lo ≤ i ∧ i - F.lo < F.width then x.testBit (i - F.lo) else w.getLsbD i := by
  have hval : (BitVec.ofNat 32 (x % 2 ^ F.width * 2 ^ F.lo)).getLsbD i
      = (decide (F.lo ≤ i ∧ i - F.lo < F.width) && x.testBit (i - F.lo)) := by
    rw [BitVec.getLsbD_ofNat, Nat.testBit_mul_two_pow, Nat.testBit_mod_two_pow]
    simp [hi, Bool.and_assoc]
  rw [Fld.put, BitVec.getLsbD_or, BitVec.getLsbD_and, BitVec.getLsbD_not, hval, F.getLsbD_mask hi]
  by_cases hF : F.lo ≤ i ∧ i - F.lo < F.width
  · simp [hF, hi]
  · simp [hF, hi]

theorem Fld.get_put_apart {F G : Fld} (h : F.lo + F.width ≤ G.lo ∨ G.lo + G.width ≤ F.lo) (w : Word) (x : Nat) :
    F.get (G.put w x) = F.get w := by
  refine Fld.get_congr fun i hi => ?_
  by_cases hb : F.lo + i < 32
  · rw [Fld.getLsbD_put _ _ _ hb, if_neg (by omega)]
  · rw [BitVec.getLsbD_of_ge _ _ (by omega), BitVec.getLsbD_of_ge _ _ (by omega)]

theorem Fld.get_put_same {F : Fld} (h : F.lo + F.width ≤ 32) (w : Word) (x : Nat) : F.get (F.put w x) = x % 2 ^ F.width := by
  refine Nat.eq_of_testBit_eq fun i => ?_
  rw [Fld.get, Nat.testBit_mod_two_pow, Nat.testBit_mod_two_pow, Nat.testBit_div_two_pow, BitVec.testBit_toNat]
  by_cases hi : i < F.width
  · rw [Fld.getLsbD_put _ _ _ (by omega), if_pos (by omega), Nat.add_sub_cancel]
  · simp [hi]

theorem Fld.put_comm {F G : Fld} (h : F.lo + F.width ≤ G.lo ∨ G.lo + G.width ≤ F.lo) (w : Word) (x y : Nat) :
    F.put (G.put w y) x = G.put (F.put w x) y := by
  refine BitVec.eq_of_getLsbD_eq fun i hi => ?_
  simp only [Fld.getLsbD_put _ _ _ hi]
  by_cases hF : F.lo ≤ i ∧ i - F.lo < F.width
  · rw [if_pos hF, if_neg (by omega), if_pos hF]
  · rw [if_neg hF, if_neg hF]

/-- A field put back as it is. -/
theorem Fld.put_get (F : Fld) (w : Word) : F.put w (F.get w) = w := by
  refine BitVec.eq_of_getLsbD_eq fun i hi => ?_
  rw [Fld.getLsbD_put _ _ _ hi]
  split
  · next h =>
    rw [Fld.get, Nat.testBit_mod_two_pow, Nat.testBit_div_two_pow, BitVec.testBit_toNat, Nat.sub_add_cancel h.1]
    simp [h.2]
  · rfl

/-- A field of one bit put back as it is. -/
theorem Fld.put_flag_bit (s : State) (a k : Nat) : Fld.put ⟨k, k⟩ (s.reg a) (flag (s.bit a ⟨k, k⟩)) = s.reg a := by
  have hlt : Fld.get ⟨k, k⟩ (s.reg a) < 2 := by rw [Fld.get_bit]; exact Bool.toNat_lt _
  have hflag : flag (s.bit a ⟨k, k⟩) = Fld.get ⟨k, k⟩ (s.reg a) := by
    simp only [State.bit, State.fld, flag, beq_iff_eq]
    split <;> omega
  rw [hflag, Fld.put_get]

/-! ### Units that are present -/

theorem State.hasQuad_eq_true {s : State} {q : Nat} (hq : q < s.part.quads) : s.hasQuad q = true := decide_eq_true hq

/-- The source of a quad's events is there where the quad is (R454). -/
theorem sourcePresent_quad {p : Part} {q : Nat} (hq : q < p.quads) : sourcePresent p (728 + q) = true := by
  have h16 := p.quads_le
  unfold sourcePresent
  repeat rw [if_neg (by omega)]
  rw [if_pos (by omega), Nat.add_sub_cancel_left]
  exact decide_eq_true hq

/-- The source of a channel's path is there where the quad is (R454). -/
theorem sourcePresent_channel {p : Part} {q k : Nat} (hq : q < p.quads) (hk : k < 4) :
    sourcePresent p (448 + 2 * (4 * q + k)) = true := by
  have h16 := p.quads_le
  have hdiv : (448 + 2 * (4 * q + k) - 448) / 8 = q := by omega
  unfold sourcePresent
  rw [if_neg (by omega), if_pos (by omega), hdiv]
  exact decide_eq_true hq

theorem State.hostWrite_of_open {s : State} (ho : s.open_ = true) (t : State) : s.hostWrite t = .next t := by
  rw [State.hostWrite, if_pos ho]

end Sys2Proof.Machine
end

section
/-! SUPPORT. The analogue channels and blocks: overload, comparators, settling windows and integrators (R57–R67). -/

namespace Sys2Proof.Machine

open Regs

/-! ### Overload (R60) -/

section
variable (s : State) (q k c : Nat)

theorem State.overSpans_setOver (l : List (Nat × Option Nat)) (j : Nat) :
    (s.setOver c l).overSpans j = if j = c then l else s.overSpans j := FMap.get_set ..

theorem State.openOver_eq : s.openOver c = { s with ana := { s.ana with ovldSpans := (s.openOver c).ana.ovldSpans } } := by
  unfold State.openOver
  dsimp only
  split <;> rfl

theorem State.overSpans_openOver_other {j : Nat} (hj : j ≠ c) : (s.openOver c).overSpans j = s.overSpans j := by
  unfold State.openOver
  dsimp only
  split
  · rfl
  · rw [State.overSpans_setOver, if_neg hj]

/-- From a trip on every sample carries C: by the span that it begins, or by one that has begun and not ended. -/
theorem State.overloadAt_openOver (h : ∀ x ∈ s.overSpans (4 * q + k), x.1 ≤ s.time.now) {at_ : Nat} (hat : s.time.now ≤ at_) :
    (s.openOver (4 * q + k)).overloadAt q k at_ = true := by
  unfold State.openOver State.overloadAt
  dsimp only
  split
  · next hopen =>
    obtain ⟨x, hx, hnone⟩ := List.any_eq_true.mp hopen
    rw [Option.isNone_iff_eq_none] at hnone
    refine List.any_eq_true.mpr ⟨x, hx, ?_⟩
    have := h x hx
    simp [hnone]; omega
  · rw [State.overSpans_setOver, if_pos rfl]
    simp [hat]

theorem State.overSpans_closeOver_other {j : Nat} (hj : j ≠ c) : (s.closeOver c).overSpans j = s.overSpans j := by
  rw [State.closeOver, State.overSpans_setOver, if_neg hj]

/-- Samples of the next 8 ns carry C as they did. -/
theorem State.overloadAt_closeOver_before {at_ : Nat} (hat : at_ < s.time.now + 16) :
    (s.closeOver (4 * q + k)).overloadAt q k at_ = s.overloadAt q k at_ := by
  rw [State.overloadAt, State.closeOver, State.overSpans_setOver, if_pos rfl, List.any_map]
  unfold State.overloadAt
  congr 1
  funext ⟨a, e⟩
  cases e with
  | none => simp [hat]
  | some e => rfl

/-- After 8 ns no sample carries C. -/
theorem State.overloadAt_closeOver_after (h : ∀ x ∈ s.overSpans (4 * q + k), ∀ e, x.2 = some e → e ≤ s.time.now + 16) {at_ : Nat}
    (hat : s.time.now + 16 ≤ at_) : (s.closeOver (4 * q + k)).overloadAt q k at_ = false := by
  rw [State.overloadAt, State.closeOver, State.overSpans_setOver, if_pos rfl, List.any_map, List.any_eq_false]
  rintro ⟨a, e⟩ hx
  cases e with
  | none => simp; omega
  | some e =>
    have := h _ hx e rfl
    simp; omega

/-- A trip as OVERLOAD_TRIP makes it, before its event. -/
def State.tripped : State :=
  ((s.setFld (chStatus q k) chStatus_OVLD_NOW 1).setFlag (chStatus q k) chStatus_OVLD).openOver (4 * q + k)

theorem State.sets_tripped : Sets { s with ana := { s.ana with ovldSpans := (s.tripped q k).ana.ovldSpans } }
    [(chStatus q k, chStatus_OVLD.put (chStatus_OVLD_NOW.put (s.reg (chStatus q k)) 1) 1)] (s.tripped q k) := by
  have hone : 2 ^ chStatus_OVLD.width - 1 = 1 := by decide
  have hflags := (((sets_refl s).setFld (chStatus q k) chStatus_OVLD_NOW 1).setFlag (chStatus q k) chStatus_OVLD).ana
    { s.ana with ovldSpans := (s.tripped q k).ana.ovldSpans }
  rw [State.tripped, State.openOver_eq]
  refine hflags.as fun o => ?_
  simp only [wordAt, hone, if_true]
  split <;> rfl

end

theorem State.overSpans_tripped_other (s : State) (q k : Nat) {j : Nat} (hj : j ≠ 4 * q + k) :
    (s.tripped q k).overSpans j = s.overSpans j := State.overSpans_openOver_other _ _ hj

theorem State.overloadAt_tripped (s : State) (q k : Nat) (h : ∀ x ∈ s.overSpans (4 * q + k), x.1 ≤ s.time.now) {at_ : Nat}
    (hat : s.time.now ≤ at_) : (s.tripped q k).overloadAt q k at_ = true :=
  State.overloadAt_openOver ((s.setFld (chStatus q k) chStatus_OVLD_NOW 1).setFlag (chStatus q k) chStatus_OVLD) q k h hat

theorem State.tripped_part (s : State) (q k : Nat) : (s.tripped q k).part = s.part := by rw [State.tripped, State.openOver_eq]; rfl

theorem exec_overloadTrip {s : State} {q k : Nat} (hq : q < s.part.quads) (hk : k < 4) : exec (.overloadTrip q k) s
    = .next (if s.ovldIe q k = true then (s.tripped q k).raise (448 + 2 * (4 * q + k)) 1 else s.tripped q k) := by
  simp [exec, execOverloadTrip, State.onlyIf, State.hasQuad_eq_true hq, hk, State.tripped]

theorem exec_overloadRelease {s : State} {q k : Nat} (hq : q < s.part.quads) (hk : k < 4)
    (hnow : s.fld (chStatus q k) chStatus_OVLD_NOW = 1) : exec (.overloadRelease q k) s
    = .next ((s.setFld (chStatus q k) chStatus_OVLD_NOW 0).closeOver (4 * q + k)) := by
  simp [exec, execOverloadRelease, State.onlyIf, State.hasQuad_eq_true hq, hk, State.bit, hnow]

/-! ### Comparators (R63–R66) -/

/-- A test that holds wherever `p` fails finds nothing behind the first entry at which `p` fails. -/
theorem find?_takeWhile_append_take {α : Type} {p r : α → Bool} (h : ∀ x, p x = false → r x = true) (l : List α) :
    (l.takeWhile p ++ (l.dropWhile p).take 1).find? r = l.find? r := by
  induction l with
  | nil => rfl
  | cons x xs ih =>
    cases hp : p x with
    | true =>
      simp only [List.takeWhile_cons, List.dropWhile_cons, hp, if_true, List.cons_append, List.find?_cons, ih]
    | false => simp [hp, h x hp]

section
variable (s : State) (q b : Nat) (l : Bool)

theorem State.setCmp_of_ne {l : Bool} (h : s.bit (cabStatus q b) cabStatus_CMP_OUT ≠ l) : s.setCmp q b l =
    { s with ana := { s.ana with cmp := (s.setCmp q b l).ana.cmp } }.setFld (cabStatus q b) cabStatus_CMP_OUT (flag l) := by
  unfold State.setCmp
  rw [if_neg h]
  rfl

theorem State.setCmp_ana : (s.setCmp q b l).ana = { s.ana with cmp := (s.setCmp q b l).ana.cmp } := by
  unfold State.setCmp
  split <;> rfl

theorem State.sets_setCmp : Sets { s with ana := { s.ana with cmp := (s.setCmp q b l).ana.cmp } }
    [(cabStatus q b, cabStatus_CMP_OUT.put (s.reg (cabStatus q b)) (flag l))] (s.setCmp q b l) := by
  by_cases h : s.bit (cabStatus q b) cabStatus_CMP_OUT = l
  · have hword : cabStatus_CMP_OUT.put (s.reg (cabStatus q b)) (flag l) = s.reg (cabStatus q b) := h ▸ Fld.put_flag_bit ..
    have hstay : s.setCmp q b l = s := by rw [State.setCmp, if_pos h]
    rw [hword, hstay]
    refine (sets_refl s).as fun o => ?_
    simp only [wordAt]
    split
    · next ho => rw [ho]
    · rfl
  · have hset := (sets_refl { s with ana := { s.ana with cmp := (s.setCmp q b l).ana.cmp } }).setFld (cabStatus q b)
      cabStatus_CMP_OUT (flag l)
    rw [← s.setCmp_of_ne q b h] at hset
    exact hset

/-- CMP_OUT reads a change two pin clocks late (R65): of the changes before it, only those that a read may still ask for are kept. -/
theorem State.cmpRead_setCmp {l : Bool} (h : s.bit (cabStatus q b) cabStatus_CMP_OUT ≠ l) {t : State}
    (ht : t.ana.cmp = (s.setCmp q b l).ana.cmp) (n : Nat) {now now' : TimeSt}
    (hnow : now.now = s.time.now + n) (hnow' : now'.now = s.time.now + n) :
    ({ t with time := now } : State).cmpRead q b = if n < 20 then ({ s with time := now' } : State).cmpRead q b else l := by
  have hcmp : FMap.get (fun _ => []) (s.setCmp q b l).ana.cmp (8 * q + b) = (s.time.now + 20, l) ::
      ((FMap.get (fun _ => []) s.ana.cmp (8 * q + b)).takeWhile (fun x => decide (s.time.now < x.1)) ++
        ((FMap.get (fun _ => []) s.ana.cmp (8 * q + b)).dropWhile (fun x => decide (s.time.now < x.1))).take 1) := by
    simp only [State.setCmp, if_neg h, State.setFld_ana, FMap.get_set_same]
  unfold State.cmpRead
  dsimp only
  rw [ht, hcmp, hnow, hnow', List.find?_cons, find?_takeWhile_append_take (by simp; omega)]
  by_cases hn : n < 20
  · simp [hn, Nat.not_le_of_lt hn]
  · simp [hn, Nat.le_of_not_lt hn]

end

/-! ### Integrators and the rise of a comparator (R63, R411) -/

section
variable (s : State) (q b : Nat)

theorem State.intHold_resetIntegrator (j : Nat) : FMap.get (fun _ => 0) (s.resetIntegrator q b).ana.intHold j =
    if j = 8 * q + b then s.time.now + 40 else FMap.get (fun _ => 0) s.ana.intHold j := by
  simp only [State.resetIntegrator, FMap.get_set]

/-- A rise of a comparator's output, with the reset of the integrator that takes it, before its event. -/
def State.risen : State :=
  if s.integrator q b 2 = true then (s.setCmp q b true).resetIntegrator q b else s.setCmp q b true

theorem State.risen_eq : s.risen q b =
    { s.setCmp q b true with ana := { (s.setCmp q b true).ana with intHold := (s.risen q b).ana.intHold } } := by
  unfold State.risen
  split <;> rfl

theorem State.risen_cmp : (s.risen q b).ana.cmp = (s.setCmp q b true).ana.cmp := by rw [State.risen_eq]

theorem State.risen_part : (s.risen q b).part = s.part := by
  have hpart : (s.setCmp q b true).part = s.part := by unfold State.setCmp; split <;> rfl
  rw [State.risen_eq]
  exact hpart

theorem State.intHold_risen (j : Nat) : FMap.get (fun _ => 0) (s.risen q b).ana.intHold j =
    if j = 8 * q + b ∧ s.integrator q b 2 = true then s.time.now + 40 else FMap.get (fun _ => 0) s.ana.intHold j := by
  have htime : (s.setCmp q b true).time = s.time := by unfold State.setCmp; split <;> rfl
  have hhold : (s.setCmp q b true).ana.intHold = s.ana.intHold := by rw [State.setCmp_ana]
  unfold State.risen
  split
  · next hi => rw [State.intHold_resetIntegrator, htime, hhold]; simp [hi]
  · next hi => rw [hhold]; simp [hi]

theorem State.sets_risen : Sets { s with ana := { s.ana with intHold := (s.risen q b).ana.intHold, cmp := (s.risen q b).ana.cmp } }
    [(cabStatus q b, cabStatus_CMP_OUT.put (s.reg (cabStatus q b)) 1)] (s.risen q b) := by
  have h := (s.sets_setCmp q b true).ana { (s.setCmp q b true).ana with intHold := (s.risen q b).ana.intHold }
  rw [← State.risen_eq] at h
  rw [State.risen_cmp]
  rw [State.setCmp_ana] at h
  exact h

end

section
variable {s : State} {q b : Nat} (hq : q < s.part.quads) (hb : b < 8)
include hq hb

theorem exec_cabComparatorFall : exec (.cabComparatorFall q b) s = .next (s.setCmp q b false) := by
  simp [exec, execCabComparatorFall, State.onlyIf, State.hasQuad_eq_true hq, hb]

theorem exec_cabComparatorRise (hc : s.compares q b = true) (hw : s.cabSettling q b = false)
    (ho : s.bit (cabStatus q b) cabStatus_CMP_OUT = false) : exec (.cabComparatorRise q b) s
    = .next (s.riseTriggers (if s.bit (cabCmp q b) cabCmp_CMP_IE = true then (s.risen q b).raise (728 + q) 1 [b] else s.risen q b)
        (8 * q + b)) := by
  have hif : (s.hasQuad q && decide (b < 8) && s.compares q b && !s.cabSettling q b && !s.bit (cabStatus q b) cabStatus_CMP_OUT) = true := by
    simp [State.hasQuad_eq_true hq, hb, hc, hw, ho]
  show Host.Outcome.next (s.onlyIf _ _) = _
  rw [State.onlyIf, if_pos hif]
  rfl

theorem exec_cabClip (h1 : 1 ≤ s.cur (cabFunc q b) cabFunc_FUNC) (h4 : s.cur (cabFunc q b) cabFunc_FUNC ≤ 4) :
    exec (.cabClip q b) s = .next (s.setFlag (cabStatus q b) cabStatus_CLIP) := by
  have hfn : [1, 2, 3, 4].contains (s.cur (cabFunc q b) cabFunc_FUNC) = true := by
    simp only [List.contains_iff_mem, List.mem_cons]; omega
  simp only [exec, execCabClip, State.onlyIf, State.hasQuad_eq_true hq, hb, hfn, decide_true, Bool.and_true, if_true]

/-- RST_GO on an integrator that its owner resets: the write waits for its boundary, the reset does not (R11, R63). -/
theorem exec_rstGo {f : Nat} {v : Word} (ho : s.open_ = true) (hm : s.mayCab f q b = true) (hgo : cabFunc_RST_GO.get v = 1)
    (hpass : cabRefusal v (s.reg (cabRes q b)) (s.reg (cabCap q b)) none = 0) (hi : s.integrator q b 3 = true) :
    exec (.rstGo f q b v) s
      = .next ((s.setTimed (cabFunc q b) (cabFuncDesc.write (s.reg (cabFunc q b)) v)).resetIntegrator q b) := by
  have hw1c : cabFuncDesc.bits .w1c = 0#32 := by decide
  have hwrite : s.writeReg (cabFunc q b) cabFuncDesc v = s.setTimed (cabFunc q b) (cabFuncDesc.write (s.reg (cabFunc q b)) v) := by
    rw [State.writeReg_of_timed (by decide), State.effective_of_no_w1c hw1c]
  have hif : (s.hasQuad q && decide (b < 8)) = true := by simp [State.hasQuad_eq_true hq, hb]
  show s.hostWrite _ = _
  rw [State.hostWrite_of_open ho, State.onlyIf, if_pos hif, State.writeCabFunc, State.allowed_of_true hm]
  dsimp only
  rw [hpass, if_pos ⟨rfl, hgo, hi⟩, State.writeCab, if_pos rfl, hwrite]

end

theorem exec_settlingWindowEnd {s : State} {q k e : Nat} (hq : q < s.part.quads) (hk : k < 12)
    (hwin : FMap.get (fun _ => none) s.ana.win (12 * q + k) = some e) (he : e ≤ s.time.now) : exec (.settlingWindowEnd q k) s
    = .next { s with ana := { s.ana with win := FMap.set (fun _ => none) s.ana.win (12 * q + k) none } } := by
  simp [exec, execSettlingWindowEnd, hwin, State.hasQuad_eq_true hq, hk, he]

/-- Settles O5: each clause is the lemma that says what its command does, with the effects of the steps that the command takes. -/
theorem analogueEvents : Obligations.AnalogueEvents := by
  unfold Obligations.AnalogueEvents
  refine ⟨fun s q hq => ⟨fun k hk => ⟨?trip, ?release⟩, fun b hb => ⟨?clip, ?fall, ?rise⟩⟩, fun s q hq => ⟨?window, ?reset⟩⟩
  case trip =>
    rintro w rfl
    rw [exec_overloadTrip hq hk]
    refine ⟨_, rfl, ?_⟩
    generalize ht : (if s.ovldIe q k = true then _ else _) = t
    have hana : t.ana = (s.tripped q k).ana := by rw [← ht]; split <;> simp only [State.raise_ana]
    have hspans (j : Nat) : t.overSpans j = (s.tripped q k).overSpans j := by rw [State.overSpans, hana, State.overSpans]
    have hsets := s.sets_tripped q k
    refine ⟨fun j hj => ?_, fun h at_ hat => ?_, fun hie => ?_, fun hie => ?_⟩
    · rw [hspans, State.overSpans_tripped_other _ _ _ hj]
    · rw [State.overloadAt, hspans]
      exact s.overloadAt_tripped q k h hat
    · rw [hana, ← ht, if_pos hie]
      exact hsets.raise _ _ _ _ (by rw [State.tripped_part]; exact sourcePresent_channel hq hk)
    · rw [hana, ← ht, if_neg (by simp [hie])]
      exact hsets
  case release =>
    intro hnow
    rw [exec_overloadRelease hq hk hnow]
    exact ⟨_, rfl, fun j hj => State.overSpans_closeOver_other _ _ hj, fun at_ hat => State.overloadAt_closeOver_before _ _ _ hat,
      fun h at_ hat => State.overloadAt_closeOver_after _ _ _ h hat, ((sets_refl s).setFld _ _ _).ana _⟩
  case clip =>
    intro h1 h4
    rw [exec_cabClip hq hb h1 h4]
    exact ⟨_, rfl, (sets_refl s).setFlag _ _⟩
  case fall =>
    rw [exec_cabComparatorFall hq hb]
    exact ⟨_, rfl, s.sets_setCmp q b false⟩
  case rise =>
    intro hc hw ho
    rw [exec_cabComparatorRise hq hb hc hw ho]
    refine ⟨_, rfl, ?_⟩
    generalize ht : (if s.bit (cabCmp q b) cabCmp_CMP_IE = true then _ else _) = t
    have hana : t.ana = (s.risen q b).ana := by rw [← ht]; split <;> simp only [State.raise_ana]
    have hsets := s.sets_risen q b
    refine ⟨fun n => ?_, fun j => ?_, fun hie => ?_, fun hie => ?_⟩
    · exact State.cmpRead_setCmp s q b (by simp [ho]) (by rw [hana, State.risen_cmp]) n rfl rfl
    · rw [hana, State.intHold_risen]
    · rw [hana, ← ht, if_pos hie]
      exact hsets.raise _ _ _ _ (by rw [State.risen_part]; exact sourcePresent_quad hq)
    · rw [hana, ← ht, if_neg (by simp [hie])]
      exact hsets
  case window =>
    intro k e hk hwin he
    rw [exec_settlingWindowEnd hq hk hwin he]
    exact ⟨_, rfl, fun j => by simp only [FMap.get_set], rfl⟩
  case reset =>
    intro f b v hb ho hm hgo hpass hi
    rw [exec_rstGo hq hb ho hm hgo hpass hi]
    exact ⟨_, rfl, State.intHold_resetIntegrator _ q b, (s.sets_setTimed _ _).ana _, s.setTimed_cur _ _⟩

end Sys2Proof.Machine
end

section
/-! SUPPORT. The switch matrix: the loads of the wires, and its commands (R68–R84). -/

namespace Sys2Proof.Machine

open Regs

/-! ### Bits of numbers -/

theorem bitOf_eq_one_iff (x k : Nat) : bitOf x k = 1 ↔ x.testBit k = true := by
  rw [bitOf, ← Nat.toNat_testBit, Bool.toNat_eq_one]

/-- A power of two added where its bit is 0 changes that bit alone. -/
theorem testBit_add_two_pow {x k : Nat} (h : x.testBit k = false) (b : Nat) :
    (x + 2 ^ k).testBit b = if b = k then true else x.testBit b := by
  rw [Nat.add_comm]
  obtain hb | rfl | hb := Nat.lt_trichotomy b k
  · rw [Nat.testBit_two_pow_add_gt hb, if_neg (by omega)]
  · rw [Nat.testBit_two_pow_add_eq, h, if_pos rfl, Bool.not_false]
  · have hlow : x % 2 ^ (k + 1) < 2 ^ k := by
      refine Nat.lt_pow_two_of_testBit _ fun i hi => ?_
      rw [Nat.testBit_mod_two_pow]
      by_cases hik : i = k
      · simp [hik, h]
      · simp; omega
    have hpow : 2 ^ k < 2 ^ (k + 1) := Nat.pow_lt_pow_succ (by decide)
    have hdiv : (2 ^ k + x) / 2 ^ (k + 1) = x / 2 ^ (k + 1) := by
      rw [Nat.add_div (Nat.two_pow_pos _), Nat.mod_eq_of_lt hpow, Nat.div_eq_of_lt hpow,
        if_neg (by rw [Nat.pow_succ] at hlow ⊢; omega), Nat.zero_add, Nat.add_zero]
    have hsplit : b = b - (k + 1) + (k + 1) := by omega
    rw [if_neg (by omega), hsplit, ← Nat.testBit_div_two_pow, hdiv, Nat.testBit_div_two_pow]

/-- A power of two taken away where its bit is 1 leaves no bit that was not there. -/
theorem testBit_of_sub_two_pow {x k b : Nat} (h : x.testBit k = true) (hb : (x - 2 ^ k).testBit b = true) : x.testBit b = true := by
  have hle : 2 ^ k ≤ x := Nat.ge_two_pow_of_testBit h
  have hx : x - 2 ^ k + 2 ^ k = x := Nat.sub_add_cancel hle
  have hk : (x - 2 ^ k).testBit k = false := by
    rw [← hx, Nat.add_comm, Nat.testBit_two_pow_add_eq] at h
    simpa using h
  rw [← hx, testBit_add_two_pow hk, hb, ite_self]

theorem countBelow_mono {p r : Nat → Bool} {n : Nat} (h : ∀ i < n, p i = true → r i = true) : countBelow p n ≤ countBelow r n := by
  induction n with
  | zero => exact Nat.le_refl _
  | succ n ih =>
    have hn : flag (p n) ≤ flag (r n) := by
      cases hp : p n with
      | false => simp [flag]
      | true => exact Nat.le_of_eq (by rw [h n (Nat.lt_succ_self n) hp])
    exact Nat.add_le_add (ih fun i hi => h i (by omega)) hn

/-- One number more passes the test. -/
theorem countBelow_le_succ {p r : Nat → Bool} {k n : Nat} (h : ∀ i, p i = true → r i = true ∨ i = k) :
    countBelow p n ≤ countBelow r n + 1 := by
  induction n with
  | zero => exact Nat.zero_le _
  | succ n ih =>
    by_cases hn : n = k
    · have hrest : countBelow p n ≤ countBelow r n := countBelow_mono fun i hi hp => (h i hp).resolve_right (by omega)
      have hflag : flag (p n) ≤ 1 := by unfold flag; split <;> omega
      simp only [countBelow]; omega
    · have hflag : flag (p n) ≤ flag (r n) := by
        cases hp : p n with
        | false => simp [flag]
        | true => exact Nat.le_of_eq (by rw [(h n hp).resolve_right hn])
      simp only [countBelow]; omega

theorem firstFrom_eq_none {p : Nat → Bool} {lo n : Nat} (h : firstFrom p lo n = none) : ∀ i, lo ≤ i → i < lo + n → p i = false := by
  induction n generalizing lo with
  | zero => intro i h1 h2; omega
  | succ n ih =>
    intro i h1 h2
    unfold firstFrom at h
    split at h
    · cases h
    · next hp =>
      obtain rfl | hlt := Nat.eq_or_lt_of_le h1
      · simpa using hp
      · exact ih h i hlt (by omega)

theorem lowest_eq_none {p : Nat → Bool} {n : Nat} (h : lowest n p = none) {i : Nat} (hi : i < n) : p i = false :=
  firstFrom_eq_none h i (Nat.zero_le i) (by omega)

/-! ### The loads of a wire (R68, R69, R72, R74) -/

theorem wireLoads_lt (w : Wire) : wireLoads w < 2 ^ 32 := by
  have h1 : mxWire_LOADS.get w.1 < 2 ^ 8 := Nat.mod_lt _ (by decide)
  have h2 : mxWireCab_CAB_LOADS.get w.2 < 2 ^ 24 := Nat.mod_lt _ (by decide)
  unfold wireLoads; omega

theorem wireLoads_setLoads (w : Wire) {l : Nat} (hl : l < 2 ^ 32) : wireLoads (setLoads w l) = l := by
  rw [wireLoads, setLoads, Fld.get_put_same (by decide), Fld.get_put_same (by decide)]
  have h1 : mxWire_LOADS.width = 8 := rfl
  have h2 : mxWireCab_CAB_LOADS.width = 24 := rfl
  rw [h1, h2]; omega

/-- A wire with no driver and no loads. -/
theorem testBit_wireLoads_empty (b : Nat) : (wireLoads (0, 0)).testBit b = false := by
  have h : wireLoads (0, 0) = 0 := by decide
  rw [h, Nat.zero_testBit]

theorem loadBit_lt {t : Nat} (ht : t < 64) (hd : isDriver t = false) : loadBit t < 32 := by
  simp [isDriver] at hd
  unfold loadBit
  split <;> omega

/-- A command adds no load to its wire but the one that it connects. -/
theorem testBit_wireLoads_wireDo (w : Wire) {c : MxCmd} (hop : c.op < 3) (ht : c.op = 0 → c.term < 64) {b : Nat}
    (hb : (wireLoads (wireDo w c)).testBit b = true) :
    (wireLoads w).testBit b = true ∨ c.op = 0 ∧ isDriver c.term = false ∧ b = loadBit c.term := by
  have hdriver (x y : Nat) : wireLoads (mxWire_HAS_DRIVER.put (mxWire_DRIVER.put w.1 x) y, w.2) = wireLoads w := by
    simp only [wireLoads]
    rw [Fld.get_put_apart (by decide), Fld.get_put_apart (by decide)]
  obtain h0 | h1 | h2 : c.op = 0 ∨ c.op = 1 ∨ c.op = 2 := by omega
  · simp only [wireDo, h0] at hb
    split at hb
    · exact .inl (hdriver .. ▸ hb)
    · next hd =>
      split at hb
      · exact .inl hb
      · next hoff =>
        rw [bitOf_eq_one_iff, Bool.not_eq_true] at hoff
        have hnd : isDriver c.term = false := by simpa using hd
        have hk : loadBit c.term < 32 := loadBit_lt (ht h0) hnd
        have hl : wireLoads w + 2 ^ loadBit c.term < 2 ^ 32 := by
          refine Nat.lt_pow_two_of_testBit _ fun i hi => ?_
          rw [testBit_add_two_pow hoff, if_neg (by omega)]
          exact Nat.testBit_lt_two_pow (Nat.lt_of_lt_of_le (wireLoads_lt w) (Nat.pow_le_pow_right (by decide) hi))
        rw [wireLoads_setLoads _ hl, testBit_add_two_pow hoff] at hb
        split at hb
        · next he => exact .inr ⟨h0, hnd, he⟩
        · exact .inl hb
  · simp only [wireDo, h1] at hb
    split at hb
    · split at hb
      · exact .inl (hdriver .. ▸ hb)
      · exact .inl hb
    · split at hb
      · next hon =>
        rw [bitOf_eq_one_iff] at hon
        rw [wireLoads_setLoads _ (Nat.lt_of_le_of_lt (Nat.sub_le ..) (wireLoads_lt w))] at hb
        exact .inl (testBit_of_sub_two_pow hon hb)
      · exact .inl hb
  · simp only [wireDo, h2, testBit_wireLoads_empty] at hb
    cases hb

/-! ### The rules of the wires (R69) -/

theorem wiresOk_iff (ws : List Wire) : WiresOk ws ↔ (∀ i, loadCount (ws.getD i (0, 0)) ≤ 4) ∧
    ∀ i j b, (wireLoads (ws.getD i (0, 0))).testBit b = true → (wireLoads (ws.getD j (0, 0))).testBit b = true → i = j := by
  simp only [WiresOk, bitOf_eq_one_iff]

theorem loadCount_eq (w : Wire) : loadCount w = countBelow (wireLoads w).testBit 32 := by
  unfold loadCount
  congr 1
  funext i
  rw [Bool.eq_iff_iff, beq_iff_eq, bitOf_eq_one_iff]

theorem getD_set (ws : List Wire) {k : Nat} (hk : k < ws.length) (w : Wire) (i : Nat) :
    (ws.set k w).getD i (0, 0) = if i = k then w else ws.getD i (0, 0) := by
  simp only [List.getD_eq_getElem?_getD, List.getElem?_set]
  by_cases h : i = k
  · simp [h, hk]
  · simp [h, Ne.symm h]

theorem getD_of_length_le {ws : List Wire} {i : Nat} (hi : ws.length ≤ i) : ws.getD i (0, 0) = (0, 0) := by
  rw [List.getD_eq_getElem?_getD, List.getElem?_eq_none hi]
  rfl

/-- One wire replaced by one with at most four loads, all of them on no other wire. -/
theorem WiresOk.set {ws : List Wire} (h : WiresOk ws) {k : Nat} (hk : k < ws.length) {w : Wire} (hc : loadCount w ≤ 4)
    (ha : ∀ i b, i ≠ k → (wireLoads w).testBit b = true → (wireLoads (ws.getD i (0, 0))).testBit b = false) :
    WiresOk (ws.set k w) := by
  rw [wiresOk_iff] at h ⊢
  obtain ⟨hcount, hone⟩ := h
  refine ⟨fun i => ?_, fun i j b hi hj => ?_⟩
  · rw [getD_set _ hk]
    split
    · exact hc
    · exact hcount i
  · rw [getD_set _ hk] at hi hj
    split at hi <;> split at hj
    · next hik hjk => rw [hik, hjk]
    · next hjk => rw [ha j b hjk hi] at hj; cases hj
    · next hik _ => rw [ha i b hik hj] at hi; cases hi
    · exact hone i j b hi hj

/-- One wire replaced by one with no load that it had not. -/
theorem WiresOk.set_of_subset {ws : List Wire} (h : WiresOk ws) {k : Nat} (hk : k < ws.length) {w : Wire}
    (hsub : ∀ b, (wireLoads w).testBit b = true → (wireLoads (ws.getD k (0, 0))).testBit b = true) : WiresOk (ws.set k w) := by
  obtain ⟨hcount, hone⟩ := (wiresOk_iff ws).mp h
  refine h.set hk ?_ fun i b hik hb => ?_
  · rw [loadCount_eq]
    exact Nat.le_trans (countBelow_mono fun i _ => hsub i) (loadCount_eq _ ▸ hcount k)
  · rw [← Bool.not_eq_true]
    exact fun hi => hik (hone i k b hi (hsub b hb))

/-- What R69 asks of a load that is not yet on the wire: it is on no other, and the wire has room. -/
theorem connectError_load {ws : List Wire} {c : MxCmd} (h0 : c.op = 0) (hd : isDriver c.term = false)
    (hoff : (wireLoads (ws.getD c.wire (0, 0))).testBit (loadBit c.term) = false) (h : connectError ws c = 0) :
    (∀ i, i < 32 → i ≠ c.wire → (wireLoads (ws.getD i (0, 0))).testBit (loadBit c.term) = false) ∧
      loadCount (ws.getD c.wire (0, 0)) < 4 := by
  have hbit (i : Nat) : (bitOf (wireLoads (ws.getD i (0, 0))) (loadBit c.term) == 1)
      = (wireLoads (ws.getD i (0, 0))).testBit (loadBit c.term) := by
    rw [Bool.eq_iff_iff, beq_iff_eq, bitOf_eq_one_iff]
  simp only [connectError, h0, hd, hbit, hoff] at h
  rw [if_neg (by simp), if_neg (by simp)] at h
  split at h
  · contradiction
  · next hnone =>
    split at h
    · contradiction
    · next hroom =>
      refine ⟨fun i hi hik => ?_, by simpa using hroom⟩
      have hi := lowest_eq_none (Option.not_isSome_iff_eq_none.mp hnone) hi
      simpa [hik] using hi

/-- A command that R69 does not refuse keeps the rules of the wires: it adds no load, or one that is on no wire. -/
theorem WiresOk.wiresDo {ws : List Wire} {c : MxCmd} (h : WiresOk ws) (hlen : ws.length = 32) (hw : c.wire < 32) (hop : c.op < 3)
    (ht : c.op = 0 → c.term < 64) (hc : connectError ws c = 0) : WiresOk (wiresDo ws [c]) := by
  have hk : c.wire < ws.length := by omega
  have hadds {b : Nat} := testBit_wireLoads_wireDo (ws.getD c.wire (0, 0)) hop ht (b := b)
  obtain ⟨hcount, hone⟩ := (wiresOk_iff ws).mp h
  show WiresOk (ws.set c.wire (wireDo (ws.getD c.wire (0, 0)) c))
  by_cases hnew : c.op = 0 ∧ isDriver c.term = false ∧ (wireLoads (ws.getD c.wire (0, 0))).testBit (loadBit c.term) = false
  · obtain ⟨h0, hd, hoff⟩ := hnew
    obtain ⟨hfree, hroom⟩ := connectError_load h0 hd hoff hc
    refine h.set hk ?_ fun i b hik hb => ?_
    · rw [loadCount_eq] at hroom ⊢
      exact Nat.le_trans (countBelow_le_succ (k := loadBit c.term) fun i hi => (hadds hi).imp_right fun hx => hx.2.2) hroom
    · rw [← Bool.not_eq_true]
      intro hi
      obtain hold | ⟨-, -, rfl⟩ := hadds hb
      · exact hik (hone i c.wire b hi hold)
      · by_cases hi32 : i < 32
        · rw [hfree i hi32 hik] at hi; cases hi
        · rw [getD_of_length_le (by omega), testBit_wireLoads_empty] at hi; cases hi
  · refine h.set_of_subset hk fun b hb => ?_
    obtain hold | ⟨h0, hd, rfl⟩ := hadds hb
    · exact hold
    · rw [← Bool.not_eq_false]
      exact fun hoff => hnew ⟨h0, hd, hoff⟩

/-! ### Matrix commands (R72, R84) -/

/-- The three commands are writes of MX_CMD with their operation. -/
theorem exec_matrixCommand {s : State} {q op : Nat} (hq : q < s.part.quads) (ho : s.open_ = true) (hop : op < 3) (f : Nat) (v : Word) :
    exec (if op = 0 then .connect f q v else if op = 1 then .disconnect f q v else .clearWire f q v) s
      = .next (s.writeMxCmd f q (mxCmd_OP.put v op)) := by
  have run (t : State) : s.hostWrite (s.onlyIf (s.hasQuad q) t) = .next t := by
    rw [State.hostWrite_of_open ho, State.onlyIf, if_pos (State.hasQuad_eq_true hq)]
  obtain rfl | rfl | rfl : op = 0 ∨ op = 1 ∨ op = 2 := by omega
  · exact run _
  · exact run _
  · exact run _

/-- A command of a function that may write its wire and terminal is submitted. -/
theorem State.writeMxCmd_of_allowed {s : State} {f q op : Nat} {v : Word} (hop : op < 3)
    (hw : s.userMay f (fun g => g.usesWire q (mxCmd_WIRE.get v)) = true) (ht : op = 2 ∨ s.mayTerm f q (mxCmd_TERM.get v) = true) :
    s.writeMxCmd f q (mxCmd_OP.put v op) = s.mxSubmit q ⟨op, mxCmd_WIRE.get v, mxCmd_TERM.get v⟩ (f + 1) := by
  have hget : mxCmd_OP.get (mxCmd_OP.put v op) = op := by
    rw [Fld.get_put_same (by decide)]
    exact Nat.mod_eq_of_lt (Nat.lt_of_lt_of_le hop (by decide))
  have hwire : mxCmd_WIRE.get (mxCmd_OP.put v op) = mxCmd_WIRE.get v := Fld.get_put_apart (by decide) ..
  have hterm : mxCmd_TERM.get (mxCmd_OP.put v op) = mxCmd_TERM.get v := Fld.get_put_apart (by decide) ..
  unfold State.writeMxCmd
  rw [hget, hwire, hterm]
  exact State.allowed_of_true (by simpa [hw] using ht) ..

theorem State.mxSubmit_of_pass {s : State} {q : Nat} {c : MxCmd} (h : s.mxError q c = 0) (whom : Nat) :
    s.mxSubmit q c whom = s.setMxQueue q (s.mxQueue q ++ [c]) := by
  simp [State.mxSubmit, h]

theorem State.mxSubmit_of_fail {s : State} {q : Nat} {c : MxCmd} (h : s.mxError q c ≠ 0) (whom : Nat) :
    s.mxSubmit q c whom = s.mxRefuse q c (s.mxError q c) whom := by
  unfold State.mxSubmit
  split
  · next h0 => exact absurd h0 h
  · rfl

/-- A refusal recorded: the fields of MX_STATUS lie apart, so that their order does not matter. -/
theorem State.sets_mxRecord (s : State) (q : Nat) (c : MxCmd) (code : Nat) :
    Sets s [(mxStatus q, mxStatus_ERR_TERM.put (mxStatus_ERR_WIRE.put (mxStatus_ERR.put (mxStatus_REFUSED.put (s.reg (mxStatus q)) 1)
      code) c.wire) c.term)] (s.mxRecord q c code) := by
  refine (((sets_refl s).setReg _ _).setFlag _ _).as fun o => ?_
  have hone : 2 ^ mxStatus_REFUSED.width - 1 = 1 := by decide
  simp only [wordAt, if_true, hone]
  rw [Fld.put_comm (F := mxStatus_REFUSED) (by decide), Fld.put_comm (F := mxStatus_REFUSED) (by decide),
    Fld.put_comm (F := mxStatus_REFUSED) (by decide)]
  split <;> rfl

/-- A refusal: recorded and raised. -/
theorem State.tells_mxRefuse {s : State} {q : Nat} (hq : q < s.part.quads) (c : MxCmd) (code whom : Nat) :
    ∃ w, w = mxStatus_ERR_TERM.put (mxStatus_ERR_WIRE.put (mxStatus_ERR.put (mxStatus_REFUSED.put (s.reg (mxStatus q)) 1) code) c.wire)
      c.term ∧ Tells s [(mxStatus q, w)] (728 + q) 2 [(mxStatus_PENDING.put w (s.mxQueue q).length).toNat] whom
        (s.mxRefuse q c code whom) := by
  have hsets := s.sets_mxRecord q c code
  have hreg := hsets.1 (mxStatus q)
  simp only [wordAt, if_true] at hreg
  refine ⟨_, rfl, ?_⟩
  rw [← hreg] at hsets ⊢
  exact hsets.raise _ _ _ _ (sourcePresent_quad hq)

/-- Settles O6: a command that may be submitted is queued or refused by its checks, and one that passes them adds at most one load, where the
rules leave room for it. -/
theorem matrixCommands : Obligations.MatrixCommands := by
  unfold Obligations.MatrixCommands
  refine ⟨?submit, fun ws c hlen hwire hop ht h hc => h.wiresDo hlen hwire hop (fun h0 => (ht (by omega)).2) hc⟩
  intro s f q v op hq ho hop cmd c hw ht
  have hexec : exec cmd s = .next (s.mxSubmit q c (f + 1)) := by
    rw [exec_matrixCommand hq ho hop, State.writeMxCmd_of_allowed hop hw ht]
  refine ⟨fun hpass => ?_, fun hfail => ?_⟩
  · rw [hexec, State.mxSubmit_of_pass hpass]
    exact ⟨_, rfl, fun p => FMap.get_set .., rfl⟩
  · rw [hexec, State.mxSubmit_of_fail hfail]
    obtain ⟨w, hval, htells⟩ := State.tells_mxRefuse hq c (s.mxError q c) (f + 1)
    exact ⟨_, w, rfl, hval, htells⟩

end Sys2Proof.Machine
end

section
/-! SUPPORT. The DAC in STREAM mode (R79). -/

namespace Sys2Proof.Machine

open Regs

/-! ### The sample queue of a DAC out of its order

The samples that wait for a DAC go out in the order of their instants (R79), and feeding it keeps them so; but `State` holds any list of
them, and `Obligations.DacAndReference` speaks of every state. Feeding a DAC puts the sample that it holds ahead of those to come: where
it stood last, behind one of them, another entry is then the last, from which the new sample counts. -/

/-- The DAC of quad 0 in STREAM mode: a sample for instant 100 stands ahead of the one that it holds since instant 0. -/
def strayQueueState : State :=
  { State.reset.setFld (dacCtrl 0) dacCtrl_SRC 3 with ana := { State.reset.ana with dacQueue := [(0, [(100, 5), (0, 6)])] } }

theorem strayQueueState_streams : 0 < strayQueueState.part.quads ∧ strayQueueState.boot.trip = false ∧
    strayQueueState.cur (dacCtrl 0) dacCtrl_SRC = 3 := by decide

/-- The sample held was given out at 0 and is held for four sub-tick periods; the next one goes out after the other that waits, at 104. -/
theorem strayQueueState_sample :
    (((FMap.get (fun _ => []) strayQueueState.ana.dacQueue 0).getLast?.map (fun y => max strayQueueState.time.now
      (y.1 + 4 * 2 ^ strayQueueState.cur (dacCtrl 0) dacCtrl_STREAM_RATE))).getD strayQueueState.time.now) = 4 ∧
    (FMap.get (fun _ => []) (strayQueueState.dacFeed 0 [7]).ana.dacQueue 0).getLast? = some (104, 7) := by decide

theorem exec_dacStreamSample {s : State} {q : Nat} (hq : q < s.part.quads) (ht : s.boot.trip = false)
    (hsrc : s.cur (dacCtrl q) dacCtrl_SRC = 3) (x : Nat) : exec (.dacStreamSample q x) s = .next (s.dacFeed q [x]) := by
  have hstreams : s.dacStreams q = true := by simp [State.dacStreams, State.hasQuad_eq_true hq, State.clocked, ht, hsrc]
  simp [exec, execDacStreamSample, State.onlyIf, hstreams]

/-- Refutes O7: in `strayQueueState` a sample goes out at 104, and not at 4, when the last entry of the queue has been held for its time. The
state's queue is not in the order of its instants, which no other clause depends on. -/
theorem not_dacAndReference : ¬ Obligations.DacAndReference := by
  unfold Obligations.DacAndReference
  intro h
  obtain ⟨hq, htrip, hsrc⟩ := strayQueueState_streams
  obtain ⟨hexpected, hlast⟩ := strayQueueState_sample
  obtain ⟨hstream, -⟩ := h strayQueueState 0 hq
  obtain ⟨t, a, hnext, ha, hqueue, -⟩ := (hstream htrip hsrc).1 7
  rw [exec_dacStreamSample hq htrip hsrc] at hnext
  rw [← Host.Outcome.next.inj hnext, hlast] at hqueue
  rw [hexpected] at ha
  obtain ⟨rfl, -⟩ := Prod.mk.inj (Option.some.inj hqueue)
  exact absurd ha (by decide)

end Sys2Proof.Machine
end

section
/-! SUPPORT. The register lists of effects: registers that keep their word, the order of entries, registers written twice. -/

namespace Sys2Proof.Machine

theorem wordAt_cons_other (u : State) (ws : List (Nat × Word)) {a o : Nat} (w : Word) (h : o ≠ a) :
    wordAt u ((a, w) :: ws) o = wordAt u ws o := if_neg h

theorem wordAt_append_self (u : State) (ws : List (Nat × Word)) (a o : Nat) : wordAt u (ws ++ [(a, u.reg a)]) o = wordAt u ws o := by
  induction ws with
  | nil =>
    simp only [List.nil_append, wordAt]
    split
    · next h => rw [h]
    · rfl
  | cons p ws ih => simp only [List.cons_append, wordAt, ih]

/-- A register that keeps its word, listed with it. -/
theorem Sets.keeps {u t : State} {ws : List (Nat × Word)} (h : Sets u ws t) (a : Nat) : Sets u (ws ++ [(a, u.reg a)]) t :=
  h.as fun o => (wordAt_append_self u ws a o).symm

/-- The order of two registers in the list does not matter. -/
theorem Sets.swap {u t : State} {ws : List (Nat × Word)} {a b : Nat} {x y : Word} (hab : a ≠ b) (h : Sets u ((a, x) :: (b, y) :: ws) t) :
    Sets u ((b, y) :: (a, x) :: ws) t := by
  refine h.as fun o => ?_
  simp only [wordAt]
  by_cases ha : o = a
  · simp [ha, hab]
  · simp [ha]

/-- A field written of the register written last. -/
theorem Sets.setFld_again {u t : State} {ws : List (Nat × Word)} {a : Nat} {x : Word} (h : Sets u ((a, x) :: ws) t) (F : Fld) (y : Nat) :
    Sets u ((a, F.put x y) :: ws) (t.setFld a F y) := by
  refine (h.setFld a F y).as fun o => ?_
  simp only [wordAt, if_true]
  split <;> rfl

end Sys2Proof.Machine
end

section
/-! SUPPORT. The end of a slice's start-up (R96, R97, R113, R114). -/

namespace Sys2Proof.Machine

open Regs

theorem slice_ne_poolStatus (q i : Nat) : slice q i ≠ poolStatus q := by unfold slice poolStatus; omega

theorem State.come_of_running {s : State} {a : Nat} (ht : s.boot.trip = false) (ha : a ≤ s.time.now) : s.come a = true := by
  simp [State.come, State.clocked, ht, ha]

/-- A slice whose start-up has ended, serving what it was woken for. -/
def State.startedUp (s : State) (q i : Nat) (w : Wake) : State :=
  match w.why with
  | .graph => s.setWake q i none
  | .standby =>
    let t := ((s.setFld (slice q i) slice_STATE 3).setWake q i none).setFld (poolStatus q) poolStatus_ROT_STOPPED 0
    { t with pool := { t.pool with injFree := FMap.set (fun _ => 0) t.pool.injFree q w.until_ } }
  | .added =>
    let t := (s.setFld (slice q i) slice_STATE 2).setWake q i none
    { t with pool := { t.pool with woke := FMap.set (fun _ => 0) t.pool.woke (36 * q + i) w.until_ } }
  | .replacing => (s.setFld (slice q i) slice_STATE 2).setWake q i none

/-- The register of a slice whose start-up has ended. -/
def startedWord (why : WakeFor) (v : Word) : Word :=
  match why with
  | .graph => v
  | .standby => slice_STATE.put v 3
  | .added => slice_STATE.put v 2
  | .replacing => slice_STATE.put v 2

theorem exec_sliceStartupEnd {s : State} {q i : Nat} {w : Wake} (hw : s.wakeOf q i = some w) (ht : s.boot.trip = false)
    (hu : w.until_ ≤ s.time.now) : exec (.sliceStartupEnd q i) s = .next (s.startedUp q i w) := by
  simp only [exec, execSliceStartupEnd, hw, State.come_of_running ht hu]
  rfl

section
variable (s : State) (q i : Nat) (w : Wake)

theorem State.pool_startedUp : (s.startedUp q i w).pool = { s.pool with
    wake := FMap.set (fun _ => none) s.pool.wake (36 * q + i) none
    woke := if w.why = .added then FMap.set (fun _ => 0) s.pool.woke (36 * q + i) w.until_ else s.pool.woke
    injFree := if w.why = .standby then FMap.set (fun _ => 0) s.pool.injFree q w.until_ else s.pool.injFree } := by
  unfold State.startedUp
  cases w.why <;> rfl

theorem State.wakeOf_startedUp (p j : Nat) :
    (s.startedUp q i w).wakeOf p j = if 36 * p + j = 36 * q + i then none else s.wakeOf p j := by
  simp only [State.wakeOf, State.pool_startedUp, FMap.get_set]

theorem State.woke_startedUp (p : Nat) : FMap.get (fun _ => 0) (s.startedUp q i w).pool.woke p =
    if p = 36 * q + i ∧ w.why = .added then w.until_ else FMap.get (fun _ => 0) s.pool.woke p := by
  rw [State.pool_startedUp]
  by_cases h : w.why = .added <;> simp [h, FMap.get_set]

theorem State.injFree_startedUp (p : Nat) : FMap.get (fun _ => 0) (s.startedUp q i w).pool.injFree p =
    if p = q ∧ w.why = .standby then w.until_ else FMap.get (fun _ => 0) s.pool.injFree p := by
  rw [State.pool_startedUp]
  by_cases h : w.why = .standby <;> simp [h, FMap.get_set]

/-- An added position carries S up to the end of its start-up and no longer (R96). -/
theorem State.wakingAt_startedUp (h : w.why = .added) (at_ : Int) :
    (s.startedUp q i w).wakingAt q i at_ = decide (at_ < (w.until_ : Int)) := by
  simp [State.wakingAt, State.wakeOf_startedUp, State.woke_startedUp, h]

theorem State.sets_startedUp : Sets { s with pool := (s.startedUp q i w).pool }
    [(slice q i, startedWord w.why (s.reg (slice q i))), (poolStatus q,
      if w.why = .standby then poolStatus_ROT_STOPPED.put (s.reg (poolStatus q)) 0 else s.reg (poolStatus q))]
    (s.startedUp q i w) := by
  have stated (x : Nat) := (sets_refl s).setFld (slice q i) slice_STATE x
  unfold State.startedUp
  cases hwhy : w.why with
  | graph => exact (((sets_refl s).pool _).keeps _).keeps _
  | added => exact ((stated 2).pool _).keeps _
  | replacing => exact ((stated 2).pool _).keeps _
  | standby =>
    have hne := (slice_ne_poolStatus q i).symm
    have both := (stated 3).setFld (poolStatus q) poolStatus_ROT_STOPPED 0
    rw [wordAt_cons_other _ _ _ hne] at both
    exact (both.swap hne).pool _

end

/-- Settles O8: what the end of a start-up does to the pool and to the registers, by what the slice was woken for. -/
theorem sliceStartUp : Obligations.SliceStartUp := by
  unfold Obligations.SliceStartUp
  intro s q i w hq hi hw ht hu
  have hsets := s.sets_startedUp q i w
  have hreg : (s.startedUp q i w).reg (slice q i) = startedWord w.why (s.reg (slice q i)) := by
    rw [hsets.1, wordAt, if_pos rfl]
  refine ⟨_, exec_sliceStartupEnd hw ht hu, ?_, fun p j hp hj hne => ?_, ?_, s.injFree_startedUp q i w, s.woke_startedUp q i w,
    s.wakingAt_startedUp q i w, ?_⟩
  · rw [State.wakeOf_startedUp, if_pos rfl]
  · rw [State.wakeOf_startedUp, if_neg fun h => hne (by rw [Prod.mk.injEq]; omega)]
  · rw [hreg]; rfl
  · rw [← hreg, State.pool_startedUp] at hsets
    rw [State.pool_startedUp]
    exact hsets

end Sys2Proof.Machine
end

section
/-! SUPPORT. The blocks of a slice, its retirement and the positions that are filled (R110, R111). -/

namespace Sys2Proof.Machine

open Regs

/-! ### Filled positions (R111, R113) -/

/-- Whether an entry of the list of filled positions covers a sample. -/
def Filled.covers (x : Filled) (q k j : Nat) (at_ : Int) : Bool :=
  x.quad == q && x.chan == k && x.pos == j && decide ((x.from_ : Int) ≤ at_) && x.until_.all (fun e => decide (at_ < (e : Int)))

theorem Filled.covers_iff {x : Filled} {q k j : Nat} {at_ : Int} : x.covers q k j at_ = true ↔
    (x.quad = q ∧ x.chan = k ∧ x.pos = j) ∧ (x.from_ : Int) ≤ at_ ∧ ∀ e, x.until_ = some e → at_ < (e : Int) := by
  unfold Filled.covers
  cases x.until_ <;> simp [and_assoc]

theorem State.filledAt_eq (s : State) (q k j : Nat) (at_ : Int) : s.filledAt q k j at_ = s.pool.filled.any (·.covers q k j at_) := rfl

/-- What is left of an entry when a position needs no filling from `now` on. -/
def Filled.cut (now q k j : Nat) (x : Filled) : Option Filled :=
  if x.until_.any (fun e => decide (e + 0x20000 < now)) then none
  else if x.quad = q ∧ x.chan = k ∧ x.pos = j ∧ x.until_.all (fun e => decide (now < e)) then
    (if now ≤ x.from_ then none else some { x with until_ := some now })
  else some x

section
variable (x : Filled) (now q k j : Nat)

/-- A cut drops an entry that ended more than two blocks ago; it ends an open one of its position, or drops it where it has not begun; any
other stays. -/
theorem Filled.cut_cases : (∃ e, x.until_ = some e ∧ e + 0x20000 < now ∧ x.cut now q k j = none) ∨
    ((x.quad = q ∧ x.chan = k ∧ x.pos = j) ∧ (∀ e, x.until_ = some e → now < e) ∧
      x.cut now q k j = if now ≤ x.from_ then none else some { x with until_ := some now }) ∨
    (((x.quad = q ∧ x.chan = k ∧ x.pos = j) → ∃ e, x.until_ = some e ∧ e ≤ now) ∧ x.cut now q k j = some x) := by
  unfold Filled.cut
  split
  · next hold =>
    obtain ⟨e, he, hlt⟩ := (Option.any_eq_true ..).mp hold
    exact .inl ⟨e, he, of_decide_eq_true hlt, rfl⟩
  split
  · next hopen =>
    obtain ⟨hq, hk, hj, hu⟩ := hopen
    exact .inr (.inl ⟨⟨hq, hk, hj⟩, fun e he => of_decide_eq_true ((Option.all_eq_true ..).mp hu e he), rfl⟩)
  · next hshut =>
    refine .inr (.inr ⟨fun ⟨hq, hk, hj⟩ => ?_, rfl⟩)
    simpa [hq, hk, hj, Option.all_eq_true] using hshut

/-- An entry cut covers no sample of its position from then on. -/
theorem Filled.covers_cut_after {at_ : Int} (hat : (now : Int) ≤ at_) : (x.cut now q k j).any (·.covers q k j at_) = false := by
  obtain ⟨e, he, hold, hcut⟩ | ⟨hpos, hopen, hcut⟩ | ⟨hshut, hcut⟩ := x.cut_cases now q k j <;> rw [hcut]
  · rfl
  · split
    · rfl
    · rw [Option.any_some, ← Bool.not_eq_true, Filled.covers_iff]
      rintro ⟨-, -, hend⟩
      have := hend now rfl
      omega
  · rw [Option.any_some, ← Bool.not_eq_true, Filled.covers_iff]
    rintro ⟨hpos, -, hend⟩
    obtain ⟨e, he, hle⟩ := hshut hpos
    have := hend e he
    omega

/-- An entry cut covers the samples of before, up to two blocks back, and those of other positions, as it did. -/
theorem Filled.covers_cut_other {p c i : Nat} {at_ : Int} (hback : (now : Int) - 0x20000 ≤ at_)
    (h : at_ < now ∨ (p, c, i) ≠ (q, k, j)) : (x.cut now q k j).any (·.covers p c i at_) = x.covers p c i at_ := by
  obtain ⟨e, he, hold, hcut⟩ | ⟨⟨rfl, rfl, rfl⟩, hopen, hcut⟩ | ⟨hshut, hcut⟩ := x.cut_cases now q k j <;> rw [hcut]
  · rw [Option.any_none, eq_comm, ← Bool.not_eq_true, Filled.covers_iff]
    rintro ⟨-, -, hend⟩
    have := hend e he
    omega
  · rw [Bool.eq_iff_iff, Filled.covers_iff]
    split
    · simp only [Option.any_none, Bool.false_eq_true, false_iff]
      rintro ⟨⟨rfl, rfl, rfl⟩, hfrom, -⟩
      have : at_ < now := by simpa using h
      omega
    · rw [Option.any_some, Filled.covers_iff]
      refine and_congr_right fun hpos => and_congr_right fun _ => ?_
      obtain ⟨rfl, rfl, rfl⟩ := hpos
      have hlt : at_ < now := by simpa using h
      exact ⟨fun _ e he => by have := hopen e he; omega, fun _ e he => by injection he; omega⟩
  · rfl

end

section
variable (s : State) (q k j : Nat)

theorem State.filledAt_unfill (p c i : Nat) (at_ : Int) :
    (s.unfill q k j).filledAt p c i at_ = s.pool.filled.any (fun x => (x.cut s.time.now q k j).any (·.covers p c i at_)) :=
  List.any_filterMap ..

/-- Of the samples to come of a position filled from an instant on, those from that instant on are filled. -/
theorem State.filledAt_fill_same (a : Nat) {at_ : Int} (hat : (s.time.now : Int) ≤ at_) :
    (s.fill q k j a).filledAt q k j at_ = decide ((a : Int) ≤ at_) := by
  have hcut : (s.unfill q k j).filledAt q k j at_ = false := by
    rw [State.filledAt_unfill, List.any_eq_false]
    exact fun x _ => by rw [Filled.covers_cut_after x _ _ _ _ hat]; decide
  rw [State.filledAt_eq, State.fill, List.any_append, ← State.filledAt_eq, hcut]
  simp [Filled.covers]

theorem State.filledAt_fill_other {a p c i : Nat} (ha : s.time.now ≤ a) {at_ : Int} (hback : (s.time.now : Int) - 0x20000 ≤ at_)
    (h : at_ < s.time.now ∨ (p, c, i) ≠ (q, k, j)) : (s.fill q k j a).filledAt p c i at_ = s.filledAt p c i at_ := by
  have hnew : (⟨q, k, j, a, none⟩ : Filled).covers p c i at_ = false := by
    rw [← Bool.not_eq_true, Filled.covers_iff]
    rintro ⟨⟨rfl, rfl, rfl⟩, hfrom, -⟩
    have : at_ < s.time.now := by simpa using h
    exact absurd hfrom (by simp; omega)
  rw [State.filledAt_eq, State.fill, List.any_append, ← State.filledAt_eq, State.filledAt_unfill, State.filledAt_eq]
  simp only [Filled.covers_cut_other _ _ _ _ _ hback h, List.any_cons, List.any_nil, hnew, Bool.or_false]

end

/-- A position filled on top of other effects. -/
theorem Sets.fill {u t : State} {ws : List (Nat × Word)} (h : Sets u ws t) (q k j a : Nat) :
    Sets { u with pool := (t.fill q k j a).pool } ws (t.fill q k j a) := h.pool _

/-! ### Retirement (R111) -/

/-- A slice in service retired: its registers and its report, before its position is filled. -/
def State.retiredFrom (s : State) (q i cause : Nat) : State :=
  let t := ((s.setFld (slice q i) slice_STATE 4).setFld (slice q i) slice_CAUSE cause).setFlag (poolStatus q) poolStatus_RETIRE
  { t with pool := { t.pool with retired := s.pool.retired ++
    [⟨q, i, s.fld (slice q i) slice_CHAN, s.fld (slice q i) slice_POS, cause, s.time.tick, false⟩] } }

section
variable (s : State) (q i cause : Nat)

theorem State.retireSlice_of_active {s : State} {q i : Nat} (h : s.fld (slice q i) slice_STATE = 2) : s.retireSlice q i cause =
    (s.retiredFrom q i cause).fill q (s.fld (slice q i) slice_CHAN) (s.fld (slice q i) slice_POS) (s.time.now + 256) := by
  have hactive : (s.sliceState q i != 2) = false := by simp [State.sliceState, h]
  simp only [State.retireSlice, hactive]
  rfl

theorem State.sets_retiredFrom : Sets { s with pool := { s.pool with retired := (s.retiredFrom q i cause).pool.retired } }
    [(slice q i, slice_CAUSE.put (slice_STATE.put (s.reg (slice q i)) 4) cause),
     (poolStatus q, poolStatus_RETIRE.put (s.reg (poolStatus q)) 1)] (s.retiredFrom q i cause) := by
  have hne := (slice_ne_poolStatus q i).symm
  have hone : 2 ^ poolStatus_RETIRE.width - 1 = 1 := by decide
  have flagged := (((sets_refl s).setFld (slice q i) slice_STATE 4).setFld_again slice_CAUSE cause).setFlag (poolStatus q) poolStatus_RETIRE
  rw [wordAt_cons_other _ _ _ hne, hone] at flagged
  exact (flagged.swap hne).pool _

/-- The word of a retired slice. -/
theorem retired_word (w : Word) : slice_STATE.get (slice_CAUSE.put (slice_STATE.put w 4) cause) = 4 ∧
    slice_CAUSE.get (slice_CAUSE.put (slice_STATE.put w 4) cause) = cause % 16 := by
  rw [Fld.get_put_apart (by decide), Fld.get_put_same (by decide), Fld.get_put_same (by decide)]
  exact ⟨rfl, rfl⟩

end

/-! ### The end of a block (R110) -/

/-- The next block of a slice begun. -/
def State.nextBlock (s : State) (q i b : Nat) : State :=
  { s with pool := { s.pool with block := FMap.set (fun _ => none) s.pool.block (36 * q + i) (some (b + blockPeriods, false)) } }

theorem State.reg_nextBlock (s : State) (q i b o : Nat) : (s.nextBlock q i b).reg o = s.reg o := by
  unfold State.reg
  rfl

/-- The verdict on a block: its cause code, 0 where it passes. -/
def State.verdict (s : State) (q i b : Nat) (st : BlockStats) : Nat :=
  blockCause st (if s.chanCount q (s.fld (slice q i) slice_CHAN) < 2 then []
    else (st.others.filter (fun o => s.countsFor q i b o.1)).map (·.2))

/-- The end of a block: not judged, passed, failed, or failed for the third time. -/
def State.blockEnd (s : State) (q i b : Nat) (cold : Bool) (st : BlockStats) : State :=
  if cold = true ∨ st.limited = true ∨ s.blockMarked q (s.fld (slice q i) slice_CHAN) b = true then s.nextBlock q i b
  else if s.verdict q i b st = 0 then (s.nextBlock q i b).setFld (slice q i) slice_FAILS 0
  else if s.fld (slice q i) slice_FAILS < 2 then (s.nextBlock q i b).setFld (slice q i) slice_FAILS (s.fld (slice q i) slice_FAILS + 1)
  else ((s.nextBlock q i b).retiredFrom q i (s.verdict q i b st)).fill q (s.fld (slice q i) slice_CHAN) (s.fld (slice q i) slice_POS)
    (s.time.now + 256)

theorem exec_sliceBlockEnd {s : State} {q i b : Nat} {cold : Bool} (hq : q < s.part.quads) (hi : i < 36) (ht : s.boot.trip = false)
    (hactive : s.fld (slice q i) slice_STATE = 2) (hblock : FMap.get (fun _ => none) s.pool.block (36 * q + i) = some (b, cold))
    (hend : b + 8 * 2 * 4096 ≤ s.time.now) (st : BlockStats) :
    exec (.sliceBlockEnd q i st) s = .next (s.blockEnd q i b cold st) := by
  have hcome : s.come (b + blockPeriods) = true := State.come_of_running ht hend
  have hgo : (!s.hasQuad q || decide (36 ≤ i) || s.sliceState q i != 2 || !s.come (b + blockPeriods)) = false := by
    simp [State.hasQuad_eq_true hq, State.sliceState, hactive, hcome, hi]
  have hretire := State.retireSlice_of_active (s := s.nextBlock q i b) (cause := s.verdict q i b st) hactive
  simp only [exec, execSliceBlockEnd, hblock, hgo, Bool.false_eq_true, if_false, Bool.or_eq_true, or_assoc]
  unfold State.blockEnd
  split
  · rfl
  · split
    · next hpass =>
      rw [if_pos (show s.verdict q i b st = 0 from hpass)]
      rfl
    · next hfail =>
      rw [if_neg (show s.verdict q i b st ≠ 0 from hfail)]
      split
      · rfl
      · exact congrArg Host.Outcome.next hretire

section
variable {s : State} {q i b : Nat} {cold : Bool} {st : BlockStats}

theorem State.block_blockEnd (j : Nat) : FMap.get (fun _ => none) (s.blockEnd q i b cold st).pool.block j =
    if j = 36 * q + i then some (b + blockPeriods, false) else FMap.get (fun _ => none) s.pool.block j := by
  have hblock : (s.blockEnd q i b cold st).pool.block = (s.nextBlock q i b).pool.block := by
    unfold State.blockEnd
    split
    · rfl
    split
    · rfl
    split
    · rfl
    · rfl
  rw [hblock]
  exact FMap.get_set (fun _ => none) s.pool.block (36 * q + i) (some (b + blockPeriods, false)) j

theorem State.blockEnd_of_unjudged
    (h : cold = true ∨ st.limited = true ∨ s.blockMarked q (s.fld (slice q i) slice_CHAN) b = true) :
    s.blockEnd q i b cold st = s.nextBlock q i b := if_pos h

section
variable (hcold : cold = false) (hlim : st.limited = false) (hmark : s.blockMarked q (s.fld (slice q i) slice_CHAN) b = false)
include hcold hlim hmark

theorem State.blockEnd_of_pass (h : s.verdict q i b st = 0) :
    s.blockEnd q i b cold st = (s.nextBlock q i b).setFld (slice q i) slice_FAILS 0 := by
  simp [State.blockEnd, hcold, hlim, hmark, h]

theorem State.blockEnd_of_fail (h : s.verdict q i b st ≠ 0) (hf : s.fld (slice q i) slice_FAILS < 2) :
    s.blockEnd q i b cold st = (s.nextBlock q i b).setFld (slice q i) slice_FAILS (s.fld (slice q i) slice_FAILS + 1) := by
  simp [State.blockEnd, hcold, hlim, hmark, h, hf]

theorem State.blockEnd_of_third (h : s.verdict q i b st ≠ 0) (hf : 2 ≤ s.fld (slice q i) slice_FAILS) :
    s.blockEnd q i b cold st = ((s.nextBlock q i b).retiredFrom q i (s.verdict q i b st)).fill q (s.fld (slice q i) slice_CHAN)
      (s.fld (slice q i) slice_POS) (s.time.now + 256) := by
  simp [State.blockEnd, hcold, hlim, hmark, h, Nat.not_lt.mpr hf]

end
end

/-- Settles O9: a block ends in one of four ways, and the third failure retires the slice, whose position is filled
from 128 ns later on. -/
theorem sliceBlocks : Obligations.SliceBlocks := by
  unfold Obligations.SliceBlocks
  intro s q i b cold st hq hi ht hactive hblock hend
  refine ⟨_, exec_sliceBlockEnd hq hi ht hactive hblock hend st, fun j => State.block_blockEnd j, ?_⟩
  intro u k cause
  have hcause : cause = s.verdict q i b st := rfl
  refine ⟨fun h => ?unjudged, fun hcold hlim hmark => ⟨fun h => ?pass, fun h hf => ?fail, fun h hf => ?third⟩⟩
  case unjudged =>
    subst u
    rw [State.blockEnd_of_unjudged h]
    exact sets_refl _
  case pass =>
    subst u
    rw [State.blockEnd_of_pass hcold hlim hmark h]
    exact (sets_refl (s.nextBlock q i b)).setFld _ _ _
  case fail =>
    subst u
    rw [State.blockEnd_of_fail hcold hlim hmark h hf]
    exact (sets_refl (s.nextBlock q i b)).setFld _ _ _
  case third =>
    clear u
    rw [State.blockEnd_of_third hcold hlim hmark h hf, ← hcause]
    let r := (s.nextBlock q i b).retiredFrom q i cause
    have hsets := (s.nextBlock q i b).sets_retiredFrom q i cause
    simp only [State.reg_nextBlock] at hsets
    have hword : r.reg (slice q i) = slice_CAUSE.put (slice_STATE.put (s.reg (slice q i)) 4) cause := by
      rw [hsets.1, wordAt, if_pos rfl]
    obtain ⟨hstate, hcode⟩ := retired_word cause (s.reg (slice q i))
    rw [← hword] at hstate hcode
    refine ⟨hstate, hcode, ?_, ?_, ?_, ?_⟩
    · exact fun at_ hat => r.filledAt_fill_same q k _ _ hat
    · exact fun p c j at_ hback h => r.filledAt_fill_other q k _ (Nat.le_add_right ..) hback h
    · rfl
    · exact hsets.fill q k (s.fld (slice q i) slice_POS) (s.time.now + 256)

end Sys2Proof.Machine
end

section
/-! SUPPORT. Injected conversions: requests, their completion and their timeout (R119–R123). -/

namespace Sys2Proof.Machine

open Regs

theorem State.injOf_setInj (s : State) (q : Nat) (l : List InjReq) (p : Nat) :
    (s.setInj q l).injOf p = if p = q then l else s.injOf p := FMap.get_set ..

/-! ### Requests (R119, R123) -/

theorem exec_injReq {s : State} {f q : Nat} {v : Word} (hq : q < s.part.quads) (ho : s.open_ = true)
    (hm : s.mayInj f q (injReq_MON.get v) = true) : exec (.injReq f q v) s = .next (s.injSubmit f q v) := by
  show s.hostWrite _ = _
  rw [State.hostWrite_of_open ho, State.onlyIf, if_pos (State.hasQuad_eq_true hq)]
  simp only [State.writeInjReq, hm, if_true]

theorem State.injSubmit_of_pass {s : State} {q : Nat} {v : Word} (h : s.injError q (injReq_MON.get v) = 0) (f : Nat) :
    s.injSubmit f q v
      = s.injAccept q ⟨injReq_MON.get v, injReq_TAG.get v, injReq_IE.get v == 1, f + 1, s.time.bounds⟩ := by
  simp only [State.injSubmit, h]

theorem State.injSubmit_of_fail {s : State} {q : Nat} {v : Word} (h : s.injError q (injReq_MON.get v) ≠ 0) (f : Nat) :
    s.injSubmit f q v = ((s.setFlag (injStatus q) injStatus_REFUSED).setFld (injStatus q) injStatus_ERR
      (s.injError q (injReq_MON.get v))).raise (728 + q) 6 [s.injError q (injReq_MON.get v)] (f + 1) := by
  unfold State.injSubmit
  dsimp only
  split
  · next h0 => exact absurd h0 h
  · rfl

theorem State.injCount_injAccept (s : State) (q : Nat) (r : InjReq) (p : Nat) :
    FMap.get (fun _ => 0) (s.injAccept q r).pool.injCount p = FMap.get (fun _ => 0) s.pool.injCount p + flag (p == q) := by
  have hset : FMap.get (fun _ => 0) (s.injAccept q r).pool.injCount p
      = if p = q then FMap.get (fun _ => 0) s.pool.injCount q + 1 else FMap.get (fun _ => 0) s.pool.injCount p :=
    FMap.get_set (fun _ => 0) s.pool.injCount q (FMap.get (fun _ => 0) s.pool.injCount q + 1) p
  rw [hset]
  split
  · next h => simp [h, flag]
  · next h => simp [h, flag]

/-! ### Completion and timeout (R39, R120, R122) -/

/-- The result word of a request that ends with a status and a value. -/
def State.injWord (s : State) (q : Nat) (r : InjReq) (stat val : Nat) : Word :=
  injResult_VALUE.put (injResult_TAG.put (injResult_STAT.put (injResult_COUNT.put (s.reg (injResult q r.mon))
    (s.fld (injResult q r.mon) injResult_COUNT + 1)) stat) r.tag) val

/-- A request that Deogen did not make ends with its result and, where it asked for one, its event. -/
theorem State.injFinish_of_asked {r : InjReq} (hby : r.by_ ≠ 0) (s : State) (q stat val : Nat) : s.injFinish q r stat val =
    if r.ie = true then (s.setReg (injResult q r.mon) (s.injWord q r stat val)).raise (728 + q) 5
      [(s.injWord q r stat val).toNat, r.mon] r.by_
    else s.setReg (injResult q r.mon) (s.injWord q r stat val) := by
  simp only [State.injFinish, hby, false_and, if_false]
  rfl

theorem State.injFinish_effect {s : State} {q : Nat} (hq : q < s.part.quads) {r : InjReq} (hby : r.by_ ≠ 0) (stat val : Nat) :
    (s.injFinish q r stat val).pool = s.pool ∧
    (r.ie = true → Tells s [(injResult q r.mon, s.injWord q r stat val)] (728 + q) 5 [(s.injWord q r stat val).toNat, r.mon] r.by_
      (s.injFinish q r stat val)) ∧
    (r.ie = false → Sets s [(injResult q r.mon, s.injWord q r stat val)] (s.injFinish q r stat val)) := by
  have hsets := s.sets_setReg (injResult q r.mon) (s.injWord q r stat val)
  rw [State.injFinish_of_asked hby]
  refine ⟨?_, fun h => ?_, fun h => ?_⟩
  · split
    · rw [State.raise_pool]; rfl
    · rfl
  · rw [if_pos h]
    exact hsets.raise _ _ _ _ (sourcePresent_quad hq)
  · rw [if_neg (by simp [h])]
    exact hsets

/-- The oldest request served: it no longer waits, and the standby is free from the end of its conversion on. -/
def State.injServed (s : State) (q : Nat) (r : InjReq) (rest : List InjReq) : State :=
  ({ s with pool := { s.pool with injFree := FMap.set (fun _ => 0) s.pool.injFree q (s.injDue q r) } } : State).setInj q rest

theorem exec_injectedConversionDone {s : State} {q : Nat} {r : InjReq} {rest : List InjReq} (hq : q < s.part.quads)
    (hinj : s.injOf q = r :: rest) (hby : r.by_ ≠ 0) (ht : s.boot.trip = false) (hsb : (s.standby q).isSome = true)
    (hwhen : s.time.bounds = r.at_ + 1 ∧ s.injDue q r ≤ s.time.now ∨
      s.time.bounds = r.at_ + 2 ∧ s.time.sub = 0 ∧ s.injDue q r = s.time.now) (val : Nat) :
    exec (.injectedConversionDone q val) s = .next ((s.injServed q r rest).injFinish q r 1 val) := by
  have hcome : s.come (s.injDue q r) = true := State.come_of_running ht (by omega)
  have htick : (r.at_ + 1 == s.time.bounds || s.injAtLast q r) = true := by
    obtain ⟨hb, -⟩ | ⟨hb, hsub, hdue⟩ := hwhen
    · simp [hb]
    · simp [State.injAtLast, hsb, hb, hsub, hdue]
  have hgo : (s.hasQuad q && (r.at_ + 1 == s.time.bounds || s.injAtLast q r) && (s.standby q).isSome && s.come (s.injDue q r)) = true := by
    rw [State.hasQuad_eq_true hq, htick, hsb, hcome]; rfl
  simp only [exec, execInjectedConversionDone, hinj, hgo, if_true, hby, false_and, if_false]
  rfl

theorem exec_injectedConversionTimeout {s : State} {q : Nat} {r : InjReq} {rest : List InjReq} (hinj : s.injOf q = r :: rest)
    (hlate : r.at_ + 2 ≤ s.time.bounds) (hlast : s.injAtLast q r = false) :
    exec (.injectedConversionTimeout q) s = .next ((s.setInj q rest).injFinish q r 2 0) := by
  simp [exec, execInjectedConversionTimeout, hinj, hlate, hlast]

/-- Settles O10: a request is queued or refused by its checks, and ends with its result in the tick after its own, in the very cycle that ends
it, or without a value once that has passed. -/
theorem injectedConversions : Obligations.InjectedConversions := by
  unfold Obligations.InjectedConversions
  intro s q hq
  refine ⟨fun f v ho hm => ⟨fun hpass => ?queued, fun hfail => ?refused⟩, fun r rest w hinj hby => ⟨?done, ?timeout⟩⟩
  case queued =>
    rw [exec_injReq hq ho hm, State.injSubmit_of_pass hpass]
    exact ⟨_, rfl, s.injOf_setInj q _, s.injCount_injAccept q _, rfl⟩
  case refused =>
    rw [exec_injReq hq ho hm, State.injSubmit_of_fail hfail]
    have recorded := ((sets_refl s).setFlag (injStatus q) injStatus_REFUSED).setFld_again injStatus_ERR (s.injError q (injReq_MON.get v))
    exact ⟨_, rfl, recorded.raise _ _ _ _ (sourcePresent_quad hq)⟩
  case done =>
    rintro hwhen ht hsb val rfl
    obtain ⟨hpool, htells, hsets⟩ := State.injFinish_effect (s := s.injServed q r rest) hq hby 1 val
    refine ⟨_, exec_injectedConversionDone hq hinj hby ht hsb hwhen val, fun p => ?_, fun p => ?_, ?_⟩
    · rw [State.injOf, hpool]
      exact State.injOf_setInj ..
    · rw [hpool]
      exact FMap.get_set (fun _ => 0) s.pool.injFree q (s.injDue q r) p
    · rw [hpool]
      exact ⟨htells, hsets⟩
  case timeout =>
    rintro hlate hlast rfl
    obtain ⟨hpool, htells, hsets⟩ := State.injFinish_effect (s := s.setInj q rest) hq hby 2 0
    refine ⟨_, exec_injectedConversionTimeout hinj hlate hlast, fun p => ?_, ?_⟩
    · rw [State.injOf, hpool]
      exact State.injOf_setInj ..
    · rw [hpool]
      exact ⟨htells, hsets⟩

end Sys2Proof.Machine
end

section
/-! SUPPORT. Chains: their commands, and the end of their stop (R180, R182, R185). -/

namespace Sys2Proof.Machine

open Regs

/-! ### The chains of a part, and what they hold -/

theorem Part.chains_le (p : Part) : p.chains ≤ 80 := by cases p <;> decide

theorem State.hasChain_eq_true {s : State} {n : Nat} (hn : n < s.part.chains) : s.hasChain n = true := decide_eq_true hn

/-- The source of a chain's events is there where the chain is (R454). -/
theorem sourcePresent_chain {p : Part} {n : Nat} (hn : n < p.chains) : sourcePresent p (648 + n) = true := by
  have h80 := p.chains_le
  unfold sourcePresent
  repeat rw [if_neg (by omega)]
  rw [if_pos (by omega), Nat.add_sub_cancel_left]
  exact decide_eq_true hn

theorem State.chain_setChain (s : State) (n : Nat) (x : ChainSt) (m : Nat) :
    (s.setChain n x).chain m = if m = n then x else s.chain m := FMap.get_set ..

/-! ### Start and stop (R180, R190) -/

theorem State.tells_refuseChain {s : State} {n : Nat} (hn : n < s.part.chains) :
    Tells s [(chainStatus n, chainStatus_REFUSED.put (s.reg (chainStatus n)) 1)] (648 + n) 2 [] 15 (s.refuseChain n) :=
  ((sets_refl s).setFlag (chainStatus n) chainStatus_REFUSED).raise _ _ _ _ (sourcePresent_chain hn)

section
variable {s : State} {f n : Nat} {v : Word} (hn : n < s.part.chains) (ho : s.open_ = true) (hown : s.ownChain n = f + 1)
include hn ho hown

/-- A write to a register of a chain by its owner. -/
theorem State.hostWrite_ownChain (a : Nat) (w : Word) (t : State) :
    s.hostWrite (s.onlyIf (s.hasChain n) (s.allowed (s.ownChain n == f + 1) f a w t)) = .next t := by
  rw [State.hostWrite_of_open ho, State.onlyIf, if_pos (State.hasChain_eq_true hn), State.allowed_of_true (by simp [hown])]

theorem exec_chainStart (hstop : chainCmd_STOP.get v = 0) : exec (.chainStart f n v) s = .next
    (if s.fld (chainStatus n) chainStatus_STATE = 0 then s.setFld (chainStatus n) chainStatus_STATE 1 else s.refuseChain n) := by
  have hset : chainCmd_START.get (chainCmd_START.put v 1) = 1 := Fld.get_put_same (by decide) v 1
  have hkept : chainCmd_STOP.get (chainCmd_START.put v 1) = 0 := by rw [Fld.get_put_apart (by decide), hstop]
  refine (State.hostWrite_ownChain hn ho hown (chainCmd n) _ _).trans ?_
  simp only [hset, hkept]
  rfl

theorem exec_chainStop (hstart : chainCmd_START.get v = 0) : exec (.chainStop f n v) s = .next
    (if s.fld (chainStatus n) chainStatus_STATE = 1 then s.setFld (chainStatus n) chainStatus_STATE 0
      else if s.fld (chainStatus n) chainStatus_STATE = 2 then s.setChain n { s.chain n with stop := true } else s.refuseChain n) := by
  have hset : chainCmd_STOP.get (chainCmd_STOP.put v 1) = 1 := Fld.get_put_same (by decide) v 1
  have hkept : chainCmd_START.get (chainCmd_STOP.put v 1) = 0 := by rw [Fld.get_put_apart (by decide), hstart]
  refine (State.hostWrite_ownChain hn ho hown (chainCmd n) _ _).trans ?_
  simp only [hset, hkept]
  rfl

/-! ### Swaps (R185) -/

/-- A write of SWITCH with GO leaves its register by the field map, and the request of the partner with the chain. -/
theorem exec_switchGo : exec (.switchGo f n v) s = .next
    ((s.setReg (chainSwitch n) (chainSwitchDesc.write (s.reg (chainSwitch n)) (chainSwitch_GO.put v 1))).setChain n
      { s.chain n with switch := some (chainSwitch_PARTNER.get v) }) := by
  have hgo : chainSwitch_GO.get (chainSwitch_GO.put v 1) = 1 := Fld.get_put_same (by decide) v 1
  have hpartner : chainSwitch_PARTNER.get (chainSwitch_GO.put v 1) = chainSwitch_PARTNER.get v := Fld.get_put_apart (by decide) v 1
  refine (State.hostWrite_ownChain hn ho hown (chainSwitch n) _ _).trans ?_
  rw [State.writeReg_of_not_timed (by decide), State.effective_of_no_w1c (by decide)]
  simp only [hgo, hpartner, if_true]
  rfl

end

/-- PARTNER reads as written. -/
theorem chainSwitch_PARTNER_write (w v : Word) :
    chainSwitch_PARTNER.get (chainSwitchDesc.write w v) = chainSwitch_PARTNER.get v := by
  have hrw : chainSwitchDesc.bits .rw = 0x7F#32 := by decide
  have hrwt : chainSwitchDesc.bits .rwt = 0#32 := by decide
  have hbits : ∀ i < 7, (0x7F#32 : Word).getLsbD (0 + i) = true := by decide
  refine Fld.get_congr fun i hi => ?_
  have hset : (0x7F#32 : Word).getLsbD (chainSwitch_PARTNER.lo + i) = true := hbits i hi
  simp only [Desc.write, hrw, hrwt, BitVec.or_zero, BitVec.getLsbD_or, BitVec.getLsbD_and, BitVec.getLsbD_not, hset]
  simp

/-! ### The end of a stop (R182) -/

theorem exec_chainStopped {s : State} {n : Nat} (hn : n < s.part.chains) (hstate : s.fld (chainStatus n) chainStatus_STATE = 3)
    (hat : (s.chain n).stopAt + 400 ≤ s.time.now) : exec (.chainStopped n) s
      = .next (((s.setChain n (s.chain n).cleared).setFld (chainStatus n) chainStatus_STATE 0).raise (648 + n) 5) := by
  have hgo : (s.hasChain n && s.chainState n == 3 && decide ((s.chain n).stopAt + 400 ≤ s.time.now)) = true := by
    simp [State.hasChain_eq_true hn, State.chainState, hstate, hat]
  simp only [exec, execChainStopped, State.onlyIf, hgo, if_true]
  rfl

/-- Settles O15: each clause is the lemma that says what its command does, with the effect of the field, flag or chain that it sets. -/
theorem chainCommands : Obligations.ChainCommands := by
  unfold Obligations.ChainCommands
  intro s n hn
  refine ⟨fun f v ho hown => ⟨?start, ?startRefused, ?stopArmed, ?stopRunning, ?switch⟩, ?stopped⟩
  case start =>
    intro hstop hstate
    rw [exec_chainStart hn ho hown hstop, if_pos hstate]
    exact ⟨_, rfl, (sets_refl s).setFld _ _ _⟩
  case startRefused =>
    intro hstop hstate
    rw [exec_chainStart hn ho hown hstop, if_neg hstate]
    exact ⟨_, rfl, State.tells_refuseChain hn⟩
  case stopArmed =>
    intro hstart hstate
    rw [exec_chainStop hn ho hown hstart, if_pos hstate]
    exact ⟨_, rfl, (sets_refl s).setFld _ _ _⟩
  case stopRunning =>
    intro hstart hstate
    rw [exec_chainStop hn ho hown hstart, if_neg (by omega), if_pos hstate]
    exact ⟨_, rfl, s.chain_setChain n _, rfl⟩
  case switch =>
    rw [exec_switchGo hn ho hown]
    let w := chainSwitchDesc.write (s.reg (chainSwitch n)) (chainSwitch_GO.put v 1)
    have hword : (s.setReg (chainSwitch n) w).reg (chainSwitch n) = w := State.reg_setReg_same ..
    refine ⟨_, rfl, ?_, State.chain_setChain _ n _, ?_⟩
    · show chainSwitch_PARTNER.get ((s.setReg (chainSwitch n) w).reg (chainSwitch n)) = _
      rw [hword, chainSwitch_PARTNER_write, Fld.get_put_apart (by decide)]
    · show Sets _ [(chainSwitch n, (s.setReg (chainSwitch n) w).reg (chainSwitch n))] _
      rw [hword]
      exact (s.sets_setReg _ w).chains _
  case stopped =>
    intro hstate hat
    rw [exec_chainStopped hn hstate hat]
    have hchains (m : Nat) : (((s.setChain n (s.chain n).cleared).setFld (chainStatus n) chainStatus_STATE 0).raise (648 + n) 5).chain m
        = if m = n then (s.chain n).cleared else s.chain m := by
      rw [State.chain, State.raise_chains]
      exact s.chain_setChain n _ m
    refine ⟨_, rfl, fun m hm => by rw [hchains, if_neg hm], ?_⟩
    rw [hchains, if_pos rfl, State.raise_chains]
    exact ⟨rfl, rfl, rfl, rfl, rfl,
      (((sets_refl s).chains _).setFld (chainStatus n) chainStatus_STATE 0).raise _ _ _ _ (sourcePresent_chain hn)⟩

end Sys2Proof.Machine
end

section
/-! SUPPORT. Inputs of a running chain (R161, R188, R411). -/

namespace Sys2Proof.Machine

open Regs

/-- An input that comes within the tick to a running chain whose source converts is taken, and its coarse comparator may trigger (R411). -/
theorem exec_chainInputSample {s : State} {n c i : Nat} (hn : n < s.part.chains) (hstate : s.fld (chainStatus n) chainStatus_STATE = 2)
    (hc : c = s.cur (chainSrc n) chainSrc_CH) (hstep : s.chanStep c ≠ 0) (hclock : s.time.clock = .running) (htrip : s.boot.trip = false)
    (hpower : s.powerOf (c / 4) = .on) (hi : i = max (s.chain n).next (s.baseIndex c + s.time.sub / s.chanStep c))
    (hlen : (i - s.baseIndex c) * s.chanStep c < s.tickLength) (xs : List Int) : exec (.chainInputSample n xs) s
      = .next (s.riseTriggers (s.chainTake n c i ((i - s.baseIndex c) * s.chanStep c) xs) (0x80 + n)) := by
  subst hc hi
  have hgo : (s.hasChain n && s.chainState n == 2 && s.chanStep (s.cur (chainSrc n) chainSrc_CH) != 0 && s.ticking && s.clocked
      && s.powerOf (s.cur (chainSrc n) chainSrc_CH / 4) == .on) = true := by
    simp [State.hasChain_eq_true hn, State.chainState, hstate, hstep, State.ticking, hclock, State.clocked, htrip, hpower]
  simp only [exec, execChainInputSample, State.onlyIf, hgo, hlen, decide_true, Bool.and_self, if_true]

/-- A source that is at 1 already does not rise (R316). -/
theorem State.riseTriggers_of_high {s : State} {src : Nat} (h : s.sourceLevel src = true) (u : State) : s.riseTriggers u src = u :=
  (s.riseTriggers_cases u src).resolve_right fun ⟨hlow, _⟩ => by simp [h] at hlow

/-! ### An open packet for a stray NI number

An open packet keeps the streams that it goes out on, and `State` leaves the source NI of each any number; `Obligations.ChainInputs` speaks
of every state. The packet of `strayPacketState` is for `strayStream`, whose NI number 0xFF07 lies beyond the 256 NIs of the device (R365).
The chain's own stream is another one by now, so an output of the chain sends the packet first; no route table has an entry for it, and the
error registers in which that is recorded fall outside those of the NIs. -/

/-- The stream in force of chain 0, out of its own NI. -/
def chainStream : PlacedEdge := { strayStream with ed := { strayStream.ed with fromPort := 1 }, src := niChain 0 }

/-- The graph of that stream, running, with one element, placed on chain 0. -/
def chainGraph : Graph :=
  { strayGraph with
    elems := [{ el := { id := 0, kind := 3, pin := 0, params := [] }, unit := 0x3000, since := 0, flags := 0, stream := 0, movedAt := none }]
    edges := [chainStream] }

/-- Chain 0 runs on channel 0 with its comparator's output at 1, so that nothing rises; one word waits in its packet for the stray stream. -/
def strayPacketState : State :=
  { ((State.reset.setFld (chPool 0 0) chPool_NCODE 1).setFld (chainStatus 0) chainStatus_STATE 2).setFld (coarse 0) coarse_OUT 1 with
    time := { State.reset.time with clock := .running }
    chains := [(0, { idleChain with pkt := [(0, 0)], pktTo := [strayStream] })]
    wheel := { State.reset.wheel with graphs := [chainGraph] } }

/-- The next input of chain 0 is sample 0 of channel 0, and it can come. -/
theorem strayPacketState_awaits_input : let s := strayPacketState
    0 < s.part.chains ∧ s.fld (chainStatus 0) chainStatus_STATE = 2 ∧ 0 = s.cur (chainSrc 0) chainSrc_CH ∧ s.chanStep 0 ≠ 0 ∧
      s.time.clock = .running ∧ s.boot.trip = false ∧ s.powerOf (0 / 4) = .on ∧
      0 = max (s.chain 0).next (s.baseIndex 0 + s.time.sub / s.chanStep 0) ∧ (0 - s.baseIndex 0) * s.chanStep 0 < s.tickLength ∧
      s.sourceLevel (0x80 + 0) = true := by decide +kernel

/-- The input completes an output, the open packet is refused, and POINT of the refusal is recorded over PIN_CFG of pin 28. -/
theorem strayPacketState_input_writes_pinCfg : niErrPoint 0xFF07 = pinCfg 0 28 ∧ strayPacketState.reg (pinCfg 0 28) = 0x5000 ∧
    (strayPacketState.chainTake 0 0 0 0 []).reg (pinCfg 0 28) = 7 := by decide +kernel

/-- Refutes O16, by its frame of the registers that an input may write: in `strayPacketState` an input of chain 0 writes one that is none of
the chain's, the fault log's or the NIs'. The state names an NI that the device has not. -/
theorem not_chainInputs : ¬ Obligations.ChainInputs := by
  unfold Obligations.ChainInputs
  intro h
  obtain ⟨hn, hstate, hc, hstep, hclock, htrip, hpower, hi, hlen, hhigh⟩ := strayPacketState_awaits_input
  obtain ⟨-, hbefore, hafter⟩ := strayPacketState_input_writes_pinCfg
  obtain ⟨hinput, -⟩ := h strayPacketState 0 hn
  obtain ⟨t, hnext, -, -, -, -, hframe, -⟩ := hinput [] 0 0 hstate hc hstep hclock htrip hpower hi hlen
  rw [exec_chainInputSample hn hstate hc hstep hclock htrip hpower hi hlen, State.riseTriggers_of_high hhigh,
    State.riseTriggers_of_high hhigh, Nat.zero_sub, Nat.zero_mul] at hnext
  have hkept : t.reg (pinCfg 0 28) = strayPacketState.reg (pinCfg 0 28) :=
    hframe (pinCfg 0 28) (by decide) (by decide) (by decide) (by decide)
  rw [← Host.Outcome.next.inj hnext, hafter, hbefore] at hkept
  exact absurd hkept (by decide)

end Sys2Proof.Machine
end

section
/-! SUPPORT. Events that are heard, descriptors that are completed, and commands whose turn has come (R433–R438, R451, R461, R463). -/

namespace Sys2Proof.Machine

open Regs

/-! ### Events heard (R459–R463) -/

theorem mem_insertEvent {e x : Event} {l : List Event} : x ∈ insertEvent e l ↔ x = e ∨ x ∈ l := by
  induction l with
  | nil => simp [insertEvent]
  | cons y l ih =>
    unfold insertEvent
    split
    · simp
    · rw [List.mem_cons, List.mem_cons, ih]
      exact or_left_comm

/-- An event that is put into a queue leaves in it what it held. -/
theorem mem_ite_insertEvent {e x : Event} {l : List Event} (h : e ∈ l) (c : Prop) [Decidable c] : e ∈ if c then insertEvent x l else l := by
  split
  · exact mem_insertEvent.mpr (.inr h)
  · exact h

theorem State.mem_queueOf_raise {s : State} {e : Event} {f : Nat} (he : e ∈ s.queueOf f) (src rsn : Nat) (args : List Nat) (whom : Nat)
    (slot : Option Nat) (logged : Bool) : e ∈ (s.raise src rsn args whom slot logged).queueOf f := by
  by_cases hp : sourcePresent s.part src = true
  · rw [State.queueOf_raise _ _ _ _ _ _ _ hp]
    exact mem_ite_insertEvent he _
  · rw [State.raise, if_neg hp]
    exact he

theorem heard_raise {s : State} {src : Nat} (hp : sourcePresent s.part src = true) (rsn : Nat) (args : List Nat) (whom : Nat)
    (slot : Option Nat) (logged : Bool) : Heard (s.raise src rsn args whom slot logged) src rsn (args.getD 0 0) whom := by
  intro f hto hen
  rw [State.recipients_congr (State.raise_regs ..)] at hto
  rw [State.enabled_congr (State.raise_regs ..)] at hen
  refine ⟨s.eventOf src rsn args whom slot, ?_, rfl, rfl, rfl, ?_⟩
  · rw [State.queueOf_raise _ _ _ _ _ _ _ hp, if_pos]
    · exact mem_insertEvent.mpr (.inl rfl)
    · rw [hen, Bool.and_true, List.contains_iff_mem, List.mem_append]
      exact .inr (List.contains_iff_mem.mp hto)
  · rw [State.raise_time]
    exact ⟨rfl, rfl⟩

/-- What has been heard stays heard when another event is raised. -/
theorem Heard.raise {t : State} {src rsn a0 whom : Nat} (h : Heard t src rsn a0 whom) (src' rsn' : Nat) (args : List Nat) (whom' : Nat)
    (slot : Option Nat) (logged : Bool) : Heard (t.raise src' rsn' args whom' slot logged) src rsn a0 whom := by
  intro f hto hen
  rw [State.recipients_congr (State.raise_regs ..)] at hto
  rw [State.enabled_congr (State.raise_regs ..)] at hen
  obtain ⟨e, he, hfields⟩ := h f hto hen
  refine ⟨e, State.mem_queueOf_raise he .., ?_⟩
  rw [State.raise_time]
  exact hfields

/-- A completion speaks only of the functions of the state before it. -/
theorem Completed.congr {s u t : State} {f : Nat} {d : HostDesc} {status result detail xfer tick : Nat}
    (h : Completed u t f d status result detail xfer tick) (hfns : u.fns = s.fns) : Completed s t f d status result detail xfer tick := by
  obtain ⟨hcmds, hrest⟩ := h
  exact ⟨hcmds.trans (by rw [State.fn, hfns]; rfl), hrest⟩

theorem Completed.raise {s t : State} {f : Nat} {d : HostDesc} {status result detail xfer tick : Nat}
    (h : Completed s t f d status result detail xfer tick) (src rsn : Nat) (args : List Nat) (whom : Nat) (slot : Option Nat) (logged : Bool) :
    Completed s (t.raise src rsn args whom slot logged) f d status result detail xfer tick := by
  obtain ⟨hcmds, hout, hfail, hdone, hdata⟩ := h
  refine ⟨?_, ?_, fun hs => (hfail hs).raise _ _ _ _ _ _, fun hs hie hr => (hdone hs hie hr).raise _ _ _ _ _ _,
    fun hie hr => (hdata hie hr).raise _ _ _ _ _ _⟩
  · rw [State.fn, State.raise_fns]
    exact hcmds
  · rw [State.raise_out]
    exact hout

/-! ### Completions (R435, R437, R451) -/

theorem OnlyLogs.fns {s t : State} (h : OnlyLogs s t) : t.fns = s.fns := by
  have := congrArg State.fns h.2.eq
  exact this

theorem OnlyLogs.wheel {s t : State} (h : OnlyLogs s t) : t.wheel = s.wheel := by
  have := congrArg State.wheel h.2.eq
  exact this

section

variable (s : State) (f : Nat) (d : HostDesc) (status result detail xfer tick : Nat)

theorem State.fn_setFn (x : FnSt) (g : Nat) : (s.setFn f x).fn g = if g = f then x else s.fn g := FMap.get_set ..

theorem State.fn_takeDesc : (s.takeDesc f d).fn f = { s.fn f with cmds := (s.fn f).cmds.erase d } := by
  rw [State.takeDesc, State.fn_setFn, if_pos rfl]

/-- A completion written, with what an OWNER status brings (R470, R474), before its events. -/
def State.writeCompletion : State :=
  let t := s.emit (.hostWrite f (d.addr + 0x30) (completion status result detail xfer tick))
  if status ≠ 4 then t
  else t.report ⟨3, f + 1, 15, 860, d.addr, d.ringCode * 0x10000 + d.slot, 4, d.code, s.time.tick⟩ 860 3
    [d.addr % 0x100000000, d.ringCode * 0x10000 + d.slot, 4 * 0x100 + d.code] (f + 1)

/-- A completion written, with CMD_ERR where it fails (R437). -/
def State.failCompletion : State :=
  let t := s.writeCompletion f d status result detail xfer tick
  if status = 0 then t else t.raise (832 + 2 * f) 2 [d.tag, status, d.ringCode * 0x10000 + d.slot] (f + 1)

theorem State.finishNow_eq : s.finishNow f d status result detail xfer tick =
    let t := s.failCompletion f d status result detail xfer tick
    if !d.ie then t
    else if d.ring ≠ 0 then t.raise (833 + 2 * f) 1 [d.ring - 1, d.tag, d.slot] (f + 1)
    else if status = 0 then t.raise (832 + 2 * f) 1 [d.tag, status, d.slot] (f + 1) else t := rfl

/-- What a completion raises beside CMD_ERR is one event at most. -/
theorem State.finishNow_cases : let t := s.failCompletion f d status result detail xfer tick
    s.finishNow f d status result detail xfer tick = t ∨
      ∃ src args, s.finishNow f d status result detail xfer tick = t.raise src 1 args (f + 1) := by
  rw [State.finishNow_eq]
  dsimp only
  split
  · exact .inl rfl
  · split
    · exact .inr ⟨_, _, rfl⟩
    · split
      · exact .inr ⟨_, _, rfl⟩
      · exact .inl rfl

theorem State.writeCompletion_of_not_owner (h : status ≠ 4) : s.writeCompletion f d status result detail xfer tick =
    s.emit (.hostWrite f (d.addr + 0x30) (completion status result detail xfer tick)) := if_pos h

/-- A completion that is written reaches the host memory and the event queues, and where its status is OWNER the fault log. -/
theorem State.onlyLogs_finishNow : OnlyLogs (s.emit (.hostWrite f (d.addr + 0x30) (completion status result detail xfer tick)))
    (s.finishNow f d status result detail xfer tick) := by
  generalize ht : s.emit (.hostWrite f (d.addr + 0x30) (completion status result detail xfer tick)) = t
  have hwritten : OnlyLogs t (s.writeCompletion f d status result detail xfer tick) := by
    subst ht
    unfold State.writeCompletion
    dsimp only
    split
    · exact .refl _
    · exact State.onlyLogs_report _ _ _ _ _ _
  have hfailed : OnlyLogs t (s.failCompletion f d status result detail xfer tick) := by
    unfold State.failCompletion
    dsimp only
    split
    · exact hwritten
    · exact hwritten.raise ..
  obtain h | ⟨src, args, h⟩ := s.finishNow_cases f d status result detail xfer tick
  · exact h ▸ hfailed
  · exact h ▸ hfailed.raise ..

theorem State.finishNow_frame (h : status ≠ 4) : s.finishNow f d status result detail xfer tick =
    { s with out := (s.finishNow f d status result detail xfer tick).out, events := (s.finishNow f d status result detail xfer tick).events } := by
  have hfailed : s.failCompletion f d status result detail xfer tick =
      { s with out := (s.failCompletion f d status result detail xfer tick).out
               events := (s.failCompletion f d status result detail xfer tick).events } := by
    rw [State.failCompletion, State.writeCompletion_of_not_owner _ _ _ _ _ _ _ _ h]
    split
    · rfl
    · rw [State.raise_eq]; rfl
  obtain h | ⟨src, args, h⟩ := s.finishNow_cases f d status result detail xfer tick
  · rw [h]; exact hfailed
  · rw [h, State.raise_eq, hfailed]

/-- A completion changes the function's own state, what goes out and what is raised; only one of status OWNER enters the fault log. -/
theorem State.completeDesc_frame (h : status ≠ 4) : s.completeDesc f d status result detail xfer tick =
    { s with fns := (s.completeDesc f d status result detail xfer tick).fns
             out := (s.completeDesc f d status result detail xfer tick).out
             events := (s.completeDesc f d status result detail xfer tick).events } := by
  unfold State.completeDesc State.finish
  dsimp only
  split
  · rfl
  · rw [State.finishNow_frame _ _ _ _ _ _ _ _ h]; rfl

@[simp] theorem State.completeDesc_wheel : (s.completeDesc f d status result detail xfer tick).wheel = s.wheel := by
  unfold State.completeDesc State.finish
  dsimp only
  split
  · rfl
  · exact ((s.takeDesc f d).onlyLogs_finishNow f d status result detail xfer tick).wheel

end

theorem State.completeDesc_of_awake {s : State} {f : Nat} (hs : (s.fn f).silent = false) (d : HostDesc) (status result detail xfer tick : Nat) :
    s.completeDesc f d status result detail xfer tick = (s.takeDesc f d).finishNow f d status result detail xfer tick := by
  have hawake : ((s.takeDesc f d).fn f).silent = false := by rw [s.fn_takeDesc f d]; exact hs
  simp only [State.completeDesc, State.finish, hawake, Bool.false_eq_true, if_false]

theorem State.completeDesc_out {s : State} {f : Nat} (hs : (s.fn f).silent = false) (d : HostDesc) (status result detail xfer tick : Nat) :
    (s.completeDesc f d status result detail xfer tick).out =
      .hostWrite f (d.addr + 0x30) (completion status result detail xfer tick) :: s.out := by
  rw [State.completeDesc_of_awake hs, ((s.takeDesc f d).onlyLogs_finishNow f d status result detail xfer tick).out]
  rfl

/-- The sources of the host functions and of the Wheel are those of every part (R455). -/
theorem sourcePresent_of_ge {p : Part} {src : Nat} (h : 760 ≤ src) (hlt : src < 866) : sourcePresent p src = true := by
  unfold sourcePresent
  iterate 6 rw [if_neg (by omega)]
  exact decide_eq_true hlt

theorem completed_completeDesc {s : State} {f : Nat} {d : HostDesc} (hf : f < 8) (hs : (s.fn f).silent = false)
    (status result detail xfer tick : Nat) :
    Completed s (s.completeDesc f d status result detail xfer tick) f d status result detail xfer tick := by
  have hcmd (p : Part) : sourcePresent p (832 + 2 * f) = true := sourcePresent_of_ge (by omega) (by omega)
  have hring (p : Part) : sourcePresent p (833 + 2 * f) = true := sourcePresent_of_ge (by omega) (by omega)
  refine ⟨?taken, ?written, fun hstatus => ?failed, fun hstatus hie hr => ?done, fun hie hr => ?data⟩
  case taken =>
    rw [State.completeDesc_of_awake hs, State.fn, ((s.takeDesc f d).onlyLogs_finishNow f d status result detail xfer tick).fns]
    exact congrArg FnSt.cmds (s.fn_takeDesc f d)
  case written =>
    rw [State.completeDesc_out hs]
    exact List.mem_cons_self
  case failed =>
    rw [State.completeDesc_of_awake hs]
    have hheard : Heard ((s.takeDesc f d).failCompletion f d status result detail xfer tick) (832 + 2 * f) 2 d.tag (f + 1) := by
      rw [State.failCompletion, if_neg hstatus]
      exact heard_raise (hcmd _) _ _ _ _ _
    obtain h | ⟨src, args, h⟩ := (s.takeDesc f d).finishNow_cases f d status result detail xfer tick
    · rw [h]; exact hheard
    · rw [h]; exact hheard.raise _ _ _ _ _ _
  case done =>
    rw [State.completeDesc_of_awake hs, State.finishNow_eq, hie, if_neg (by decide), if_neg (fun hne => hne hr), if_pos hstatus]
    exact heard_raise (hcmd _) _ _ _ _ _
  case data =>
    rw [State.completeDesc_of_awake hs, State.finishNow_eq, hie, if_neg (by decide), if_pos hr]
    exact heard_raise (hring _) _ _ _ _ _

/-! ### Commands whose turn has come (R433, R436, R525) -/

section

variable {s : State} {f code : Nat} {d : HostDesc}

/-- While the ROM is alone no command is ready but those that it accepts. -/
theorem CommandReady.not_romAlone (h : CommandReady s f code d) (hcode : romAccepts code = false) : s.romAlone = false := by
  obtain ⟨-, -, -, hrom, -⟩ := h
  cases hs : s.romAlone with
  | false => rfl
  | true => exact absurd (hrom hs) (by rw [hcode]; exact Bool.false_ne_true)

theorem State.command_of_ready (h : CommandReady s f code d) (hcode : romAccepts code = false) (run : HostDesc → State) :
    s.command f code run = .next (run d) := by
  have hrom := h.not_romAlone hcode
  obtain ⟨-, -, hnext, -, hjudge⟩ := h
  simp only [State.command, hnext, hrom, hjudge, Bool.false_and, Bool.false_eq_true, if_false]

theorem State.wheelCommand_of_ready (h : CommandReady s f code d) (hcode : romAccepts code = false) (hturn : s.wheelTurn f d = true)
    (alone run : HostDesc → State) : s.wheelCommand f code alone run = .next (run d) := by
  have hrom := h.not_romAlone hcode
  obtain ⟨-, -, hnext, -, -⟩ := h
  simp only [State.wheelCommand, hnext, hrom, hturn, Bool.not_true, Bool.false_and, Bool.false_eq_true, if_false]

theorem State.graphCommand_of_ready (h : CommandReady s f code d) (hcode : romAccepts code = false) (hturn : s.wheelTurn f d = true)
    (run : HostDesc → State) : s.graphCommand f code run = .next (run d) := by
  obtain ⟨-, -, -, -, hjudge⟩ := id h
  rw [State.graphCommand, State.wheelCommand_of_ready h hcode hturn, if_pos hjudge]

end

end Sys2Proof.Machine
end

section
/-! SUPPORT. Graphs that the Wheel holds, and the commands about them: submit, change, stop, heat policy and placement map (R265–R269,
R277, R280–R285, R291, R293). -/

namespace Sys2Proof.Machine

open Regs

/-! ### Graphs held (R265) -/

theorem State.mem_graphs {s : State} {g : Graph} : g ∈ s.graphs ↔ g ∈ s.wheel.graphs ∧ g.phase ≠ .stopped := by
  simp [State.graphs]

theorem State.of_graphAt {s : State} {f h : Nat} {g : Graph} (hg : s.graphAt f h = some g) : g ∈ s.graphs ∧ g.fn = f ∧ g.handle = h := by
  have hkey := List.find?_some hg
  simp only [Bool.and_eq_true, beq_iff_eq] at hkey
  exact ⟨List.mem_of_find?_eq_some hg, hkey⟩

theorem State.graphAt_congr {s t : State} (hw : t.wheel = s.wheel) (f h : Nat) : t.graphAt f h = s.graphAt f h := by
  simp only [State.graphAt, State.graphs, hw]

/-- A graph that has not stopped, put in its place, is found there. -/
theorem State.graphAt_putGraph (s : State) {g : Graph} (hp : g.phase ≠ .stopped) : (s.putGraph g).graphAt g.fn g.handle = some g := by
  have hothers : (((s.wheel.graphs.filter (fun x => !(x.fn == g.fn && x.handle == g.handle))).filter (fun x => x.phase ≠ .stopped)).find?
      (fun x => x.fn == g.fn && x.handle == g.handle)) = none := by
    rw [List.find?_eq_none]
    intro x hx
    have hother := (List.mem_filter.mp (List.mem_filter.mp hx).1).2
    rw [Bool.not_eq_true'] at hother
    rw [hother]
    exact Bool.false_ne_true
  simp only [State.graphAt, State.graphs, State.putGraph, List.filter_append, List.find?_append, hothers]
  simp [hp]

/-! ### Events of the Wheel (R267, R293) -/

theorem State.wheelEvent_eq (s : State) (f h reason item x : Nat) :
    s.wheelEvent f h reason item x = { s with events := (s.wheelEvent f h reason item x).events } := State.raise_eq ..

@[simp] theorem State.wheelEvent_wheel (s : State) (f h reason item x : Nat) : (s.wheelEvent f h reason item x).wheel = s.wheel :=
  State.raise_wheel ..

theorem heard_wheelEvent (s : State) (f h reason item x : Nat) : Heard (s.wheelEvent f h reason item x) 858 reason h (f + 1) :=
  heard_raise (sourcePresent_of_ge (by decide) (by decide)) _ _ _ _ _

theorem Completed.wheelEvent {s t : State} {f : Nat} {d : HostDesc} {status result detail xfer tick : Nat}
    (h : Completed s t f d status result detail xfer tick) (g handle reason item x : Nat) :
    Completed s (t.wheelEvent g handle reason item x) f d status result detail xfer tick := h.raise ..

section

variable {s : State} {f : Nat} {d : HostDesc} {b : List Byte} {file : GraphFile} {old : Option Graph}

/-- A refusal: no graph is touched, the code and the item stand in the completion, and REFUSED is raised (R267). -/
theorem State.refuseGraph_effect (hf : f < 8) (hs : (s.fn f).silent = false) (code item len : Nat) :
    (s.refuseGraph f d code item len).wheel = s.wheel ∧ Completed s (s.refuseGraph f d code item len) f d 7 code item len 0 ∧
      Heard (s.refuseGraph f d code item len) 858 2 (d.param 0 % 2 ^ 8) (f + 1) :=
  ⟨by rw [State.refuseGraph, State.wheelEvent_wheel, State.completeDesc_wheel], (completed_completeDesc hf hs ..).wheelEvent ..,
    heard_wheelEvent _ _ _ _ _ _⟩

/-! ### Versions decided (R266–R269, R277) -/

/-- What is judged for a file that a descriptor brings: a version beside the one in force, where there is one. -/
def graphBid (f : Nat) (d : HostDesc) (file : GraphFile) (old : Option Graph) : Bid :=
  ⟨f, d.param 0 % 0x100, file, (old.map (·.elems)).getD [], (old.map (·.edges)).getD [], [], [], [], []⟩

/-- A file judged, as a new graph or as a change. -/
def State.judged (s : State) (f : Nat) (d : HostDesc) (file : GraphFile) (old : Option Graph) : State × Bid :=
  s.judgeGraph (graphBid f d file old) old.isNone (old.any (fun g => g.change.isSome || g.phase == .stopping))

theorem State.decideGraph_of_fail (hhold : s.boot.hold = false) (hparse : parseGraph b = .inr file) {code item : Nat}
    (hverdict : (s.judged f d file old).2.verdict = some (code, item)) :
    s.decideGraph f d b old = s.refuseGraph f d code item (leAt b 12 4) := by
  unfold State.judged graphBid at hverdict
  simp only [State.decideGraph, hhold, hparse, hverdict, Bool.false_eq_true, if_false]

/-- A version that passes its checks and asks for no tick that comes too early is admitted, with the later of its earliest tick and the
one that it asks for. -/
theorem State.decideGraph_of_pass (hhold : s.boot.hold = false) (hparse : parseGraph b = .inr file)
    (hverdict : (s.judged f d file old).2.verdict = none) (htick : d.tick = 0 ∨ s.earliest (s.judged f d file old).2 ≤ d.tick) :
    s.decideGraph f d b old = (s.judged f d file old).1.admitGraph f d (s.judged f d file old).2 old (s.earliest (s.judged f d file old).2)
      (max (s.earliest (s.judged f d file old).2) d.tick) (leAt b 12 4) := by
  have hnow : ¬(d.tick ≠ 0 ∧ d.tick < s.earliest (s.judged f d file old).2) := by omega
  unfold State.judged graphBid at *
  simp only [State.decideGraph, hhold, hparse, hverdict, Bool.false_eq_true, if_false, hnow]

theorem State.wakeHbm_wheel (s : State) (elems : List PlacedElem) : (s.wakeHbm elems).wheel = s.wheel := by
  unfold State.wakeHbm
  split <;> rfl

/-- A graph as it is admitted. -/
def newGraph (now f : Nat) (bid : Bid) (at_ : Nat) : Graph :=
  ⟨f, bid.handle, .admitted, bid.elems, bid.edges, 1, 0, at_, now, at_, none, none, 0⟩

/-- A graph with a change that waits. -/
def Graph.await (g : Graph) (div now : Nat) (bid : Bid) (e at_ : Nat) : Graph :=
  { g with phase := if g.phase = .running then .changing else g.phase
           change := some ⟨bid.elems, bid.edges, now, at_, (bid.early div).map (fun (x : Nat × Nat) => (x.1, e - x.2))⟩ }

theorem Graph.await_phase {g : Graph} (hp : g.phase ≠ .stopped) (div now : Nat) (bid : Bid) (e at_ : Nat) :
    (g.await div now bid e at_).phase ≠ .stopped := by
  show (if g.phase = .running then Phase.changing else g.phase) ≠ _
  split
  · exact Phase.noConfusion
  · exact hp

/-- A new graph stands under its function and handle, and ADMITTED is raised. -/
theorem State.admitGraph_new (s : State) (f : Nat) (d : HostDesc) (bid : Bid) (e at_ len : Nat) :
    (s.admitGraph f d bid none e at_ len).graphAt f bid.handle = some (newGraph s.time.bounds f bid at_) ∧
      Heard (s.admitGraph f d bid none e at_ len) 858 1 bid.handle (f + 1) := by
  unfold State.admitGraph
  dsimp only
  refine ⟨?_, heard_wheelEvent _ _ _ _ _ _⟩
  rw [State.graphAt_congr ((State.wheelEvent_wheel ..).trans (State.completeDesc_wheel ..))]
  exact State.graphAt_putGraph (g := newGraph s.time.bounds f bid at_) _ Phase.noConfusion

/-- A change waits in its graph, and ADMITTED is raised. -/
theorem State.admitGraph_change (s : State) {f : Nat} (d : HostDesc) {bid : Bid} {g : Graph} (hfn : g.fn = f)
    (hhandle : g.handle = bid.handle) (hp : g.phase ≠ .stopped) (e at_ len : Nat) :
    (s.admitGraph f d bid (some g) e at_ len).graphAt f bid.handle = some (g.await s.tickDiv s.time.bounds bid e at_) ∧
      Heard (s.admitGraph f d bid (some g) e at_ len) 858 1 bid.handle (f + 1) := by
  unfold State.admitGraph
  dsimp only
  refine ⟨?_, heard_wheelEvent _ _ _ _ _ _⟩
  rw [State.graphAt_congr ((State.wheelEvent_wheel ..).trans (State.completeDesc_wheel ..)), ← hfn, ← hhandle]
  exact State.graphAt_putGraph (g := g.await s.tickDiv s.time.bounds bid e at_) _ (Graph.await_phase hp _ _ _ _ _)

end

/-! ### Submit and change -/

theorem exec_graphSubmit {s : State} {f : Nat} {b : List Byte} {d : HostDesc} (hready : CommandReady s f 1 d) (hturn : s.wheelTurn f d = true)
    (hfits : graphFits d b = true) (h0 : d.param 0 % 0x100 ≠ 0) (hfree : s.graphAt f (d.param 0 % 0x100) = none)
    (hroom : (s.graphs.filter (fun g => g.fn == f)).length < 4) : exec (.graphSubmit f b) s = .next (s.decideGraph f d b none) := by
  have hhandle : ¬(d.param 0 % 0x100 = 0 ∨ (s.graphAt f (d.param 0 % 0x100)).isSome = true) := by
    simp [h0, hfree]
  simp only [exec, execGraphSubmit, State.graphCommand_of_ready hready rfl hturn, hfits, hhandle, Nat.not_le.mpr hroom, Bool.not_true,
    Bool.false_eq_true, if_false]

theorem exec_graphChange {s : State} {f : Nat} {b : List Byte} {d : HostDesc} {g : Graph} (hready : CommandReady s f 2 d)
    (hturn : s.wheelTurn f d = true) (hfits : graphFits d b = true) (hg : s.graphAt f (d.param 0 % 0x100) = some g) :
    exec (.graphChange f b) s = .next (s.decideGraph f d b (some g)) := by
  simp only [exec, execGraphChange, State.graphCommand_of_ready hready rfl hturn, hfits, hg, Bool.not_true, Bool.false_eq_true, if_false]

/-- Settles O35: a version is refused or admitted by what its checks leave, as a new graph or as the change of one. -/
theorem graphAdmission : Obligations.GraphAdmission := by
  unfold Obligations.GraphAdmission
  rintro s f b d h len file rfl rfl hfits hturn hhold hparse
  refine ⟨fun hready h0 hfree hroom bid hbid => ?submit, fun hready g bid hg hbid => ?change⟩
  case submit =>
    obtain ⟨hf, hs, -⟩ := id hready
    have hbid : bid = (s.judged f d file none).2 := hbid
    rw [exec_graphSubmit hready hturn hfits h0 hfree hroom]
    refine ⟨fun code item hfail => ?_, fun hpass hhandle _ htick => ?_⟩
    · rw [State.decideGraph_of_fail hhold hparse (hbid ▸ hfail)]
      exact ⟨_, rfl, State.refuseGraph_effect hf hs code item _⟩
    · rw [State.decideGraph_of_pass hhold hparse (hbid ▸ hpass) (hbid ▸ htick), ← hbid, ← hhandle]
      obtain ⟨hat, hheard⟩ := (s.judged f d file none).1.admitGraph_new f d bid (s.earliest bid) (max (s.earliest bid) d.tick) (leAt b 12 4)
      exact ⟨_, _, rfl, hat, rfl, rfl, rfl, rfl, hheard⟩
  case change =>
    obtain ⟨hf, hs, -⟩ := id hready
    obtain ⟨hmem, hfn, hgh⟩ := State.of_graphAt hg
    have hbid : bid = (s.judged f d file (some g)).2 := hbid
    rw [exec_graphChange hready hturn hfits hg]
    refine ⟨fun code item hfail => ?_, fun hpass hhandle _ htick => ?_⟩
    · rw [State.decideGraph_of_fail hhold hparse (hbid ▸ hfail)]
      exact ⟨_, rfl, State.refuseGraph_effect hf hs code item _⟩
    · rw [State.decideGraph_of_pass hhold hparse (hbid ▸ hpass) (hbid ▸ htick), ← hbid, ← hhandle]
      obtain ⟨hat, hheard⟩ := (s.judged f d file (some g)).1.admitGraph_change d hfn (hgh.trans hhandle.symm) (State.mem_graphs.mp hmem).2
        (s.earliest bid) (max (s.earliest bid) d.tick) (leAt b 12 4)
      exact ⟨_, _, _, rfl, hat, rfl, rfl, rfl, rfl, rfl, hheard⟩

end Sys2Proof.Machine
end

section
/-! SUPPORT. GRAPH_STOP, WHEEL_CONFIG and MAP_READ (R283–R285, R291). -/

namespace Sys2Proof.Machine

open Regs

section

variable {s : State} {f : Nat} {d : HostDesc}

/-! ### Stop (R283) -/

/-- The tick at which a stop takes effect: the one asked for, or two ticks on. -/
def stopTick (now : Nat) (d : HostDesc) : Nat := if d.tick = 0 then now + 2 else d.tick

theorem exec_graphStop {g : Graph} (hready : CommandReady s f 3 d) (hturn : s.wheelTurn f d = true)
    (hg : s.graphAt f (d.param 0 % 0x100) = some g) (hrun : g.phase = .running) (hstop : g.stopAt = none) (hchange : g.change = none)
    (htick : d.tick = 0 ∨ s.time.tick + 2 ≤ d.tick) :
    exec (.graphStop f) s = .next (((s.putGraph { g with stopAt := some (stopTick s.time.tick d) }).completeDesc f d 0 0 noItem 0
      (stopTick s.time.tick d)).wheelEvent f g.handle 1 noItem (stopTick s.time.tick d)) := by
  obtain ⟨-, hfn, hhandle⟩ := State.of_graphAt hg
  have hphase : g.phase ≠ .admitted := by simp [hrun]
  have hlate : ¬stopTick s.time.tick d < s.time.tick + 2 := by unfold stopTick; split <;> omega
  have hdrop : s.dropChange g = s := by simp only [State.dropChange, hchange]
  have hagain : s.graphAt f g.handle = some g := by rw [hhandle]; exact hg
  simp only [exec, execGraphStop, State.graphCommand_of_ready hready rfl hturn, hg, hphase, hstop, hdrop, hagain, if_false]
  exact congrArg Host.Outcome.next (if_neg hlate)

/-! ### The heat policy (R285) -/

theorem exec_wheelConfig_of_pass {hot hyst : Nat} (hready : CommandReady s f 5 d) (hhot : hot = d.param 0 / 2 ^ 8 % 2 ^ 8)
    (hhyst : hyst = d.param 0 / 2 ^ 16 % 2 ^ 8) (hok : 60 ≤ hot ∧ hot ≤ 110 ∧ 2 ≤ hyst ∧ hyst ≤ 20) : exec (.wheelConfig f) s =
      .next (({ s with wheel := { s.wheel with setNext := some (d.param 0 % 2, hot, hyst) } } : State).completeDesc f d 0 0 0 0
        (s.time.tick + 1)) := by
  have hpass : ¬(hot < 60 ∨ 110 < hot ∨ hyst < 2 ∨ 20 < hyst) := by omega
  subst hhot hhyst
  exact (State.command_of_ready hready rfl _).trans (congrArg Host.Outcome.next (if_neg hpass))

theorem exec_wheelConfig_of_fail {hot hyst : Nat} (hready : CommandReady s f 5 d) (hhot : hot = d.param 0 / 2 ^ 8 % 2 ^ 8)
    (hhyst : hyst = d.param 0 / 2 ^ 16 % 2 ^ 8) (hbad : hot < 60 ∨ 110 < hot ∨ hyst < 2 ∨ 20 < hyst) :
    exec (.wheelConfig f) s = .next (s.completeDesc f d 2 0 0 0 s.time.tick) := by
  subst hhot hhyst
  exact (State.command_of_ready hready rfl _).trans (congrArg Host.Outcome.next (if_pos hbad))

/-! ### The placement map (R291) -/

theorem exec_mapRead {g : Graph} (hready : CommandReady s f 4 d) (hturn : s.wheelTurn f d = true)
    (hg : s.wheel.graphs.find? (fun g => g.fn == f && g.handle == d.param 0 % 0x100) = some g)
    (hfits : 32 * (1 + g.elems.length + g.edges.length) ≤ d.length) : exec (.mapRead f) s =
      .next ((s.emit (.hostWrite f d.buffer (s.mapBytes g))).completeDesc f d 0 0 (g.elems.length + g.edges.length)
        (32 * (1 + g.elems.length + g.edges.length)) s.time.tick) := by
  obtain ⟨-, -, -, -, hjudge⟩ := id hready
  simp only [exec, execMapRead, State.wheelCommand_of_ready hready rfl hturn, hjudge, hg, Nat.not_lt.mpr hfits, ne_eq, not_true, if_false]

end

/-- Settles O36: a stop is given its tick, a heat policy waits or is refused by its ranges, and the placement map goes out before its
completion. -/
theorem wheelCommands : Obligations.WheelCommands := by
  unfold Obligations.WheelCommands
  rintro s f d h rfl
  refine ⟨fun hready hturn g hg hrun hstop hchange htick => ?stop,
    fun hready hot hyst hhot hhyst => ⟨fun h1 h2 h3 h4 => ?policy, fun hbad => ?refused⟩,
    fun hready hturn g n hg hn hfits => ?map⟩
  all_goals obtain ⟨hf, hs, -⟩ := id hready
  case stop =>
    obtain ⟨-, rfl, hhandle⟩ := State.of_graphAt hg
    have hput := s.graphAt_putGraph (g := { g with stopAt := some (stopTick s.time.tick d) }) (by simp [hrun])
    have hcompleted := completed_completeDesc (s := s.putGraph { g with stopAt := some (stopTick s.time.tick d) }) (d := d) hf hs 0 0 noItem 0
      (stopTick s.time.tick d)
    refine ⟨_, _, _, exec_graphStop hready hturn hg hrun hstop hchange htick, rfl, ?_, rfl, ?_, ?_, ?_⟩
    · rw [State.graphAt_congr ((State.wheelEvent_wheel ..).trans (State.completeDesc_wheel ..)), ← hhandle]
      exact hput
    · exact (hcompleted.congr rfl).wheelEvent _ _ _ _ _
    · rw [← hhandle]
      exact heard_wheelEvent _ _ _ _ _ _
    · rw [State.wheelEvent_eq, State.completeDesc_frame _ _ _ _ _ _ _ _ (by decide)]
      rfl
  case policy =>
    have hcompleted := completed_completeDesc (s := { s with wheel := { s.wheel with setNext := some (d.param 0 % 2, hot, hyst) } }) (d := d) hf hs
      0 0 0 0 (s.time.tick + 1)
    refine ⟨_, exec_wheelConfig_of_pass hready hhot hhyst ⟨h1, h2, h3, h4⟩, ?_, ?_, ?_, ?_⟩
    · rw [State.completeDesc_wheel]
    · rw [State.completeDesc_wheel]
    · rw [State.completeDesc_wheel]
    · exact hcompleted.congr rfl
  case refused =>
    exact ⟨_, exec_wheelConfig_of_fail hready hhot hhyst hbad, State.completeDesc_wheel .., completed_completeDesc hf hs ..⟩
  case map =>
    subst hn
    have hcompleted := completed_completeDesc (s := s.emit (.hostWrite f d.buffer (s.mapBytes g))) (d := d) hf hs 0 0
      (g.elems.length + g.edges.length) (32 * (1 + g.elems.length + g.edges.length)) s.time.tick
    refine ⟨_, exec_mapRead hready hturn hg hfits, ?_, ?_, ?_⟩
    · rw [State.completeDesc_out (s := s.emit _) hs]
      exact List.mem_cons_of_mem _ List.mem_cons_self
    · exact hcompleted.congr rfl
    · rw [State.completeDesc_frame _ _ _ _ _ _ _ _ (by decide)]
      rfl

end Sys2Proof.Machine
end

section
/-! SUPPORT. The ends of a core's load and of a heat move's copy, and new routes for what a failed port cuts (R277, R286, R290). -/

namespace Sys2Proof.Machine

open Regs

/-! ### Loads and copies of cores (R277, R286) -/

theorem State.core_setCore (s : State) (n : Nat) (c : Core) (m : Nat) : (s.setCore n c).core m = if m = n then c else s.core m := FMap.get_set ..

theorem exec_coreLoadDone {s : State} {n : Nat} (hn : n < s.part.cores) (hload : s.coreState n = 2) (hhome : (s.core n).home = none) :
    exec (.coreLoadDone n) s = .next (s.setCore n { s.core n with loaded := true }) := by
  have hgo : (s.hasCore n && s.coreState n == 2 && (s.core n).home.isNone) = true := by
    simp [State.hasCore, hn, hload, hhome]
  simp only [exec, execCoreLoadDone, State.onlyIf, hgo, if_true]

/-- A core as a run on the input `r` begins. -/
def Core.begun (c : Core) (r : RunIn) : Prop :=
  c.running = true ∧ c.ended = false ∧ c.runTick = r.tick ∧ c.pc = 0 ∧ c.bank = zeroBank

theorem Core.begun_retain {c : Core} {r : RunIn} (h : c.begun r) : c.retain.begun r := by
  unfold Core.retain
  split
  · exact h
  · exact h

theorem Core.begun_setOuts {c : Core} {r : RunIn} (h : c.begun r) (o : Core → Nat → OutSt) (js : List Nat) :
    (js.foldl (fun c j => c.setOut j (o c j)) c).begun r := by
  induction js generalizing c with
  | nil => exact h
  | cons j js ih => exact ih (c := c.setOut j (o c j)) h

/-- The core that a run begins on stands at the entry of its program (R198), and no other core changes. -/
theorem State.core_beginRunOn (s : State) (n : Nat) (r : RunIn) (replay : Bool) :
    ((s.beginRunOn n r replay).core n).begun r ∧ ∀ m, m ≠ n → (s.beginRunOn n r replay).core m = s.core m := by
  unfold State.beginRunOn
  dsimp only
  generalize hc : List.foldl _ _ _ = c
  have hbegun : c.begun r := hc ▸ Core.begun_setOuts ⟨rfl, rfl, rfl, rfl, rfl⟩ _ _
  have hcore (m : Nat) : ((s.setCore n c.retain).setRunCode n c.runCode).core m = if m = n then c.retain else s.core m := s.core_setCore n _ m
  refine ⟨?_, fun m hm => ?_⟩
  · rw [hcore, if_pos rfl]
    exact Core.begun_retain hbegun
  · rw [hcore, if_neg hm]

theorem State.beginRunOn_wheel (s : State) (n : Nat) (r : RunIn) (replay : Bool) : (s.beginRunOn n r replay).wheel = s.wheel := rfl

/-- A move whose copy has arrived is over, and the new core's memories hold its region and its input. -/
def State.copied (s : State) (n : Nat) (m : Move) (r : RunIn) : State :=
  ({ s with wheel := { s.wheel with moves := s.wheel.moves.erase m } } : State).setCore n
    (((s.core n).putRegion (s.core n).persX (s.core n).persY).copyIn r)

theorem exec_heatMoveCopyDone {s : State} {n : Nat} {m : Move} {k : Task} {r : RunIn}
    (hm : s.wheel.moves.find? (fun m => m.begun && m.new == 0x4000 + n) = some m) (hk : (s.core n).task = some k)
    (hr : (s.core n).kept.getLast? = some r) : exec (.heatMoveCopyDone n) s = .next ((s.copied n m r).beginRunOn n r false) := by
  have hcore (w : WheelSt) : ({ s with wheel := w } : State).core n = s.core n := rfl
  simp only [exec, execHeatMoveCopyDone, hm, hcore, hk, hr]
  rfl

/-! ### New routes (R290) -/

/-- A new route that waits for its boundary: the function and handle of its graph, the edge, and the edge on its new route. -/
abbrev Reroute := Nat × Nat × PlacedEdge × PlacedEdge

/-- More new routes decided. -/
def State.withReroutes (s : State) (l : List Reroute) : State := { s with wheel := { s.wheel with reroutes := s.wheel.reroutes ++ l } }

theorem State.withReroutes_nil (s : State) : s.withReroutes [] = s := by simp [State.withReroutes]

theorem State.withReroutes_append (s : State) (l m : List Reroute) : (s.withReroutes l).withReroutes m = s.withReroutes (l ++ m) := by
  simp [State.withReroutes]

/-- Whether a new route is for an edge of a graph. -/
def Reroute.isFor (r : Reroute) (g : Graph) (e : PlacedEdge) : Prop := r.1 = g.fn ∧ r.2.1 = g.handle ∧ r.2.2.1 = e

/-- Whether an edge of a graph has a new route among those that wait. -/
def State.rerouted (s : State) (g : Graph) (e : PlacedEdge) : Prop := ∃ r ∈ s.wheel.reroutes, Reroute.isFor r g e

theorem State.rerouted.more {s : State} {g : Graph} {e : PlacedEdge} (h : s.rerouted g e) (l : List Reroute) : (s.withReroutes l).rerouted g e := by
  obtain ⟨r, hr, hfor⟩ := h
  exact ⟨r, List.mem_append_left _ hr, hfor⟩

/-- `t` is `s` with more new routes, each of which is one of `p`. -/
def Reroutes (s : State) (p : Reroute → Prop) (t : State) : Prop := ∃ l, t = s.withReroutes l ∧ ∀ r ∈ l, p r

theorem Reroutes.refl (s : State) (p : Reroute → Prop) : Reroutes s p s := ⟨[], s.withReroutes_nil.symm, by simp⟩

theorem Reroutes.trans {s t u : State} {p : Reroute → Prop} (h : Reroutes s p t) (h' : Reroutes t p u) : Reroutes s p u := by
  obtain ⟨l, rfl, hl⟩ := h
  obtain ⟨m, rfl, hm⟩ := h'
  exact ⟨l ++ m, s.withReroutes_append l m, fun r hr => (List.mem_append.mp hr).elim (hl r) (hm r)⟩

theorem Reroutes.mono {s t : State} {p p' : Reroute → Prop} (h : Reroutes s p t) (hp : ∀ r, p r → p' r) : Reroutes s p' t := by
  obtain ⟨l, ht, hl⟩ := h
  exact ⟨l, ht, fun r hr => hp r (hl r hr)⟩

theorem Reroutes.rerouted {s t : State} {p : Reroute → Prop} (h : Reroutes s p t) {g : Graph} {e : PlacedEdge} (he : s.rerouted g e) :
    t.rerouted g e := by
  obtain ⟨l, rfl, -⟩ := h
  exact he.more l

/-- Which edges can be carried does not depend on the new routes that wait. -/
theorem Reroutes.broken {s t : State} {p : Reroute → Prop} (h : Reroutes s p t) (e : PlacedEdge) : t.broken e = s.broken e := by
  obtain ⟨l, rfl, -⟩ := h
  rfl

/-- A fold whose steps, from `s` on, add new routes, and each of which settles what it stands for: so does the whole. -/
theorem Reroutes.foldl {α : Type} {f : State → α → State} {p : Reroute → Prop} {done : α → State → Prop} {s t : State} {xs : List α}
    (hkeep : ∀ x t u, Reroutes t p u → done x t → done x u)
    (hstep : ∀ x ∈ xs, ∀ t, Reroutes s p t → Reroutes t p (f t x) ∧ done x (f t x)) (ht : Reroutes s p t) :
    Reroutes t p (xs.foldl f t) ∧ ∀ x ∈ xs, done x (xs.foldl f t) := by
  induction xs generalizing t with
  | nil => exact ⟨.refl t p, by simp⟩
  | cons y ys ih =>
    obtain ⟨hadd, hdone⟩ := hstep y List.mem_cons_self t ht
    obtain ⟨hrest, hall⟩ := ih (fun x hx => hstep x (List.mem_cons_of_mem _ hx)) (ht.trans hadd)
    refine ⟨hadd.trans hrest, fun x hx => ?_⟩
    obtain rfl | hx := List.mem_cons.mp hx
    · exact hkeep _ _ _ hrest hdone
    · exact hall x hx

/-- New routes are decided for the edges of a version that can no longer be carried, and for each of them. -/
theorem State.reroutes_decideReroutes (s : State) (g : Graph) (elems : List PlacedElem) (edges : List PlacedEdge) :
    Reroutes s (fun r => s.broken r.2.2.1 = true ∧ r.2.2.1 ∈ edges ∧ r.1 = g.fn ∧ r.2.1 = g.handle) (s.decideReroutes g elems edges) ∧
      ∀ e ∈ edges, s.broken e = true → (s.decideReroutes g elems edges).rerouted g e := by
  unfold State.decideReroutes
  refine Reroutes.foldl (done := fun e t => s.broken e = true → t.rerouted g e) (fun e t u htu h hb => htu.rerouted (h hb))
    (fun e he t _ => ?_) (.refl s _)
  dsimp only
  split
  · next hskip =>
    refine ⟨.refl t _, fun hb => ?_⟩
    rw [hb, Bool.not_true, Bool.false_or, List.any_eq_true] at hskip
    obtain ⟨r, hr, hkey⟩ := hskip
    simp only [Bool.and_eq_true, beq_iff_eq] at hkey
    obtain ⟨⟨hfn, hhandle⟩, hedge⟩ := hkey
    exact ⟨r, hr, hfn, hhandle, hedge⟩
  · next hgo =>
    have hb : s.broken e = true := by
      cases hb : s.broken e with
      | true => rfl
      | false => exact absurd (by rw [hb, Bool.not_false, Bool.true_or]) hgo
    exact ⟨⟨[(g.fn, g.handle, e, _)], rfl, by simp [hb, he]⟩, fun _ => ⟨_, List.mem_append_right _ List.mem_cons_self, rfl, rfl, rfl⟩⟩

/-- An edge of a graph as it stands or as a change that waits has it. -/
def Graph.hasEdge (g : Graph) (e : PlacedEdge) : Prop := e ∈ g.edges ∨ ∃ c, g.change = some c ∧ e ∈ c.edges

/-- The new routes for a graph, and for a change of it that waits. -/
def State.rerouteGraph (s : State) (g : Graph) : State :=
  if g.phase = .stopping then s
  else
    let t := s.decideReroutes g g.elems g.edges
    match g.change with | some c => t.decideReroutes g c.elems c.edges | none => t

theorem State.reroutes_rerouteGraph (s : State) (g : Graph) :
    Reroutes s (fun r => s.broken r.2.2.1 = true ∧ g.hasEdge r.2.2.1 ∧ r.1 = g.fn ∧ r.2.1 = g.handle) (s.rerouteGraph g) ∧
      (g.phase ≠ .stopping → ∀ e, g.hasEdge e → s.broken e = true → (s.rerouteGraph g).rerouted g e) := by
  unfold State.rerouteGraph
  split
  · next h => exact ⟨.refl s _, fun hne => absurd h hne⟩
  · obtain ⟨hadd, hall⟩ := s.reroutes_decideReroutes g g.elems g.edges
    have hfirst := hadd.mono (p' := fun r => s.broken r.2.2.1 = true ∧ g.hasEdge r.2.2.1 ∧ r.1 = g.fn ∧ r.2.1 = g.handle)
      fun r ⟨hb, he, hkey⟩ => ⟨hb, .inl he, hkey⟩
    dsimp only
    split
    · next c hc =>
      obtain ⟨hadd', hall'⟩ := (s.decideReroutes g g.elems g.edges).reroutes_decideReroutes g c.elems c.edges
      refine ⟨hfirst.trans (hadd'.mono fun r ⟨hb, he, hkey⟩ => ⟨(hfirst.broken _).symm.trans hb, .inr ⟨c, hc, he⟩, hkey⟩),
        fun _ e he hb => ?_⟩
      obtain he | ⟨c', hc', he⟩ := he
      · exact hadd'.rerouted (hall e he hb)
      · obtain rfl : c = c' := Option.some.inj (hc.symm.trans hc')
        exact hall' e he ((hfirst.broken e).trans hb)
    · next hc =>
      refine ⟨hfirst, fun _ e he hb => ?_⟩
      obtain he | ⟨c, hc', -⟩ := he
      · exact hall e he hb
      · exact absurd hc' (by simp [hc])

/-- New routes are decided for edges of the graphs held that can no longer be carried, and for each of them but those of a graph that is
stopping. -/
theorem State.reroutes_rerouteGraphs (s : State) :
    Reroutes s (fun r => s.broken r.2.2.1 = true ∧ ∃ g ∈ s.graphs, r.1 = g.fn ∧ r.2.1 = g.handle ∧ g.hasEdge r.2.2.1)
        (s.graphs.foldl State.rerouteGraph s) ∧
      ∀ g ∈ s.graphs, g.phase ≠ .stopping → ∀ e, g.hasEdge e → s.broken e = true → (s.graphs.foldl State.rerouteGraph s).rerouted g e := by
  refine Reroutes.foldl (done := fun (g : Graph) t => g.phase ≠ .stopping → ∀ e, g.hasEdge e → s.broken e = true → t.rerouted g e)
    (fun g t u htu h hp e he hb => htu.rerouted (h hp e he hb)) (fun g hg t ht => ?_) (.refl s _)
  obtain ⟨hadd, hdone⟩ := t.reroutes_rerouteGraph g
  exact ⟨hadd.mono fun r ⟨hb, he, hfn, hhandle⟩ => ⟨(ht.broken _).symm.trans hb, g, hg, hfn, hhandle, he⟩,
    fun hp e he hb => hdone hp e he ((ht.broken e).trans hb)⟩

theorem exec_reroute {s : State} (h : s.deogen = true) : exec .reroute s = .next (s.graphs.foldl State.rerouteGraph s) := by
  simp only [exec, execReroute, h, if_true]
  rfl

/-- Settles O37: a load that ends, a copy that starts the first run of its core, and the fold that decides new routes graph by graph. -/
theorem wheelEvents : Obligations.WheelEvents := by
  unfold Obligations.WheelEvents
  refine fun s n => ⟨fun hn hload hhome => ?load, fun m k r hm hk hr => ?copy, fun hdeogen => ?reroute⟩
  case load =>
    refine ⟨_, exec_coreLoadDone hn hload hhome, ?_, fun m hm => ?_, rfl⟩
    · rw [State.core_setCore, if_pos rfl]
    · rw [State.core_setCore, if_neg hm]
  case copy =>
    obtain ⟨⟨hrun, hend, htick, hpc, hbank⟩, hothers⟩ := (s.copied n m r).core_beginRunOn n r false
    refine ⟨_, exec_heatMoveCopyDone hm hk hr, rfl, hrun, hend, htick, hpc, hbank, fun j hj => ?_⟩
    rw [hothers j hj, State.copied, State.core_setCore, if_neg hj]
    rfl
  case reroute =>
    obtain ⟨⟨l, hl, hfor⟩, hall⟩ := s.reroutes_rerouteGraphs
    refine ⟨_, exec_reroute hdeogen, ?_, ⟨l, by rw [hl]; rfl, hfor⟩, fun g e hg hp he hb => hall g hg hp e he hb⟩
    rw [hl]
    rfl

end Sys2Proof.Machine
end

section
/-! SUPPORT. Saggers: what they hold, the source of their events, and writes of CMD (R294, R311, R322, R323, R327, R329, R454). -/

namespace Sys2Proof.Machine

open Regs

/-! ### The saggers of a part, and what they hold -/

theorem Part.saggers_le (p : Part) : p.saggers ≤ 16 := by cases p <;> decide

theorem State.hasSagger_eq_true {s : State} {g : Nat} (hg : g < s.part.saggers) : s.hasSagger g = true := decide_eq_true hg

/-- The source of a sagger's events is there where the sagger is (R454). -/
theorem sourcePresent_sagger {p : Part} {g : Nat} (hg : g < p.saggers) : sourcePresent p (744 + g) = true := by
  have h16 := p.saggers_le
  unfold sourcePresent
  repeat rw [if_neg (by omega)]
  rw [if_pos (by omega), Nat.add_sub_cancel_left]
  exact decide_eq_true hg

theorem State.sag_setSag (s : State) (g : Nat) (x : Sagger) (h : Nat) : (s.setSag g x).sag h = if h = g then x else s.sag h :=
  FMap.get_set ..

@[simp] theorem State.sag_setSag_same (s : State) (g : Nat) (x : Sagger) : (s.setSag g x).sag g = x := FMap.get_set_same ..

theorem State.sag_setSag_other (s : State) {g h : Nat} (x : Sagger) (hne : h ≠ g) : (s.setSag g x).sag h = s.sag h :=
  FMap.get_set_other _ _ _ hne

theorem State.sag_congr {s t : State} (h : t.sags = s.sags) (g : Nat) : t.sag g = s.sag g := by
  rw [State.sag, State.sag, h]

@[simp] theorem State.raise_sag (s : State) (src rsn : Nat) (args : List Nat) (whom : Nat) (slot : Option Nat) (logged : Bool) (g : Nat) :
    (s.raise src rsn args whom slot logged).sag g = s.sag g := State.sag_congr (State.raise_sags ..) g

/-! ### CAPTURE armed (R322, R323) -/

/-- A sagger as CAP_ARM leaves it (R322): armed now, with the settings as they stand. -/
def State.armedSag (s : State) (g : Nat) : Sagger :=
  { s.sag g with
    armed := true, was := s.fld (capStatus g) capStatus_STATE, armedAt := s.time.now, setting := s.reg (capCtrl g)
    want := s.pair (capTickLo g) (capTickHi g), event := none
    due := if capCtrl_MODE.get (s.reg (capCtrl g)) = 0
      then some (s.edgeCount g (capCtrl_CLK.get (s.reg (capCtrl g))) + 1 + capCtrl_DELAY.get (s.reg (capCtrl g))) else none }

theorem State.arm_of_pass {s : State} {g : Nat} (h : s.armError g = 0) :
    s.arm g = (s.setSag g (s.armedSag g)).setFld (capStatus g) capStatus_STATE 1 := by
  unfold State.arm
  rw [h]
  rfl

theorem State.arm_of_fail {s : State} {g : Nat} (h : s.armError g ≠ 0) :
    s.arm g = ((s.setFld (capStatus g) capStatus_ERR (s.armError g)).setFlag (capStatus g) capStatus_REFUSED).raise (744 + g) 3 := by
  unfold State.arm
  split
  · next h0 => exact absurd h0 h
  · rfl

theorem State.tells_arm_of_fail {s : State} {g : Nat} (hg : g < s.part.saggers) (h : s.armError g ≠ 0) :
    Tells s [(capStatus g, capStatus_REFUSED.put (capStatus_ERR.put (s.reg (capStatus g)) (s.armError g)) 1)] (744 + g) 3 [] 15 (s.arm g) := by
  have hflags := (((sets_refl s).setFld (capStatus g) capStatus_ERR (s.armError g)).setFlag (capStatus g) capStatus_REFUSED).as
    (ws' := [(capStatus g, capStatus_REFUSED.put (capStatus_ERR.put (s.reg (capStatus g)) (s.armError g)) 1)]) fun o => by
      simp only [wordAt, if_true]
      split <;> rfl
  rw [State.arm_of_fail h]
  exact hflags.raise _ _ _ _ (sourcePresent_sagger hg)

theorem State.cancelCapture_of_armed {s : State} {g : Nat} (h : (s.sag g).armed = true) :
    s.cancelCapture g = (s.setSag g { s.sag g with armed := false }).setFld (capStatus g) capStatus_STATE (s.sag g).was := if_pos h

/-! ### Writes of CMD -/

section
variable {s : State} {f g : Nat} {v : Word} (hg : g < s.part.saggers) (ho : s.open_ = true) (hm : s.maySag f g = true)
include hg ho hm

/-- What a write of CMD by a function that may make it does: a cancel, then an arm, then a restart. -/
theorem State.hostWrite_sagCmd : s.hostWrite (s.onlyIf (s.hasSagger g) (s.writeSagCmd f g v)) = .next
    (let t := if sagCmd_CAP_CANCEL.get v = 1 then s.cancelCapture g else s
     let t := if sagCmd_CAP_ARM.get v = 1 then t.arm g else t
     if sagCmd_RESTART.get v = 1 ∧ t.fired g then t.setSag g { t.sag g with restart := true } else t) := by
  rw [State.hostWrite_of_open ho, State.onlyIf, if_pos (State.hasSagger_eq_true hg), State.writeSagCmd, State.allowed_of_true hm]

theorem exec_restart (ha : sagCmd_CAP_ARM.get v = 0) (hc : sagCmd_CAP_CANCEL.get v = 0) (hr : sagCmd_RESTART.get v = 1)
    (hfired : s.fired g = true) : exec (.restart f g v) s = .next (s.setSag g { s.sag g with restart := true }) := by
  refine (State.hostWrite_sagCmd hg ho hm).trans ?_
  simp [ha, hc, hr, hfired]

theorem exec_capArm (ha : sagCmd_CAP_ARM.get v = 1) (hc : sagCmd_CAP_CANCEL.get v = 0) (hr : sagCmd_RESTART.get v = 0) :
    exec (.capArm f g v) s = .next (s.arm g) := by
  refine (State.hostWrite_sagCmd hg ho hm).trans ?_
  simp [ha, hc, hr]

theorem exec_capCancel (ha : sagCmd_CAP_ARM.get v = 0) (hc : sagCmd_CAP_CANCEL.get v = 1) (hr : sagCmd_RESTART.get v = 0) :
    exec (.capCancel f g v) s = .next (s.cancelCapture g) := by
  refine (State.hostWrite_sagCmd hg ho hm).trans ?_
  simp [ha, hc, hr]

theorem exec_capDataRead : exec (.capDataRead f g) s = .next ((s.setFld (capAddr g) capAddr_ADDR (s.fld (capAddr g) capAddr_ADDR + 1)).emit
    (.readData f (if s.fld (capAddr g) capAddr_ADDR < 1344 then
      FMap.get (fun _ => 0) (s.sag g).plane (s.fld (capAddr g) capAddr_ADDR) else 0))) := by
  simp only [exec, execCapDataRead, State.hostRead, ho, State.hasSagger_eq_true hg, State.readCapData, hm, if_true]

end

/-- Settles O38: each clause is the part of a write of CMD that it asks for, with the sagger and the field of CAP_STATUS that this sets. -/
theorem saggerCommands : Obligations.SaggerCommands := by
  unfold Obligations.SaggerCommands
  refine fun s f g v hg ho hm => ⟨fun ha hc hr hfired => ?restart, fun ha hc hr => ⟨fun hpass => ?armed, fun hfail => ?refused⟩,
    fun ha hc hr harmed => ?cancel, ?read⟩
  case restart => exact ⟨_, exec_restart hg ho hm ha hc hr hfired, s.sag_setSag g _, rfl⟩
  case armed =>
    rw [exec_capArm hg ho hm ha hc hr, State.arm_of_pass hpass]
    have hsag (h : Nat) : ((s.setSag g (s.armedSag g)).setFld (capStatus g) capStatus_STATE 1).sag h
        = if h = g then s.armedSag g else s.sag h := s.sag_setSag g _ h
    refine ⟨_, rfl, ?_, ?_, ?_, ?_, fun h hne => (hsag h).trans (if_neg hne), (sets_refl (s.setSag g (s.armedSag g))).setFld _ _ _⟩ <;>
      rw [hsag, if_pos rfl] <;> rfl
  case refused => exact ⟨_, exec_capArm hg ho hm ha hc hr, State.tells_arm_of_fail hg hfail⟩
  case cancel =>
    rw [exec_capCancel hg ho hm ha hc hr, State.cancelCapture_of_armed harmed]
    exact ⟨_, rfl, congrArg Sagger.armed (State.sag_setSag_same ..), fun h hne => s.sag_setSag_other _ hne, (sets_refl (s.setSag g _)).setFld _ _ _⟩
  case read =>
    rintro a w rfl rfl
    exact ⟨_, exec_capDataRead hg ho hm, rfl, ((sets_refl s).setFld _ _ _).out _⟩

end Sys2Proof.Machine
end

section
/-! SUPPORT. Maps filled from a function, and numbers summed up from bits. -/

namespace Sys2Proof.Machine

theorem FMap.get_filterMap {α : Type} [DecidableEq α] (d f : Nat → α) (ks : List Nat) (j : Nat) :
    FMap.get d (ks.filterMap (fun k => if f k = d k then none else some (k, f k))) j = if j ∈ ks then f j else d j := by
  induction ks with
  | nil => rfl
  | cons k ks ih =>
    by_cases hk : f k = d k
    · simp only [List.filterMap_cons, hk, if_true, ih]
      by_cases hj : j = k
      · subst hj; simp [hk]
      · simp [hj]
    · simp only [List.filterMap_cons, hk, if_false, FMap.get, ih]
      by_cases hj : j = k
      · subst hj; simp
      · simp [hj]

/-- A map filled from a function reads as the function gives, below its bound. -/
theorem FMap.get_ofFn {α : Type} [DecidableEq α] (d f : Nat → α) (n j : Nat) :
    FMap.get d (FMap.ofFn d n f) j = if j < n then f j else d j := by
  rw [FMap.ofFn, FMap.get_filterMap]
  simp

/-- The number whose bits below `n` a test gives. -/
def bitSum (n : Nat) (p : Nat → Bool) : Nat := (List.range n).foldl (fun x b => x + if p b then 2 ^ b else 0) 0

theorem bitSum_succ (n : Nat) (p : Nat → Bool) : bitSum (n + 1) p = bitSum n p + if p n then 2 ^ n else 0 := by
  simp [bitSum, List.range_succ]

theorem bitSum_lt (n : Nat) (p : Nat → Bool) : bitSum n p < 2 ^ n := by
  induction n with
  | zero => simp [bitSum]
  | succ n ih =>
    rw [bitSum_succ, Nat.pow_succ]
    split <;> omega

theorem testBit_bitSum (n : Nat) (p : Nat → Bool) (i : Nat) : (bitSum n p).testBit i = (decide (i < n) && p i) := by
  induction n with
  | zero => simp [bitSum]
  | succ n ih =>
    have hlast : (bitSum n p).testBit n = false := Nat.testBit_lt_two_pow (bitSum_lt n p)
    rw [bitSum_succ]
    by_cases hi : i = n
    · subst hi
      cases hp : p i with
      | true => rw [if_pos rfl, testBit_add_two_pow hlast]; simp
      | false => simp [hlast]
    · have hlt : decide (i < n + 1) = decide (i < n) := by rw [decide_eq_decide]; omega
      rw [hlt, ← ih]
      cases p n with
      | true => rw [if_pos rfl, testBit_add_two_pow hlast, if_neg hi]
      | false => rfl

end Sys2Proof.Machine
end

section
/-! SUPPORT. The design in a sagger: its captured plane and the edges of its clock nets (R300, R301, R303, R304, R322–R325). -/

namespace Sys2Proof.Machine

open Regs

/-! ### A captured plane (R322–R325) -/

theorem State.planeWord_eq (s : State) (g : Nat) (told : List Word) (i : Nat) :
    s.planeWord g told i = BitVec.ofNat 32 (bitSum 32 fun b => s.planeBit g (32 * i + b) (bitOf (told.getD i 0).toNat b == 1)) := rfl

theorem State.getLsbD_planeWord (s : State) (g : Nat) (told : List Word) (i : Nat) {b : Nat} (hb : b < 32) :
    (s.planeWord g told i).getLsbD b = s.planeBit g (32 * i + b) (bitOf (told.getD i 0).toNat b == 1) := by
  rw [State.planeWord_eq, BitVec.getLsbD_ofNat, testBit_bitSum]
  simp [hb]

/-- A bit that no edge clocks now is captured as it stands (R324). -/
theorem State.capturedBit_of_quiet {s : State} {g j : Nat} (h : s.netRises g j = false) (before after told : Bool) :
    s.capturedBit g j before after told = after := by
  unfold State.capturedBit
  rw [if_pos (.inr (.inl (by simp [h])))]

theorem State.planeBit_of_quiet_ff {s : State} {g i : Nat} (hi : i < 2048)
    (h : s.netRises g ((s.fab g).num (.clock (i / 16) (i % 16)) 2) = false) (told : Bool) : s.planeBit g i told = s.ffOf g i := by
  unfold State.planeBit
  dsimp only
  rw [if_pos hi, State.capturedBit_of_quiet h]

/-- A sagger whose armed capture is taken: the plane holds what `planeWord` gives. -/
def State.captured (s : State) (g : Nat) (told : List Word) : State :=
  s.setSag g { s.sag g with armed := false, plane := FMap.ofFn (fun _ => 0) 1344 (s.planeWord g told) }

theorem State.plane_captured (s : State) (g : Nat) (told : List Word) {i : Nat} (hi : i < 1344) :
    FMap.get (fun _ => 0) ((s.captured g told).sag g).plane i = s.planeWord g told i := by
  rw [State.captured, State.sag_setSag_same, FMap.get_ofFn, if_pos hi]

/-- The registers of a capture that is taken: STATE and SEQ, and its time. -/
def State.stampCapture (s : State) (g : Nat) : State :=
  (((s.setFld (capStatus g) capStatus_STATE 2).setFld (capStatus g) capStatus_SEQ (s.fld (capStatus g) capStatus_SEQ + 1)).setReg
    (capStampLo g) (BitVec.ofNat 32 s.time.tick)).setReg (capStampSub g) (BitVec.ofNat 32 s.time.sub)

theorem State.stampCapture_sags (s : State) (g : Nat) : (s.stampCapture g).sags = s.sags := rfl

theorem State.sets_stampCapture (s : State) (g : Nat) : Sets s
    [(capStatus g, capStatus_SEQ.put (capStatus_STATE.put (s.reg (capStatus g)) 2) (s.fld (capStatus g) capStatus_SEQ + 1)),
     (capStampLo g, BitVec.ofNat 32 s.time.tick), (capStampSub g, BitVec.ofNat 32 s.time.sub)] (s.stampCapture g) := by
  have hlo : capStatus g ≠ capStampLo g := by unfold capStatus capStampLo; omega
  have hsub : capStatus g ≠ capStampSub g := by unfold capStatus capStampSub; omega
  have hstamps : capStampLo g ≠ capStampSub g := by unfold capStampLo capStampSub; omega
  have hset := ((((sets_refl s).setFld (capStatus g) capStatus_STATE 2).setFld_again capStatus_SEQ
    (s.fld (capStatus g) capStatus_SEQ + 1)).setReg (capStampLo g) (BitVec.ofNat 32 s.time.tick)).setReg (capStampSub g)
    (BitVec.ofNat 32 s.time.sub)
  refine hset.as fun o => ?_
  by_cases h1 : o = capStatus g
  · simp [wordAt, h1, hlo, hsub]
  · by_cases h2 : o = capStampLo g
    · simp [wordAt, h2, hlo.symm, hstamps]
    · simp [wordAt, h1, h2]

theorem exec_captureEdge {s : State} {g : Nat} (hg : g < s.part.saggers) (hrun : s.designRuns g = true) (harmed : (s.sag g).armed = true)
    (hdue : s.captureDue g = true) (told : List Word) :
    exec (.captureEdge g told) s = .next (((s.captured g told).stampCapture g).raise (744 + g) 1) := by
  simp only [exec, execCaptureEdge, State.onlyIf, State.hasSagger_eq_true hg, hrun, harmed, hdue, Bool.and_self, if_true]
  rfl

/-! ### Clock edges (R300, R301, R303, R304) -/

/-- A flip-flop whose net has no edge keeps its value. -/
theorem Fab.nextFf_of_unclocked {f : Fab} {nets : List Nat} {t m : Nat} (h : f.num (.clock t m) 2 ∉ nets) :
    f.nextFf nets t m = f.ff t m := by
  simp [Fab.nextFf, h]

/-- A flip-flop without clock enable and set takes its data at an edge of its net. -/
theorem Fab.nextFf_of_plain {f : Fab} {nets : List Nat} {t m : Nat} (h : f.num (.clock t m) 2 ∈ nets)
    (hen : f.cfg (.enableUsed t m) = false) (hset : f.cfg (.setUsed t m) = false) : f.nextFf nets t m = f.data t m := by
  simp [Fab.nextFf, h, hen, hset]

/-- Edges of some nets change the design's own sagger alone: its flip-flops as `nextFf` gives, and no RAM while writes are blocked (R304); where no
net has an edge, or the design has not left its initial values, nothing. -/
theorem State.clockDesign_cases (s : State) (g : Nat) (nets : List Nat) :
    (s.clockDesign g nets = s ∧ (nets = [] ∨ s.designLive g = false)) ∨
    ∃ x : Sagger, s.clockDesign g nets = ({ s with freeCtr := s.freeCtr + 1 } : State).setSag g x ∧
      x.ff = FMap.ofFn (s.ffInit g) 2048 (fun i => (s.fab g).nextFf nets (i / 16) (i % 16)) ∧
      ((s.sag g).released.contains 3 = false → x.ram = (s.sag g).ram) := by
  unfold State.clockDesign
  split
  · next h => exact .inl ⟨rfl, by simpa using h⟩
  · refine .inr ⟨_, rfl, ?_, fun h => ?_⟩
    · dsimp only
    · simp only [h, Bool.not_false, if_true]

theorem State.ffOf_clockDesign (s : State) (g : Nat) (nets : List Nat) {x m : Nat} (hx : x < 128) (hm : m < 16) :
    (s.clockDesign g nets).ffOf g (16 * x + m) = s.ffOf g (16 * x + m) ∧ (nets = [] ∨ s.designLive g = false) ∨
    (s.clockDesign g nets).ffOf g (16 * x + m) = (s.fab g).nextFf nets x m := by
  have hdiv : (16 * x + m) / 16 = x := by omega
  have hmod : (16 * x + m) % 16 = m := by omega
  obtain ⟨heq, hwhy⟩ | ⟨y, heq, hff, -⟩ := s.clockDesign_cases g nets
  · exact .inl ⟨by rw [heq], hwhy⟩
  · have hinit : (({ s with freeCtr := s.freeCtr + 1 } : State).setSag g y).ffInit g = s.ffInit g := rfl
    rw [heq, State.ffOf, hinit, State.sag_setSag_same, hff, FMap.get_ofFn, if_pos (by omega), hdiv, hmod]
    exact .inr rfl

theorem State.sag_clockDesign_other (s : State) (nets : List Nat) {g h : Nat} (hne : h ≠ g) : (s.clockDesign g nets).sag h = s.sag h := by
  obtain ⟨heq, -⟩ | ⟨x, heq, -⟩ := s.clockDesign_cases g nets
  · rw [heq]
  · rw [heq, State.sag_setSag_other _ _ hne]
    rfl

theorem State.ram_clockDesign {s : State} {g : Nat} (h : (s.sag g).released.contains 3 = false) (nets : List Nat) :
    ((s.clockDesign g nets).sag g).ram = (s.sag g).ram := by
  obtain ⟨heq, -⟩ | ⟨x, heq, -, hram⟩ := s.clockDesign_cases g nets
  · rw [heq]
  · rw [heq, State.sag_setSag_same, hram h]

end Sys2Proof.Machine
end

section
/-! SUPPORT. Stream ports and event lines of saggers (R312–R315, R318). -/

namespace Sys2Proof.Machine

open Regs

/-! ### Sending leaves the saggers as they are -/

theorem State.onlyLogs_logFault (s : State) (r : FaultRec) : OnlyLogs s (s.logFault r) := by
  unfold State.logFault
  split
  · exact s.onlyLogs_repeatFault
  · split
    · exact s.onlyLogs_loseFault
    · exact s.onlyLogs_writeFault r

theorem OnlyLogs.sags {s t : State} (h : OnlyLogs s t) : t.sags = s.sags := by
  have := congrArg State.sags h.2.eq
  exact this

theorem State.recordErr_sags (s : State) (n code addr point dest : Nat) : (s.recordErr n code addr point dest).sags = s.sags := by
  unfold State.recordErr
  dsimp only
  rw [apply_ite State.sags, State.raise_sags]
  exact ite_self _

theorem State.sendOn_sags (s : State) (e : PlacedEdge) (p : Packet) : (s.sendOn e p).sags = s.sags := by
  unfold State.sendOn
  obtain h | ⟨-, r, -, h⟩ | ⟨-, -, h⟩ | ⟨-, q, -, h⟩ := s.sendBy_cases e.entry p
  · rw [h]
  · rw [h]; rfl
  · rw [h, State.refuseOwn, State.recordErr_sags, (s.onlyLogs_logFault _).sags]
  · rw [h]; rfl

/-! ### What a port says once per tick -/

section
variable (s : State) (g k reason : Nat) (args : List Nat)

theorem State.sayOnce_eq : s.sayOnce g k reason args =
    { s with sags := (s.sayOnce g k reason args).sags, events := (s.sayOnce g k reason args).events } := by
  unfold State.sayOnce
  dsimp only
  split
  · rfl
  · rw [State.raise_eq]; rfl

theorem State.sag_sayOnce_other {h : Nat} (hne : h ≠ g) : (s.sayOnce g k reason args).sag h = s.sag h := by
  unfold State.sayOnce
  dsimp only
  split
  · rfl
  · rw [State.raise_sag, State.sag_setSag_other _ _ hne]

theorem State.sag_sayOnce_same :
    (s.sayOnce g k reason args).sag g = { s.sag g with said := ((s.sayOnce g k reason args).sag g).said } := by
  unfold State.sayOnce
  dsimp only
  split
  · rfl
  · rw [State.raise_sag, State.sag_setSag_same]

variable {s g k}

theorem State.sayOnce_of_new (hk : k ∉ (s.sag g).said) : s.sayOnce g k reason args =
    (s.setSag g { s.sag g with said := k :: (s.sag g).said }).raise (744 + g) reason args := if_neg (by simp [hk])

theorem heard_sayOnce (hg : g < s.part.saggers) (hk : k ∉ (s.sag g).said) :
    Heard (s.sayOnce g k reason args) (744 + g) reason (args.getD 0 0) 15 := by
  have hp : sourcePresent (s.setSag g { s.sag g with said := k :: (s.sag g).said }).part (744 + g) = true := sourcePresent_sagger hg
  rw [State.sayOnce_of_new reason args hk]
  exact heard_raise hp reason args 15 none false

end

/-! ### Words in (R312) -/

/-- A sagger whose input port `p` holds the words `q`, all that the design has popped there being known. -/
def Sagger.withInput (x : Sagger) (p : Nat) (q : List Word) : Sagger :=
  { x with popped := FMap.set (fun _ => 0) x.popped p 0, fifo := FMap.set (fun _ => []) x.fifo p q }

theorem State.inFifo_withInput (s : State) (g p : Nat) (q : List Word) (k : Nat) :
    (s.setSag g ((s.sag g).withInput p q)).inFifo g k = if k = p then q else s.inFifo g k := by
  rw [State.inFifo, State.sag_setSag_same]
  exact FMap.get_set ..

/-- An input port that cannot take a word drops it, which SAGGER_PORT shows. -/
def State.overrunInput (s : State) (g p : Nat) (q : List Word) : State :=
  (s.setSag g ((s.sag g).withInput p q)).setFlag (sagPort g) ⟨p, p⟩

theorem State.sag_overrunInput (s : State) (g p : Nat) (q : List Word) : (s.overrunInput g p q).sag g = (s.sag g).withInput p q :=
  State.sag_setSag_same ..

/-- What a dropped word leaves: the words that were there, its flag, and its event where the port has said nothing in this tick. -/
theorem State.overrunInput_effect {s : State} {g : Nat} (hg : g < s.part.saggers) (p : Nat) (q : List Word) :
    let t := (s.overrunInput g p q).sayOnce g p 4 [p]
    t.inFifo g p = q ∧ t.reg (sagPort g) = Fld.put ⟨p, p⟩ (s.reg (sagPort g)) 1 ∧ (p ∉ (s.sag g).said → Heard t (744 + g) 4 p 15) := by
  refine ⟨?_, ?_, fun hnew => heard_sayOnce (s := s.overrunInput g p q) 4 [p] hg ?_⟩
  · rw [State.inFifo, State.sag_sayOnce_same]
    exact (s.inFifo_withInput g p q p).trans (if_pos rfl)
  · have hone : 2 ^ Fld.width ⟨p, p⟩ - 1 = 1 := by simp [Fld.width]
    rw [State.sayOnce_eq]
    show (s.overrunInput g p q).reg (sagPort g) = _
    rw [State.overrunInput, State.reg_setFlag, if_pos rfl, hone]
    rfl
  · rw [State.sag_overrunInput]
    exact hnew

/-- A word counted at output port `p`. -/
def State.countPush (s : State) (g p : Nat) : State :=
  s.setSag g { s.sag g with pushed := FMap.set (fun _ => 0) (s.sag g).pushed p (FMap.get (fun _ => 0) (s.sag g).pushed p + 1) }

theorem State.sag_countPush (s : State) (g p : Nat) : (s.countPush g p).sag g =
    { s.sag g with pushed := FMap.set (fun _ => 0) (s.sag g).pushed p (FMap.get (fun _ => 0) (s.sag g).pushed p + 1) } :=
  State.sag_setSag_same ..

/-- A word that has joined the open packet of a stream of output port `p`. -/
def State.joinPacket (s : State) (g p : Nat) (w : Word) (e : PlacedEdge) : State :=
  let ws := FMap.get (fun _ => []) (s.sag g).pkt (packetKey p e) ++ [w]
  s.setSag g { s.sag g with pkt := FMap.set (fun _ => []) (s.sag g).pkt (packetKey p e) ws }

section
variable {s : State} {g p : Nat} (hg : g < s.part.saggers) (hp : p < 16)
include hg hp

theorem exec_fabricInputWord (hfired : s.fired g = true) (hbound : s.inputBound g p = true) (w : Word) (pops : Nat) {q : List Word}
    (hq : q = (s.inFifo g p).drop (pops - FMap.get (fun _ => 0) (s.sag g).popped p)) :
    exec (.fabricInputWord g p w pops) s = .next (if 512 ≤ q.length then (s.overrunInput g p q).sayOnce g p 4 [p]
      else s.setSag g ((s.sag g).withInput p (q ++ [w]))) := by
  subst hq
  simp only [exec, execFabricInputWord, State.onlyIf, State.hasSagger_eq_true hg, hp, hfired, hbound, decide_true, Bool.and_self, if_true]
  rfl

/-! ### Words out (R313–R315) -/

theorem exec_push (hrun : s.designRuns g = true) (hheard : s.muted g p = false) (w : Word) (full : Bool) :
    exec (.push g p w full) s = .next (if s.outFull g p = true then s.dropPush g p 32 6
      else (s.streamsFrom (0x6000 + g) (16 + p)).foldl (fun t e => t.pushTo g p (FMap.get (fun _ => 0) (s.sag g).pushed p) w e)
        (s.countPush g p)) := by
  simp only [exec, execPush, State.onlyIf, State.hasSagger_eq_true hg, hp, hrun, hheard, Bool.not_false, decide_true, Bool.and_self, if_true]
  rfl

end

theorem State.dropPush_reg (s : State) (g p k reason : Nat) :
    (s.dropPush g p k reason).reg (sagPort g) = Fld.put ⟨16 + p, 16 + p⟩ (s.reg (sagPort g)) 1 := by
  have hone : 2 ^ Fld.width ⟨16 + p, 16 + p⟩ - 1 = 1 := by simp [Fld.width]
  rw [State.dropPush, State.sayOnce_eq]
  show (s.setFlag (sagPort g) ⟨16 + p, 16 + p⟩).reg (sagPort g) = _
  rw [State.reg_setFlag, if_pos rfl, hone]

theorem State.dropPush_net (s : State) (g p k reason : Nat) : (s.dropPush g p k reason).net = s.net := by
  rw [State.dropPush, State.sayOnce_eq]
  rfl

theorem heard_dropPush {s : State} {g p k : Nat} (hg : g < s.part.saggers) (hk : k + p ∉ (s.sag g).said) (reason : Nat) :
    Heard (s.dropPush g p k reason) (744 + g) reason p 15 :=
  heard_sayOnce (s := s.setFlag (sagPort g) ⟨16 + p, 16 + p⟩) reason [p] hg hk

/-- `t` has the saggers of `s`, but for what sagger `g` has said and for its open packets. -/
def PushKeeps (g : Nat) (s t : State) : Prop :=
  (∀ h, h ≠ g → t.sag h = s.sag h) ∧ t.sag g = { s.sag g with said := (t.sag g).said, pkt := (t.sag g).pkt }

theorem PushKeeps.refl (g : Nat) (s : State) : PushKeeps g s s := ⟨fun _ _ => rfl, rfl⟩

theorem PushKeeps.trans {g : Nat} {s t u : State} (h : PushKeeps g s t) (h' : PushKeeps g t u) : PushKeeps g s u := by
  obtain ⟨hother, hsame⟩ := h
  obtain ⟨hother', hsame'⟩ := h'
  exact ⟨fun h hne => (hother' h hne).trans (hother h hne), by rw [hsame', hsame]⟩

theorem PushKeeps.pushed {g : Nat} {s t : State} (h : PushKeeps g s t) : (t.sag g).pushed = (s.sag g).pushed := by
  rw [h.2]

theorem State.pushKeeps_dropPush (s : State) (g p k reason : Nat) : PushKeeps g s (s.dropPush g p k reason) :=
  ⟨fun _ hne => State.sag_sayOnce_other _ g _ _ _ hne, by rw [State.dropPush, State.sag_sayOnce_same]; rfl⟩

/-- A change of sagger `g` in its open packets, made to a state that has the saggers of `s`. -/
theorem State.pushKeeps_setPkt {s t : State} (ht : t.sags = s.sags) (g : Nat) (m : FMap (List Word)) :
    PushKeeps g s (t.setSag g { s.sag g with pkt := m }) :=
  ⟨fun h hne => (State.sag_setSag_other _ _ hne).trans (State.sag_congr ht h), by rw [State.sag_setSag_same]⟩

theorem State.pushKeeps_closePush (s : State) (g p : Nat) (e : PlacedEdge) : PushKeeps g s (s.closePush g p e) := by
  unfold State.closePush
  dsimp only
  split
  · exact .refl g s
  · exact State.pushKeeps_setPkt (State.sendOn_sags ..) g _

theorem State.pushKeeps_pushTo (s : State) (g p n : Nat) (w : Word) (e : PlacedEdge) : PushKeeps g s (s.pushTo g p n w e) := by
  unfold State.pushTo
  split
  · exact s.pushKeeps_dropPush g p 16 5
  · have hjoined : PushKeeps g s (s.joinPacket g p w e) := State.pushKeeps_setPkt rfl g _
    dsimp only
    split
    · exact hjoined.trans (State.pushKeeps_closePush _ g p e)
    · exact hjoined

theorem State.pushKeeps_pushAll (es : List PlacedEdge) (s : State) (g p n : Nat) (w : Word) :
    PushKeeps g s (es.foldl (fun t e => t.pushTo g p n w e) s) := by
  induction es generalizing s with
  | nil => exact .refl g s
  | cons e es ih => exact (s.pushKeeps_pushTo g p n w e).trans (ih _)

/-- A word beyond WORDS is dropped. -/
theorem State.pushTo_of_over (s : State) (g p : Nat) {n : Nat} (w : Word) {e : PlacedEdge} (h : e.words ≤ n) :
    s.pushTo g p n w e = s.dropPush g p 16 5 := if_pos h

/-- A word within WORDS that does not fill the open packet joins it. -/
theorem State.pushTo_of_room {s : State} {g p n : Nat} {e : PlacedEdge} (h : n < e.words)
    (hroom : (FMap.get (fun _ => []) (s.sag g).pkt (packetKey p e)).length < 511) (w : Word) :
    s.pushTo g p n w e = s.joinPacket g p w e := by
  unfold State.pushTo
  rw [if_neg (Nat.not_le.mpr h)]
  dsimp only
  rw [if_neg (by rw [List.length_append, List.length_singleton]; omega)]
  rfl

/-- A port without streams shows no FULL (R313). -/
theorem State.outFull_of_unbound {s : State} {g p : Nat} (h : s.streamsFrom (0x6000 + g) (16 + p) = []) : s.outFull g p = false := by
  simp [State.outFull, State.outLoad, h]

/-! ### Event lines (R318) -/

theorem exec_eventLineRise {s : State} {g i : Nat} (hg : g < s.part.saggers) (hi : i < 4) (hlive : s.outLive g = true)
    (hen : bitOf (s.fld (sagEvt g) sagEvt_EN) i = 1) (d : Nat) : exec (.eventLineRise g i d) s = .next
    (if (s.sag g).lines.contains i = true then
      s.setSag g { s.sag g with rises := FMap.set (fun _ => 0) (s.sag g).rises i (min 255 (FMap.get (fun _ => 0) (s.sag g).rises i + 1)) }
    else (s.setSag g { s.sag g with lines := i :: (s.sag g).lines, rises := FMap.set (fun _ => 0) (s.sag g).rises i 0 }).raise (744 + g) 7
      [i, d % 0x10000, FMap.get (fun _ => 0) (s.sag g).rises i]) := by
  simp only [exec, execEventLineRise, State.onlyIf, State.hasSagger_eq_true hg, hi, hlive, hen, decide_true, BEq.rfl, Bool.and_self, if_true]

/-- Settles O39: a capture edge fills the plane bit by bit; edges of clock nets change the design's own sagger; and words and event lines are
the operations of its ports. -/
theorem designEvents : Obligations.DesignEvents := by
  unfold Obligations.DesignEvents
  refine fun s g hg => ⟨fun told hrun harmed hdue => ?capture, fun nets => ⟨fun x m hx hm => ⟨fun hnot => ?quiet, fun hin hlive hen hset => ?clocked⟩,
      fun hblocked => State.ram_clockDesign hblocked nets, fun h hne => s.sag_clockDesign_other nets hne⟩,
    fun p w pops q hp hfired hbound hq => ?word, fun p w n full hp hrun hmute hn => ?push,
    fun i d hi hlive hen => ⟨fun hnew => ?rise, fun hold => ?again⟩⟩
  case capture =>
    have hsag (h : Nat) : (((s.captured g told).stampCapture g).raise (744 + g) 1).sag h = (s.captured g told).sag h :=
      (State.raise_sag ..).trans (State.sag_congr (State.stampCapture_sags ..) h)
    rw [exec_captureEdge hg hrun harmed hdue]
    refine ⟨_, rfl, ?_, fun i hi => ?_, fun i b hi hb hquiet => ?_, fun h hne => ?_, ?_⟩
    · rw [hsag, State.captured, State.sag_setSag_same]
    · rw [hsag, s.plane_captured g told hi]
    · rw [hsag, s.plane_captured g told (by omega), State.getLsbD_planeWord _ _ _ _ hb, State.planeBit_of_quiet_ff (by omega) hquiet]
    · rw [hsag, State.captured, State.sag_setSag_other _ _ hne]
    · rw [State.raise_sags, State.stampCapture_sags]
      exact ((s.captured g told).sets_stampCapture g).raise _ _ _ _ (sourcePresent_sagger hg)
  case quiet =>
    obtain ⟨hff, -⟩ | hff := s.ffOf_clockDesign g nets hx hm
    · exact hff
    · rw [hff, Fab.nextFf_of_unclocked hnot]
      rfl
  case clocked =>
    obtain ⟨-, rfl | hdead⟩ | hff := s.ffOf_clockDesign g nets hx hm
    · exact absurd hin List.not_mem_nil
    · exact absurd hlive (by simp [hdead])
    · rw [hff, Fab.nextFf_of_plain hin hen hset]
  case word =>
    rw [exec_fabricInputWord hg hp hfired hbound w pops hq]
    refine ⟨fun hroom => ?_, fun hfull => ?_⟩
    · rw [if_neg (Nat.not_le.mpr hroom)]
      exact ⟨_, rfl, s.inFifo_withInput g p _, fun h hne => s.sag_setSag_other _ hne, rfl⟩
    · rw [if_pos hfull]
      exact ⟨_, rfl, State.overrunInput_effect hg p q⟩
  case push =>
    subst hn
    rw [exec_push hg hp hrun hmute]
    have hcount : FMap.get (fun _ => 0) ((s.countPush g p).sag g).pushed p = FMap.get (fun _ => 0) (s.sag g).pushed p + 1 := by
      rw [State.sag_countPush, FMap.get_set_same]
    refine ⟨fun hfull => ?_, fun hnone => ?_, fun e hroom hone hover => ?_, fun hroom => ?_⟩
    · rw [if_pos hfull]
      exact ⟨_, rfl, s.dropPush_reg g p 32 6, by rw [(s.pushKeeps_dropPush g p 32 6).pushed], fun hnew => heard_dropPush hg hnew 6⟩
    · rw [if_neg (by simp [State.outFull_of_unbound hnone]), hnone]
      exact ⟨_, rfl, rfl, rfl, rfl⟩
    · have hsaid : ((s.countPush g p).sag g).said = (s.sag g).said := by rw [State.sag_countPush]
      rw [if_neg (by simp [hroom]), hone, List.foldl_cons, List.foldl_nil, State.pushTo_of_over _ _ _ _ hover]
      exact ⟨_, rfl, State.dropPush_net .., State.dropPush_reg .., fun hnew => heard_dropPush (s := s.countPush g p) hg (by rwa [hsaid]) 5⟩
    · rw [if_neg (by simp [hroom])]
      have hkept := State.pushKeeps_pushAll (s.streamsFrom (0x6000 + g) (16 + p)) (s.countPush g p) g p
        (FMap.get (fun _ => 0) (s.sag g).pushed p) w
      refine ⟨_, rfl, by rw [hkept.pushed, hcount], fun e k hone hwithin hk hlen => ?_,
        fun h hne => (hkept.1 h hne).trans (s.sag_setSag_other _ hne)⟩
      have hpkt : ((s.countPush g p).sag g).pkt = (s.sag g).pkt := by rw [State.sag_countPush]
      subst hk
      rw [hone, List.foldl_cons, List.foldl_nil, State.pushTo_of_room hwithin (by rwa [hpkt]), State.joinPacket, State.sag_setSag_same,
        FMap.get_set_same, hpkt]
      exact ⟨rfl, rfl⟩
  case rise =>
    rw [exec_eventLineRise hg hi hlive hen, if_neg (by simp [hnew])]
    refine ⟨_, rfl, ?_, ?_, ?_⟩
    · rw [State.raise_sag, State.sag_setSag_same]
      exact List.mem_cons_self
    · rw [State.raise_sag, State.sag_setSag_same, FMap.get_set_same]
    · rw [State.raise_sags]
      exact (sets_refl (s.setSag g _)).raise _ _ _ _ (sourcePresent_sagger hg)
  case again =>
    rw [exec_eventLineRise hg hi hlive hen, if_pos (by simp [hold])]
    exact ⟨_, rfl, by rw [State.sag_setSag_same, FMap.get_set_same], rfl⟩

end Sys2Proof.Machine
end

section
/-! SUPPORT. The release of a restart's holds, and the loss and return of a fabric PLL (R308, R311, R327). -/

namespace Sys2Proof.Machine

open Regs

/-! ### Restart holds (R311) -/

/-- A sagger whose restart holds clock net `net` no longer. -/
def State.releaseHold (s : State) (g net : Nat) : State := s.setSag g { s.sag g with held := (s.sag g).held.filter (· != net) }

theorem State.held_releaseHold (s : State) (g net : Nat) :
    ((s.releaseHold g net).sag g).held = (s.sag g).held.filter (· != net) := by
  rw [State.releaseHold, State.sag_setSag_same]

theorem exec_restartHoldRelease {s : State} {g net : Nat} (hg : g < s.part.saggers) (hrun : s.designRuns g = true)
    (hheld : net ∈ (s.sag g).held) (hover : s.holdOver g net = true) : exec (.restartHoldRelease g net) s = .next
      (if ((s.releaseHold g net).sag g).held = [] then (s.releaseHold g net).raise (744 + g) 8 else s.releaseHold g net) := by
  have hcontains : (s.sag g).held.contains net = true := List.contains_iff_mem.mpr hheld
  simp only [exec, execRestartHoldRelease, State.onlyIf, State.hasSagger_eq_true hg, hrun, hcontains, hover, Bool.and_self, if_true,
    State.held_releaseHold, List.isEmpty_iff]
  rfl

/-! ### An armed capture aborted (R327) -/

section
variable (s : State) (g : Nat)

theorem State.abortCapture_of_idle {s : State} {g : Nat} (h : (s.sag g).armed = false) : s.abortCapture g = s := if_pos (by simp [h])

theorem State.abortCapture_of_armed {s : State} {g : Nat} (h : (s.sag g).armed = true) : s.abortCapture g =
    (((s.setSag g { s.sag g with armed := false }).setFld (capStatus g) capStatus_STATE (s.sag g).was).setFld (capStatus g)
      capStatus_ERR 6).raise (744 + g) 2 := if_neg (by simp [h])

theorem State.abortCapture_eq : s.abortCapture g =
    { s with regs := (s.abortCapture g).regs, sags := (s.abortCapture g).sags, events := (s.abortCapture g).events } := by
  cases h : (s.sag g).armed with
  | false => rw [State.abortCapture_of_idle h]
  | true => rw [State.abortCapture_of_armed h, State.raise_eq]; rfl

theorem State.sag_abortCapture (h : Nat) : (s.abortCapture g).sag h = if h = g then { s.sag g with armed := false } else s.sag h := by
  cases harmed : (s.sag g).armed with
  | false =>
    have hsame : { s.sag g with armed := false } = s.sag g := by rw [← harmed]
    rw [State.abortCapture_of_idle harmed, hsame]
    split
    · next heq => rw [heq]
    · rfl
  | true =>
    rw [State.abortCapture_of_armed harmed, State.raise_sag]
    exact s.sag_setSag g _ h

theorem State.reg_abortCapture_other {o : Nat} (ho : o ≠ capStatus g) : (s.abortCapture g).reg o = s.reg o := by
  cases harmed : (s.sag g).armed with
  | false => rw [State.abortCapture_of_idle harmed]
  | true =>
    rw [State.abortCapture_of_armed harmed, State.reg, State.raise_regs]
    show ((State.setFld _ _ _ _).setFld _ _ _).reg o = _
    rw [State.reg_setFld, if_neg ho, State.reg_setFld, if_neg ho]
    rfl

theorem State.mem_queueOf_abortCapture {s : State} {f : Nat} {e : Event} (he : e ∈ s.queueOf f) (g : Nat) :
    e ∈ (s.abortCapture g).queueOf f := by
  cases harmed : (s.sag g).armed with
  | false => rwa [State.abortCapture_of_idle harmed]
  | true =>
    rw [State.abortCapture_of_armed harmed]
    exact State.mem_queueOf_raise (s := ((s.setSag g _).setFld _ _ _).setFld _ _ _) he ..

end

/-! ### Fabric PLLs (R308, R327) -/

/-- `t` is `s` but for armed captures that have been aborted, their CAP_STATUS, and events raised. -/
def CapturesLost (s t : State) : Prop :=
  (∀ o, (∀ g < 16, o ≠ capStatus g) → t.reg o = s.reg o) ∧ t.part = s.part ∧ t.time = s.time ∧
    (∀ g, t.sag g = { s.sag g with armed := (t.sag g).armed }) ∧ ∀ f, ∀ e ∈ s.queueOf f, e ∈ t.queueOf f

theorem CapturesLost.refl (s : State) : CapturesLost s s := ⟨fun _ _ => rfl, rfl, rfl, fun _ => rfl, fun _ _ he => he⟩

theorem CapturesLost.trans {s t u : State} (h : CapturesLost s t) (h' : CapturesLost t u) : CapturesLost s u := by
  obtain ⟨hreg, hpart, htime, hsag, hqueue⟩ := h
  obtain ⟨hreg', hpart', htime', hsag', hqueue'⟩ := h'
  exact ⟨fun o ho => (hreg' o ho).trans (hreg o ho), hpart'.trans hpart, htime'.trans htime, fun g => by rw [hsag' g, hsag g],
    fun f e he => hqueue' f e (hqueue f e he)⟩

theorem State.netSource_congr {s t : State} {g : Nat} (hstate : t.reg (sagState g) = s.reg (sagState g))
    (hsel : t.reg (clksel g) = s.reg (clksel g)) (hclocks : (t.sag g).clocks = (s.sag g).clocks) (j : Nat) :
    t.netSource g j = s.netSource g j := by
  have hcode : t.saggerState g = s.saggerState g := congrArg sagState_STATE.get hstate
  unfold State.netSource
  rw [hcode, hsel, hclocks]

theorem CapturesLost.netSource {s t : State} (h : CapturesLost s t) (g j : Nat) : t.netSource g j = s.netSource g j := by
  obtain ⟨hreg, -, -, hsag, -⟩ := h
  refine State.netSource_congr (hreg _ fun i _ => ?_) (hreg _ fun i _ => ?_) (by rw [hsag g]) j
  · unfold sagState capStatus; omega
  · unfold clksel capStatus; omega

theorem CapturesLost.capNet {s t : State} (h : CapturesLost s t) (g : Nat) : t.capNet g = s.capNet g := by
  obtain ⟨-, -, -, hsag, -⟩ := h
  rw [State.capNet, hsag g, State.capNet]

/-- The events of a sagger go to its owner (R461). -/
theorem State.recipients_sagger (s : State) {g : Nat} (hg : g < 16) (rsn a0 whom : Nat) :
    s.recipients (744 + g) rsn a0 whom = toOwner (s.ownSagger g) := by
  unfold State.recipients
  repeat rw [if_neg (by omega)]
  rw [if_pos (by omega), Nat.add_sub_cancel_left]

theorem CapturesLost.heard {s t : State} (h : CapturesLost s t) {g : Nat} (hg : g < 16) {rsn a0 whom : Nat}
    (hs : Heard s (744 + g) rsn a0 whom) : Heard t (744 + g) rsn a0 whom := by
  obtain ⟨hreg, -, htime, -, hqueue⟩ := h
  have howner : t.ownSagger g = s.ownSagger g := by
    unfold State.ownSagger State.owner
    rw [hreg _ fun i _ => by unfold saggerOwner capStatus; omega]
  intro f hto hen
  have hword : (744 + g) / 32 = 23 := by omega
  have henabled : t.enabled f (744 + g) = s.enabled f (744 + g) := by
    unfold State.enabled
    rw [hword, if_neg (by decide), hreg _ fun i _ => by unfold evEnable capStatus; omega]
  rw [State.recipients_sagger _ hg, howner, ← s.recipients_sagger hg rsn a0 whom] at hto
  obtain ⟨e, he, hfields⟩ := hs f hto (henabled ▸ hen)
  rw [htime]
  exact ⟨e, hqueue f e he, hfields⟩

theorem State.capturesLost_raise (s : State) (src rsn : Nat) (args : List Nat) (whom : Nat) : CapturesLost s (s.raise src rsn args whom) :=
  ⟨fun o _ => by rw [State.reg, State.raise_regs]; rfl, State.raise_part .., State.raise_time .., fun g => by rw [State.raise_sag],
    fun _ _ he => State.mem_queueOf_raise he ..⟩

theorem State.capturesLost_abortCapture (s : State) {g : Nat} (hg : g < 16) : CapturesLost s (s.abortCapture g) := by
  refine ⟨fun o ho => s.reg_abortCapture_other g (ho g hg), by rw [State.abortCapture_eq], by rw [State.abortCapture_eq], fun h => ?_,
    fun _ _ he => State.mem_queueOf_abortCapture he g⟩
  rw [State.sag_abortCapture]
  split
  · next heq => rw [heq]
  · rfl

/-- A sagger whose fabric PLL `p` has lost lock: it is said, and a capture that this PLL clocks is aborted. -/
def State.losePll (p : Nat) (s : State) (g : Nat) : State :=
  let t := s.raise (744 + g) 9
  if t.netSource g (t.capNet g) = 4 + p then t.abortCapture g else t

/-- Whether the net of an armed capture of sagger `g` would come from fabric PLL `p`. -/
def State.capturesBy (s : State) (p g : Nat) : Bool := decide (s.netSource g (s.capNet g) = 4 + p)

theorem CapturesLost.capturesBy {s t : State} (h : CapturesLost s t) (p g : Nat) : t.capturesBy p g = s.capturesBy p g := by
  rw [State.capturesBy, h.capNet g, h.netSource g, State.capturesBy]

theorem State.losePll_effect (p : Nat) {s : State} {g : Nat} (hg : g < s.part.saggers) :
    CapturesLost s (s.losePll p g) ∧ Heard (s.losePll p g) (744 + g) 9 0 15 ∧
      ∀ h, ((s.losePll p g).sag h).armed = ((s.sag h).armed && !(h == g && s.capturesBy p h)) := by
  have h16 : g < 16 := Nat.lt_of_lt_of_le hg s.part.saggers_le
  have hraise := s.capturesLost_raise (744 + g) 9 [] 15
  have hheard : Heard (s.raise (744 + g) 9) (744 + g) 9 0 15 := heard_raise (sourcePresent_sagger hg) 9 [] 15 none false
  have hby := hraise.capturesBy p g
  unfold State.losePll
  dsimp only
  split
  · next hsource =>
    have habort := (s.raise (744 + g) 9).capturesLost_abortCapture h16
    refine ⟨hraise.trans habort, habort.heard h16 hheard, fun h => ?_⟩
    rw [State.capturesBy, decide_eq_true hsource] at hby
    rw [State.sag_abortCapture, State.raise_sag]
    by_cases heq : h = g
    · simp [heq, ← hby]
    · simp [heq]
  · next hsource =>
    refine ⟨hraise, hheard, fun h => ?_⟩
    rw [State.capturesBy, decide_eq_false hsource] at hby
    rw [State.raise_sag]
    by_cases heq : h = g
    · simp [heq, ← hby]
    · simp [heq]

/-- The loss of lock for some saggers, one after another. -/
theorem State.losePlls_effect (p : Nat) (l : List Nat) {s : State} (hl : ∀ g ∈ l, g < s.part.saggers) :
    CapturesLost s (l.foldl (State.losePll p) s) ∧ (∀ g ∈ l, Heard (l.foldl (State.losePll p) s) (744 + g) 9 0 15) ∧
      ∀ h, ((l.foldl (State.losePll p) s).sag h).armed = ((s.sag h).armed && !(l.contains h && s.capturesBy p h)) := by
  induction l generalizing s with
  | nil => exact ⟨.refl s, by simp, fun h => by simp⟩
  | cons g l ih =>
    have hg := hl g List.mem_cons_self
    obtain ⟨hfirst, hheard, harmed⟩ := State.losePll_effect p hg
    obtain ⟨hrest, hheards, harmeds⟩ := ih (s := s.losePll p g) fun x hx => by
      rw [hfirst.2.1]; exact hl x (List.mem_cons_of_mem _ hx)
    rw [List.foldl_cons]
    refine ⟨hfirst.trans hrest, fun x hx => ?_, fun h => ?_⟩
    · obtain rfl | hx := List.mem_cons.mp hx
      · exact hrest.heard (Nat.lt_of_lt_of_le hg s.part.saggers_le) hheard
      · exact hheards x hx
    · rw [harmeds, harmed, hfirst.capturesBy, List.contains_cons]
      cases h == g <;> cases s.capturesBy p h <;> simp

theorem State.lt_of_mem_usersOfPll {s : State} {p g : Nat} (h : g ∈ s.usersOfPll p) : g < s.part.saggers :=
  List.mem_range.mp (List.mem_filter.mp h).1

theorem exec_fabricPllUnlock {s : State} {p : Nat} (hp : p < 2) (hlock : s.fld (fpllStatus p) fpllStatus_LOCK = 1) :
    exec (.fabricPllUnlock p) s = .next ((s.usersOfPll p).foldl (State.losePll p) (s.setFld (fpllStatus p) fpllStatus_LOCK 0)) := by
  have hlocked : s.fpllLocked p = true := by simp [State.fpllLocked, State.bit, hlock]
  simp only [exec, execFabricPllUnlock, State.onlyIf, hp, hlocked, decide_true, Bool.and_self, if_true]
  rfl

theorem exec_fabricPllRelock {s : State} {p : Nat} (hp : p < 2) (hfreq : s.fld (fpllStatus p) fpllStatus_FREQ ≠ 0) :
    exec (.fabricPllRelock p) s = .next (s.setFld (fpllStatus p) fpllStatus_LOCK 1) := by
  simp [exec, execFabricPllRelock, State.onlyIf, hp, hfreq]

/-- LOCK of a fabric PLL says nothing of the nets' sources. -/
theorem State.capturesBy_setFld_fpllStatus (s : State) (j : Nat) (F : Fld) (x p : Nat) {g : Nat} (hg : g < 16) :
    (s.setFld (fpllStatus j) F x).capturesBy p g = s.capturesBy p g := by
  have hstate : sagState g ≠ fpllStatus j := by unfold sagState fpllStatus; omega
  have hsel : clksel g ≠ fpllStatus j := by unfold clksel fpllStatus; omega
  have hsource := State.netSource_congr (t := s.setFld (fpllStatus j) F x) (State.reg_setReg_other _ _ hstate)
    (State.reg_setReg_other _ _ hsel) rfl
  unfold State.capturesBy
  rw [hsource]
  rfl

end Sys2Proof.Machine
end

section
/-! SUPPORT. The power-down of a sagger (R296, R355, R384). -/

namespace Sys2Proof.Machine

open Regs

/-! ### NIs that drain (R384) -/

/-- The NIs of a sagger's domain are its two (R365). -/
theorem niDomain_eq_sagger {m g : Nat} (hg : g < 16) : niDomain m = 16 + g ↔ m = niSagger g 0 ∨ m = niSagger g 1 := by
  unfold niDomain niSagger
  dsimp only
  repeat' split
  all_goals omega

/-- An NI waits for the response to a request of its unit. -/
theorem State.niIdle_of_request {s : State} {n : Nat} (h : ∃ r ∈ s.noc.reqs, r.ni = n) : s.niIdle n = false := by
  have hany : s.noc.reqs.any (fun r => r.ni == n) = true := by simpa using h
  rw [State.niIdle, hany]
  rfl

/-- An NI without requests, to which no packet is on its way, has nothing left to do. -/
theorem State.niIdle_of_quiet {s : State} {n : Nat} (hreq : ∀ r ∈ s.noc.reqs, r.ni ≠ n) (hnet : ∀ p ∈ s.net, p.dst ≠ n) :
    s.niIdle n = true := by
  have hinside : ∀ p : Packet, p.dst = n → p ∉ s.net := fun p hp hmem => hnet p hmem hp
  simp only [State.niIdle, Bool.and_eq_true, Bool.not_eq_true', List.any_eq_false, Bool.not_eq_true, beq_iff_eq,
    List.contains_eq_mem, decide_eq_true_eq, not_and]
  exact ⟨hreq, fun d _ p _ => hinside p⟩

/-- The NIs that have drained, with one more. -/
def State.withDrained (s : State) (n : Nat) : State := { s with noc := { s.noc with drained := (n :: s.noc.drained).eraseDups } }

theorem State.withDrained_loader (s : State) (n : Nat) : (s.withDrained n).loader = s.loader := rfl

theorem State.contains_withDrained (s : State) (n m : Nat) : (s.withDrained n).noc.drained.contains m = true ↔ m = n ∨ m ∈ s.noc.drained := by
  rw [List.contains_iff_mem]
  exact List.mem_eraseDups.trans List.mem_cons

theorem State.niDrained_eq (s : State) (n : Nat) : s.niDrained n =
    if ((List.range 256).filter (fun m => niDomain m == niDomain n)).all (fun m => (s.withDrained n).noc.drained.contains m) then
      (s.withDrained n).powerDown (niDomain n) else s.withDrained n := rfl

/-- While another NI of the domain has not drained, the domain stays. -/
theorem State.niDrained_of_waiting {s : State} {n m : Nat} (hm : niDomain m = niDomain n) (hlt : m < 256) (hne : m ≠ n)
    (hwait : m ∉ s.noc.drained) : s.niDrained n = s.withDrained n := by
  rw [State.niDrained_eq, if_neg]
  rw [List.all_eq_true]
  intro hall
  obtain heq | hmem := (s.contains_withDrained n m).mp (hall m (by simp [hlt, hm]))
  · exact hne heq
  · exact hwait hmem

/-- A sagger's domain as it loses its power, before the sagger goes OFF. -/
def State.cutPower (s : State) (g : Nat) : State :=
  let t := (s.setPower (16 + g) .off).resetBridges (16 + g)
  { t with noc := { t.noc with drained := t.noc.drained.filter (fun n => niDomain n != 16 + g)
                               draining := t.noc.draining.filter (fun (x : Nat × Nat × List Packet) => x.1 != 16 + g) } }

theorem State.cutPower_loader (s : State) (g : Nat) : (s.cutPower g).loader = s.loader := rfl

section
variable {s : State} {g : Nat} (hg : g < 16)
include hg

theorem niDomain_sagger {half : Nat} (hhalf : half < 2) : niDomain (niSagger g half) = 16 + g := by
  rw [niDomain_eq_sagger hg]
  unfold niSagger
  omega

theorem niSagger_lt {half : Nat} (hhalf : half < 2) : niSagger g half < 256 := by
  unfold niSagger; omega

/-- The second NI of a sagger to drain lets its domain power down. -/
theorem State.niDrained_of_last (hfirst : niSagger g 0 ∈ s.noc.drained) :
    s.niDrained (niSagger g 1) = (s.withDrained (niSagger g 1)).powerDown (16 + g) := by
  have hdomain := niDomain_sagger hg (half := 1) (by decide)
  rw [State.niDrained_eq, hdomain, if_pos]
  rw [List.all_eq_true]
  intro m hm
  have hm' : niDomain m = 16 + g := by simpa using (List.mem_filter.mp hm).2
  rw [State.contains_withDrained]
  obtain rfl | rfl := (niDomain_eq_sagger hg).mp hm'
  · exact .inr hfirst
  · exact .inl rfl

/-! ### The sagger's domain goes dark (R296) -/

theorem State.powerDown_sagger : s.powerDown (16 + g) = (s.cutPower g).darkSagger g := by
  unfold State.powerDown
  dsimp only
  rw [if_neg (by omega), if_pos (by omega), Nat.add_sub_cancel_left]
  rfl

end

theorem State.reg_powerSagger_off (s : State) (g : Nat) :
    (s.powerSagger g false).reg (sagState g) = sagState_POWERED.put (s.reg (sagState g)) 0 :=
  State.reg_setFld_same ((s.resetBridges (16 + g)).setPower (16 + g) .off) (sagState g) sagState_POWERED 0

theorem State.darkSagger_effect (s : State) (g : Nat) :
    (s.darkSagger g).saggerState g = 0 ∧ (s.darkSagger g).fld (sagState g) sagState_POWERED = 0 ∧ (s.darkSagger g).powerOf (16 + g) = .off ∧
      (s.darkSagger g).loader = { s.loader with cells := s.loader.cells.filter (fun c => c.1 / 0x80000 != g + 1) } := by
  have hreg : (s.darkSagger g).reg (sagState g) = sagState_POWERED.put (sagState_STATE.put (s.reg (sagState g)) 0) 0 := by
    unfold State.darkSagger
    dsimp only
    rw [State.reg_abortCapture_other _ _ (by unfold sagState capStatus; omega), State.reg_powerSagger_off, State.setSaggerState,
      State.reg_setFld_same]
    rfl
  refine ⟨?_, ?_, ?_, ?_⟩
  · rw [State.saggerState, State.fld, hreg, Fld.get_put_apart (by decide), Fld.get_put_same (by decide)]
    rfl
  · rw [State.fld, hreg, Fld.get_put_same (by decide)]
    rfl
  · unfold State.darkSagger
    dsimp only
    rw [State.abortCapture_eq]
    exact FMap.get_set_same ..
  · unfold State.darkSagger
    dsimp only
    rw [State.abortCapture_eq]
    rfl

/-! ### The command (R355) -/

/-- Sagger `g` as its power-down begins: its abort is forgotten, and its domain drains. -/
def State.drainSagger (s : State) (g : Nat) : State :=
  ({ s with loader := { s.loader with abortAt := FMap.set (fun _ => none) s.loader.abortAt g none } } : State).beginPowerDown (16 + g)

theorem State.drainSagger_effect {s : State} {g : Nat} (hon : s.powerOf (16 + g) = .on) :
    ((s.drainSagger g).powerOf (16 + g) = .draining ∧ ∀ n ∈ (s.drainSagger g).noc.drained, niDomain n ≠ 16 + g) ∧
      ((s.drainSagger g).noc.reqs = s.noc.reqs ∧ (s.drainSagger g).net = s.net) ∧
      (s.drainSagger g).loader = { s.loader with abortAt := FMap.set (fun _ => none) s.loader.abortAt g none } ∧
      (s.drainSagger g).saggerState g = s.saggerState g ∧ (s.drainSagger g).sag g = s.sag g := by
  have hpower : ({ s with loader := { s.loader with abortAt := FMap.set (fun _ => none) s.loader.abortAt g none } } : State).powerOf (16 + g)
      = .on := hon
  have hhigh : ¬ 16 + g < 16 := by omega
  unfold State.drainSagger State.beginPowerDown
  simp only [hpower, hhigh, ne_eq, not_true, if_false]
  refine ⟨⟨FMap.get_set_same .., fun n hn => ?_⟩, ⟨rfl, rfl⟩, rfl, rfl, rfl⟩
  simpa using (List.mem_filter.mp hn).2

/-- Neither NI of the sagger has drained as its power-down begins, so the first that does leaves its domain on. -/
theorem State.niDrained_drainSagger {s : State} {g half : Nat} (h16 : g < 16) (hon : s.powerOf (16 + g) = .on) (hhalf : half < 2) :
    (s.drainSagger g).niDrained (niSagger g half) = (s.drainSagger g).withDrained (niSagger g half) := by
  have hother : 1 - half < 2 := by omega
  obtain ⟨⟨-, hdrained⟩, -⟩ := State.drainSagger_effect hon
  refine State.niDrained_of_waiting (m := niSagger g (1 - half)) ?_ (niSagger_lt h16 hother) ?_ fun hmem =>
    hdrained _ hmem (niDomain_sagger h16 hother)
  · rw [niDomain_sagger h16 hother, niDomain_sagger h16 hhalf]
  · unfold niSagger; omega

/-- An NI that has nothing left to do drains at once. -/
def State.tryDrain (s : State) (n : Nat) : State := if s.niIdle n then s.niDrained n else s

theorem State.tryDrain_of_idle {s : State} {n : Nat} (h : s.niIdle n = true) : s.tryDrain n = s.niDrained n := if_pos h

theorem State.tryDrain_of_busy {s : State} {n : Nat} (h : s.niIdle n = false) : s.tryDrain n = s := if_neg (by simp [h])

theorem exec_saggerPowerDown {s : State} {g a : Nat} (hg : g < s.part.saggers) (habort : FMap.get (fun _ => none) s.loader.abortAt g = some a)
    (hstate : s.saggerState g = 1) (hload : s.loader.load = none) (hdue : a + 200000000 ≤ s.tickStart) : exec (.saggerPowerDown g) s
      = .next (((s.drainSagger g).tryDrain (niSagger g 0)).tryDrain (niSagger g 1)) := by
  have hfree : s.loader.load.any (fun l => l.hdr.any (fun h => h.region == g + 1)) = false := by rw [hload]; rfl
  simp only [exec, execSaggerPowerDown, habort, State.hasSagger_eq_true hg, hstate, hfree, hdue, BEq.rfl, Bool.not_false, decide_true,
    Bool.and_self, if_true]
  rfl

/-- Settles O40: the end of a restart's holds, the loss of a fabric PLL sagger by sagger, and a power-down that waits for the NIs that have
something left to do. -/
theorem fabricClocks : Obligations.FabricClocks := by
  unfold Obligations.FabricClocks
  refine fun s => ⟨fun g net hg hrun hheld hover => ?hold, fun p hp hlock => ?unlock, fun p hp hfreq => ?relock,
    fun g a hg habort hstate hload hdue hon hreq => ?drains, fun g a hg habort hstate hload hdue hon hreq hnet => ?down⟩
  case hold =>
    rw [exec_restartHoldRelease hg hrun hheld hover]
    generalize ht : (if ((s.releaseHold g net).sag g).held = [] then _ else _ : State) = t
    have hsags : t.sags = (s.releaseHold g net).sags := by rw [← ht]; split <;> simp only [State.raise_sags]
    have hheld' : (t.sag g).held = (s.sag g).held.filter (· != net) := by rw [State.sag_congr hsags, State.held_releaseHold]
    refine ⟨t, rfl, fun j => by rw [hheld']; simp, fun h hne => ?_, fun hnone => ?_, fun hsome => ?_⟩
    · rw [State.sag_congr hsags]
      exact s.sag_setSag_other _ hne
    · rw [hsags, ← ht, if_pos (by rw [State.held_releaseHold, ← hheld', hnone])]
      exact (sets_refl (s.releaseHold g net)).raise _ _ _ _ (sourcePresent_sagger hg)
    · rw [← ht, if_neg (by rwa [State.held_releaseHold, ← hheld'])]
      rfl
  case unlock =>
    rw [exec_fabricPllUnlock hp hlock]
    have husers (g : Nat) (hg : g ∈ s.usersOfPll p) : g < 16 := Nat.lt_of_lt_of_le (State.lt_of_mem_usersOfPll hg) s.part.saggers_le
    obtain ⟨hlost, hheard, harmed⟩ := State.losePlls_effect p (s.usersOfPll p) (s := s.setFld (fpllStatus p) fpllStatus_LOCK 0)
      fun g hg => State.lt_of_mem_usersOfPll (s := s) hg
    refine ⟨_, rfl, ?_, hheard, fun g => (harmed g).trans ?_⟩
    · rw [State.fld, hlost.1 _ fun g hg => by unfold fpllStatus capStatus; omega, State.reg_setFld_same, Fld.get_put_same (by decide)]
      rfl
    · show ((s.sag g).armed && _) = _
      by_cases hg : g ∈ s.usersOfPll p
      · rw [State.capturesBy_setFld_fpllStatus _ _ _ _ _ (husers g hg)]
        rfl
      · simp [hg]
  case relock => exact ⟨_, exec_fabricPllRelock hp hfreq, (sets_refl s).setFld _ _ _⟩
  case drains =>
    have h16 : g < 16 := Nat.lt_of_lt_of_le hg s.part.saggers_le
    obtain ⟨⟨hpower, -⟩, ⟨hreqs, -⟩, -, hcode, hsag⟩ := State.drainSagger_effect hon
    have hbusy : (s.drainSagger g).niIdle (niSagger g 0) = false := State.niIdle_of_request (by rwa [hreqs])
    rw [exec_saggerPowerDown hg habort hstate hload hdue, State.tryDrain_of_busy hbusy]
    refine ⟨_, rfl, ?_⟩
    cases hidle : (s.drainSagger g).niIdle (niSagger g 1) with
    | false =>
      rw [State.tryDrain_of_busy hidle]
      exact ⟨hpower, hcode.trans hstate, hsag⟩
    | true =>
      rw [State.tryDrain_of_idle hidle, State.niDrained_drainSagger h16 hon (by decide)]
      exact ⟨hpower, hcode.trans hstate, hsag⟩
  case down =>
    have h16 : g < 16 := Nat.lt_of_lt_of_le hg s.part.saggers_le
    obtain ⟨-, ⟨hreqs, hnets⟩, hloaded, -⟩ := State.drainSagger_effect hon
    have hquiet (half : Nat) (hhalf : half < 2) : (s.drainSagger g).niIdle (niSagger g half) = true := by
      refine State.niIdle_of_quiet (fun r hr hni => ?_) fun p hp hdst => ?_
      · exact hreq r (hreqs ▸ hr) (hni ▸ niDomain_sagger h16 hhalf)
      · exact hnet p (hnets ▸ hp) (hdst ▸ niDomain_sagger h16 hhalf)
    have hsecond : ((s.drainSagger g).withDrained (niSagger g 0)).niIdle (niSagger g 1) = true := hquiet 1 (by decide)
    have hmem : niSagger g 0 ∈ ((s.drainSagger g).withDrained (niSagger g 0)).noc.drained :=
      List.contains_iff_mem.mp ((State.contains_withDrained ..).mpr (.inl rfl))
    rw [exec_saggerPowerDown hg habort hstate hload hdue, State.tryDrain_of_idle (hquiet 0 (by decide)),
      State.niDrained_drainSagger h16 hon (by decide), State.tryDrain_of_idle hsecond, State.niDrained_of_last h16 hmem, State.powerDown_sagger h16]
    obtain ⟨hoff, hpowered, hpower, hloader⟩ := State.darkSagger_effect _ g
    rw [State.cutPower_loader, State.withDrained_loader, State.withDrained_loader, hloaded] at hloader
    exact ⟨_, rfl, hoff, hpowered, hpower, by rw [hloader], by rw [hloader]; exact FMap.get_set_same (fun _ => none) s.loader.abortAt g none⟩

end Sys2Proof.Machine
end

section
/-! SUPPORT. What triggers leave as it is outside the capture streams (R411, R412, R594). -/

namespace Sys2Proof.Machine

open Regs

/-- `t` is `s` but for the registers of the capture streams, capture memory, the events that wait and the record of R12. -/
def OnlyCaptures (s t : State) : Prop :=
  (∀ o, o < 0x801000 → t.reg o = s.reg o) ∧
    { t with regs := s.regs, mem := s.mem, events := s.events, hwAt := s.hwAt, hwSet := s.hwSet } = s

theorem OnlyCaptures.refl (s : State) : OnlyCaptures s s := ⟨fun _ _ => rfl, rfl⟩

section
variable {s t : State} (h : OnlyCaptures s t)
include h

theorem OnlyCaptures.setReg {a : Nat} (ha : 0x801000 ≤ a) (w : Word) : OnlyCaptures s (t.setReg a w) :=
  ⟨fun o ho => by rw [State.reg_setReg_other _ _ (by omega), h.1 o ho], h.2⟩

theorem OnlyCaptures.setFld {a : Nat} (ha : 0x801000 ≤ a) (F : Fld) (x : Nat) : OnlyCaptures s (t.setFld a F x) := h.setReg ha _

theorem OnlyCaptures.setFlag {a : Nat} (ha : 0x801000 ≤ a) (F : Fld) : OnlyCaptures s (t.setFlag a F) := ⟨(h.setFld ha F _).1, h.2⟩

theorem OnlyCaptures.setPair {lo hi : Nat} (hlo : 0x801000 ≤ lo) (hhi : 0x801000 ≤ hi) (x : Nat) : OnlyCaptures s (t.setPair lo hi x) :=
  (h.setReg hlo _).setReg hhi _

theorem OnlyCaptures.mem (m : MemSt) : OnlyCaptures s { t with mem := m } := ⟨h.1, h.2⟩

theorem OnlyCaptures.setCap (k : Nat) (x : CapSt) : OnlyCaptures s (t.setCap k x) := h.mem _

theorem OnlyCaptures.setSeg (g : Nat) (x : Seg) : OnlyCaptures s (t.setSeg g x) := h.mem _

theorem OnlyCaptures.raise (src rsn : Nat) (args : List Nat) (whom : Nat) : OnlyCaptures s (t.raise src rsn args whom) := by
  rw [State.raise_eq]; exact h

theorem OnlyCaptures.setCapState (k x : Nat) : OnlyCaptures s (t.setCapState k x) := h.setFld (by unfold capStrStatus; omega) _ _

theorem OnlyCaptures.putMark (k r v nib tick : Nat) : OnlyCaptures s (t.putMark k r v nib tick) := (h.mem _).setSeg _ _

theorem OnlyCaptures.storeUnit (k q u tick : Nat) : OnlyCaptures s (t.storeUnit k q u tick) := by
  unfold State.storeUnit
  dsimp only
  refine OnlyCaptures.setCap ?_ k _
  split
  · exact ((h.mem _).setSeg _ _).putMark _ _ _ _ _
  · exact (h.mem _).setSeg _ _

end

/-- A fold whose steps keep the rest of the state keeps it. -/
theorem OnlyCaptures.foldl {α : Type} {s t : State} {f : State → α → State} (hf : ∀ u x, OnlyCaptures s u → OnlyCaptures s (f u x))
    (h : OnlyCaptures s t) (xs : List α) : OnlyCaptures s (xs.foldl f t) := by
  induction xs generalizing t with
  | nil => exact h
  | cons x xs ih => exact ih (hf t x h)

theorem OnlyCaptures.closeCap {s t : State} (h : OnlyCaptures s t) (k : Nat) (frozen : Bool) : OnlyCaptures s (t.closeCap k frozen) := by
  unfold State.closeCap
  dsimp only
  generalize hfilled : (if (t.cap k).part.isEmpty then t else _ : State) = v
  have hv : OnlyCaptures s v := by
    rw [← hfilled]
    split
    · exact h
    · exact h.storeUnit _ _ _ _
  generalize hfreed : List.foldl _ v (v.capRuns k) = w
  have hw : OnlyCaptures s w := by
    rw [← hfreed]
    refine OnlyCaptures.foldl (fun u g hu => ?_) hv _
    split
    · exact hu.setSeg _ _
    · split
      · exact hu.setSeg _ _
      · exact hu
  refine OnlyCaptures.raise ?_ _ _ _ _
  split
  · exact (((hw.setCapState _ _).setCap _ _).setFlag (by unfold capStrStatus; omega) _).raise _ _ _ _
  · exact (hw.setCapState _ _).setCap _ _

theorem OnlyCaptures.triggerCap {s t : State} (h : OnlyCaptures s t) (k : Nat) : OnlyCaptures s (t.triggerCap k) := by
  have hindex (x : Nat) : OnlyCaptures s (t.setPair (trigIdxLo k) (trigIdxHi k) x) :=
    h.setPair (by unfold trigIdxLo; omega) (by unfold trigIdxHi; omega) x
  unfold State.triggerCap
  dsimp only
  by_cases hrunning : t.capState k = 2
  · rw [if_pos hrunning]
    exact ((hindex _).setCap _ _).setCapState _ _
  · rw [if_neg hrunning]
    by_cases hfull : t.capState k = 4
    · rw [if_pos hfull]
      by_cases hstop : (t.cap k).ending = true
      · rw [if_pos hstop]
        exact hindex _
      · rw [if_neg hstop]
        exact (hindex _).closeCap _ _
    · rw [if_neg hfull]
      exact h

theorem State.onlyCaptures_riseTriggers (s0 s : State) (src : Nat) : OnlyCaptures s (s0.riseTriggers s src) := by
  unfold State.riseTriggers
  split
  · refine OnlyCaptures.foldl (fun u k hu => ?_) (.refl s) _
    dsimp only
    split
    · exact hu.triggerCap k
    · exact hu
  · exact .refl s

theorem OnlyCaptures.pins {s t : State} (h : OnlyCaptures s t) : t.pins = s.pins := by
  have := congrArg State.pins h.2
  exact this

theorem OnlyCaptures.cur {s t : State} (h : OnlyCaptures s t) {o : Nat} (ho : o < 0x801000) (F : Fld) : t.cur o F = s.cur o F := by
  have hold : t.rwtOld = s.rwtOld := by
    have := congrArg State.rwtOld h.2
    exact this
  rw [State.cur, State.oldReg, hold, h.1 o ho]
  rfl

end Sys2Proof.Machine
end

section
/-! SUPPORT. Timer channels, trigger lines, pin trigger inputs and trigger outputs of saggers (R318, R500–R505). -/

namespace Sys2Proof.Machine

open Regs

/-! ### Conflicts and pin trigger inputs (R489, R490) -/

/-- `t` is `s` but for registers below those of the hard peripherals. -/
def OnlyPads (s t : State) : Prop := (∀ o, 0x60F000 ≤ o → t.reg o = s.reg o) ∧ { t with regs := s.regs } = s

theorem OnlyPads.refl (s : State) : OnlyPads s s := ⟨fun _ _ => rfl, rfl⟩

theorem OnlyPads.setFld {s t : State} (h : OnlyPads s t) {a : Nat} (ha : a < 0x60F000) (F : Fld) (x : Nat) : OnlyPads s (t.setFld a F x) :=
  ⟨fun o ho => (State.reg_setReg_other _ _ (by omega)).trans (h.1 o ho), h.2⟩

theorem OnlyPads.foldBelow {s : State} {f : Nat → State → State} {n : Nat}
    (hf : ∀ k < n, ∀ t, OnlyPads s t → OnlyPads s (f k t)) : OnlyPads s (foldBelow f n s) :=
  List.foldlRecOn (motive := OnlyPads s) (List.range n) _ (.refl s) fun t ht k hk => hf k (List.mem_range.mp hk) t ht

theorem State.onlyPads_markConflicts (s : State) : OnlyPads s s.markConflicts := by
  refine OnlyPads.foldBelow fun p hp t ht => ?_
  dsimp only
  split
  · exact ht
  · exact ht.setFld (by unfold pinCfg; omega) _ _

theorem State.onlyPads_dropPti (s : State) : OnlyPads s s.dropPti := by
  refine OnlyPads.foldBelow fun k _ t ht => ?_
  dsimp only
  split
  · exact ht.setFld (by decide) _ _
  · exact ht

theorem OnlyPads.tmr {s t : State} (h : OnlyPads s t) (n : Nat) : t.tmr n = s.tmr n := by
  have hpins : t.pins = s.pins := by
    have := congrArg State.pins h.2
    exact this
  rw [State.tmr, hpins, State.tmr]

theorem OnlyPads.time {s t : State} (h : OnlyPads s t) : t.time = s.time := by
  have := congrArg State.time h.2
  exact this

/-! ### Writes of a timer's CTRL (R500) -/

theorem State.tmr_setTmr (s : State) (n : Nat) (x : TmrSt) (k : Nat) : (s.setTmr n x).tmr k = if k = n then x else s.tmr k := FMap.get_set ..

theorem State.tmr_setFlag (s : State) (a : Nat) (F : Fld) (k : Nat) : (s.setFlag a F).tmr k = s.tmr k := rfl

/-- A field that is RW throughout reads as written. -/
theorem Regs.Desc.get_write {d : Desc} {F : Fld} (h : ∀ i < F.width, (d.bits .rw).getLsbD (F.lo + i) = true) (w v : Word) :
    F.get (d.write w v) = F.get v := by
  refine Fld.get_congr fun i hi => ?_
  simp only [Desc.write, BitVec.getLsbD_or, BitVec.getLsbD_and, BitVec.getLsbD_not, h i hi]
  simp

/-- The compare instant that a timer channel takes: its registers, the sub-tick rounded up to a pin clock. -/
def State.compareStamp (s : State) (n : Nat) : Nat × Nat :=
  (s.pair (cmpTickLo n) (cmpTickHi n), ((s.reg (cmpSub n)).toNat + 9) / 10 * 10)

/-- CTRL of a timer channel written, with the conflicts of pins that its mode brings. -/
def State.tmrWritten (s : State) (n : Nat) (v : Word) : State :=
  (s.setReg (tmrCtrl n) (tmrCtrlDesc.write (s.reg (tmrCtrl n)) v)).markConflicts

/-- What a timer channel does with its compare registers as CTRL is written. -/
def State.tmrLoaded (s : State) (n : Nat) (v : Word) : State :=
  let t := s.tmrWritten n v
  if tmrCtrl_EN.get v = 1 ∧ 2 ≤ tmrCtrl_MODE.get v then
    if stampBeforeStamp (s.compareStamp n) (s.time.tick, s.time.sub) then
      (t.setTmr n { t.tmr n with armed := none }).setFlag (tmrStatus n) tmrStatus_LATE
    else t.setTmr n { t.tmr n with armed := some (s.compareStamp n) }
  else t.setTmr n ⟨none, false, none⟩

theorem exec_tmrCtrlWrite {s : State} {n : Nat} {v : Word} (hn : n < 16) (ho : s.open_ = true) (hedge : tmrCtrl_EDGE.get v ≠ 3) :
    exec (.tmrCtrlWrite 0 n v) s = .next (s.tmrLoaded n v).dropPti := by
  show s.hostWrite _ = _
  rw [State.hostWrite_of_open ho, State.onlyIf, if_pos (decide_eq_true hn), State.writeTmrCtrl, State.allowed_of_true (by decide),
    if_neg hedge, State.writeReg_of_not_timed (by decide), State.effective_of_no_w1c (by decide)]
  rfl

section
variable (s : State) (n : Nat) (v : Word)

theorem State.tmrWritten_effect : (∀ k, (s.tmrWritten n v).tmr k = s.tmr k) ∧ (s.tmrWritten n v).time = s.time ∧
    (s.tmrWritten n v).reg (tmrCtrl n) = tmrCtrlDesc.write (s.reg (tmrCtrl n)) v := by
  have hmark := (s.setReg (tmrCtrl n) (tmrCtrlDesc.write (s.reg (tmrCtrl n)) v)).onlyPads_markConflicts
  refine ⟨hmark.tmr, hmark.time, (hmark.1 _ ?_).trans (State.reg_setReg_same ..)⟩
  unfold tmrCtrl; omega

/-- What every write of CTRL leaves: the register written, and the time and the other channels as they were. -/
theorem State.tmrLoaded_frame : (∀ k, k ≠ n → (s.tmrLoaded n v).tmr k = s.tmr k) ∧ (s.tmrLoaded n v).time = s.time ∧
    (s.tmrLoaded n v).reg (tmrCtrl n) = tmrCtrlDesc.write (s.reg (tmrCtrl n)) v := by
  obtain ⟨htmr, htime, hreg⟩ := s.tmrWritten_effect n v
  have hstatus : tmrCtrl n ≠ tmrStatus n := by unfold tmrCtrl tmrStatus; omega
  unfold State.tmrLoaded
  dsimp only
  generalize s.tmrWritten n v = t at *
  have hset (x : TmrSt) : (∀ k, k ≠ n → (t.setTmr n x).tmr k = s.tmr k) :=
    fun k hne => (State.tmr_setTmr ..).trans ((if_neg hne).trans (htmr k))
  split
  · split
    · exact ⟨hset _, htime, (State.reg_setReg_other _ _ hstatus).trans hreg⟩
    · exact ⟨hset _, htime, hreg⟩
  · exact ⟨hset _, htime, hreg⟩

variable {n v}

theorem State.tmrLoaded_of_late (hen : tmrCtrl_EN.get v = 1) (hmode : 2 ≤ tmrCtrl_MODE.get v)
    (hlate : stampBeforeStamp (s.compareStamp n) (s.time.tick, s.time.sub) = true) :
    s.tmrLoaded n v = ((s.tmrWritten n v).setTmr n { s.tmr n with armed := none }).setFlag (tmrStatus n) tmrStatus_LATE := by
  unfold State.tmrLoaded
  dsimp only
  rw [if_pos ⟨hen, hmode⟩, if_pos hlate, (s.tmrWritten_effect n v).1]

theorem State.tmrLoaded_of_ahead (hen : tmrCtrl_EN.get v = 1) (hmode : 2 ≤ tmrCtrl_MODE.get v)
    (hahead : stampBeforeStamp (s.compareStamp n) (s.time.tick, s.time.sub) = false) :
    s.tmrLoaded n v = (s.tmrWritten n v).setTmr n { s.tmr n with armed := some (s.compareStamp n) } := by
  unfold State.tmrLoaded
  dsimp only
  rw [if_pos ⟨hen, hmode⟩, if_neg (by simp [hahead]), (s.tmrWritten_effect n v).1]

theorem State.tmrLoaded_of_off (hen : tmrCtrl_EN.get v = 0) :
    s.tmrLoaded n v = (s.tmrWritten n v).setTmr n ⟨none, false, none⟩ := if_neg (by omega)

end

/-! ### Compare instants and pulses (R497, R500) -/

theorem firstFrom_lt {p : Nat → Bool} {lo n i : Nat} (h : firstFrom p lo n = some i) : i < lo + n := by
  induction n generalizing lo with
  | zero => cases h
  | succ n ih =>
    unfold firstFrom at h
    split at h
    · cases h; omega
    · have := ih h; omega

theorem lowest_lt {p : Nat → Bool} {n i : Nat} (h : lowest n p = some i) : i < n := by
  have := firstFrom_lt h
  omega

/-- The sources of pins are those of every part (R455). -/
theorem sourcePresent_pin {p : Part} {src : Nat} (h : src < 448) : sourcePresent p src = true := if_pos h

theorem State.unitEvent_eq (s : State) (kind u reason : Nat) (args : List Nat) :
    s.unitEvent kind u reason args = { s with events := (s.unitEvent kind u reason args).events } := by
  unfold State.unitEvent
  split
  · exact State.raise_eq ..
  · rfl

theorem State.bit_unitEvent (s : State) (kind u reason : Nat) (args : List Nat) (a : Nat) (F : Fld) :
    (s.unitEvent kind u reason args).bit a F = s.bit a F := by
  rw [State.unitEvent_eq]; rfl

theorem State.tmr_unitEvent (s : State) (kind u reason : Nat) (args : List Nat) (n : Nat) :
    (s.unitEvent kind u reason args).tmr n = s.tmr n := by
  rw [State.unitEvent_eq]; rfl

theorem heard_unitEvent {s : State} {kind u p : Nat} (h : lowest 448 (s.carries kind u) = some p) (reason : Nat) (args : List Nat) :
    Heard (s.unitEvent kind u reason args) p reason (args.getD 0 0) 15 := by
  unfold State.unitEvent
  rw [h]
  exact heard_raise (sourcePresent_pin (lowest_lt h)) reason args 15 none false

/-- A timer channel whose compare instant has come: a pulse begins in mode 2, and else the output toggles. -/
def State.tmrFired (s : State) (n : Nat) : TmrSt :=
  if s.tmrMode n = 2 then ⟨none, true, some (s.time.now + 10 * s.fld (tmrCtrl n) tmrCtrl_WIDTH)⟩ else ⟨none, !(s.tmr n).out, none⟩

/-- The compare instant of a timer channel come, before its event. -/
def State.tmrCompared (s : State) (n : Nat) : State := (s.setTmr n (s.tmrFired n)).setFlag (tmrStatus n) tmrStatus_CMP

theorem State.tmr_tmrCompared (s : State) (n k : Nat) : (s.tmrCompared n).tmr k = if k = n then s.tmrFired n else s.tmr k :=
  s.tmr_setTmr n _ k

theorem State.bit_setFlag {F : Fld} (hF : F.width = 1) (hlo : F.lo < 32) (s : State) (a : Nat) : (s.setFlag a F).bit a F = true := by
  rw [State.bit, State.fld, State.reg_setFlag, if_pos rfl, Fld.get_put_same (by omega), hF]
  rfl

theorem exec_tmrCompare {s : State} {n k u : Nat} (hn : n < 16) (harmed : (s.tmr n).armed = some (k, u))
    (hcome : k < s.time.tick ∨ (k = s.time.tick ∧ u ≤ s.time.sub)) :
    exec (.tmrCompare n) s = .next ((s.tmrCompared n).unitEvent 4 n 0x16 [n]) := by
  have hago : ¬(16 ≤ n ∨ stampBeforeStamp (s.time.tick, s.time.sub) (k, u) = true) := by
    simp only [stampBeforeStamp, decide_eq_true_eq]; omega
  simp only [exec, execTmrCompare, harmed, hago, if_false]
  rfl

theorem exec_tmrPulseEnd {s : State} {n e : Nat} (hend : (s.tmr n).pulseEnd = some e) (hcome : e ≤ s.time.now) :
    exec (.tmrPulseEnd n) s = .next (s.setTmr n { s.tmr n with out := false, pulseEnd := none }) := by
  simp only [exec, execTmrPulseEnd, hend, Nat.not_lt.mpr hcome, if_false]

/-! ### Trigger lines (R501, R505) -/

/-- The ball of a line at a level, before TRIG_LEVEL follows. -/
def State.ballAt (s : State) (i : Nat) (l : Bool) : State :=
  { s with pins := { s.pins with lines := FMap.set (fun _ => false) s.pins.lines i l } }

theorem State.lineLevel_ballAt (s : State) (i : Nat) (l : Bool) :
    (s.ballAt i l).lineLevel i = (l != (bitOf (s.cur trigIn trigIn_INV) i == 1)) := by
  unfold State.lineLevel State.ballAt
  rw [FMap.get_set_same]
  rfl

theorem State.setLine_eq (s : State) (i : Nat) (l : Bool) : s.setLine i l = (s.ballAt i l).setReg trigLevel
    (Fld.put ⟨i, i⟩ (s.reg trigLevel) (flag (l != (bitOf (s.cur trigIn trigIn_INV) i == 1)))) := by
  rw [← State.lineLevel_ballAt]
  rfl

/-- A line whose ball takes a level shows it, and the streams that it triggers leave it so. -/
theorem State.lineLevel_rise (s0 s : State) (i : Nat) (l : Bool) (src : Nat) :
    (s0.riseTriggers (s.setLine i l) src).lineLevel i = (l != (bitOf (s.cur trigIn trigIn_INV) i == 1)) := by
  have hrest := s0.onlyCaptures_riseTriggers (s.setLine i l) src
  have hcur : (s.setLine i l).cur trigIn trigIn_INV = (s.ballAt i l).cur trigIn trigIn_INV := by
    rw [State.setLine_eq, State.cur, State.oldReg, State.reg_setReg_other _ _ (by decide)]
    rfl
  have hpins : (s.setLine i l).pins = (s.ballAt i l).pins := rfl
  rw [State.lineLevel, hrest.pins, hrest.cur (by decide), hcur, hpins]
  exact s.lineLevel_ballAt i l

theorem State.trigIn_rise (s0 s : State) (i : Nat) (l : Bool) (src : Nat) (F : Fld) :
    (s0.riseTriggers (s.setLine i l) src).fld trigIn F = s.fld trigIn F := by
  rw [State.fld, (s0.onlyCaptures_riseTriggers _ src).1 _ (by decide), State.setLine_eq, State.reg_setReg_other _ _ (by decide)]
  rfl

/-- TRIGGER_LINE_EDGE by the level that the trigger logic saw and the one that it sees. -/
theorem exec_triggerLineEdge {s : State} {i : Nat} {l new : Bool} (hi : i < 8) (hnew : new = (l != (bitOf (s.cur trigIn trigIn_INV) i == 1))) :
    let u := s.riseTriggers (s.setLine i l) (0xD0 + i)
    exec (.triggerLineEdge i l) s = .next
      (if !s.lineLevel i && new && bitOf (s.fld trigIn trigIn_RISE_EN) i == 1 then u.raise (848 + i) 1
        else if s.lineLevel i && !new && bitOf (s.fld trigIn trigIn_FALL_EN) i == 1 then u.raise (848 + i) 2 else u) := by
  subst hnew
  simp only [exec, execTriggerLineEdge, State.onlyIf, hi, decide_true, if_true, State.lineLevel_rise, State.trigIn_rise]

/-- The sources of the trigger lines are those of every part (R455). -/
theorem Tells.raise_line (u : State) {i : Nat} (hi : i < 8) (rsn : Nat) : Tells u [] (848 + i) rsn [] 15 (u.raise (848 + i) rsn) :=
  (sets_refl u).raise _ _ _ _ (sourcePresent_of_ge (by omega) (by omega))

/-! ### Pin trigger inputs and trigger outputs of saggers (R318, R502) -/

theorem exec_ptiEdge {s : State} {k p : Nat} (hk : k < 16) (hfed : s.feeder (5, k, 0) = some p) (l : Bool) :
    exec (.ptiEdge k l) s = .next (s.setFld trigLevel ⟨16 + k, 16 + k⟩ (flag l)) := by
  simp [exec, execPtiEdge, State.onlyIf, hk, hfed]

theorem exec_saggerTriggerOutputEdge {s : State} {g i : Nat} (hg : g < s.part.saggers) (hi : i < 8) (hlive : s.outLive g = true) (l : Bool) :
    exec (.saggerTriggerOutputEdge g i l) s
      = .next { s with pins := { s.pins with outs := FMap.set (fun _ => false) s.pins.outs (8 * g + i) l } } := by
  have htrip : s.boot.trip = false := by
    simp only [State.outLive, Bool.and_eq_true, Bool.not_eq_true'] at hlive
    exact hlive.2
  simp only [exec, execSaggerTriggerOutputEdge, State.onlyIf, State.hasSagger_eq_true hg, hi, State.clocked, htrip, hlive, Bool.not_false,
    decide_true, Bool.and_self, if_true]

/-- Settles O43: each clause is the lemma that says what its command does; pads, conflicts and capture streams stand apart from timers and
lines. -/
theorem timersAndTriggers : Obligations.TimersAndTriggers := by
  unfold Obligations.TimersAndTriggers
  refine fun s => ⟨fun n v at_ hn ho hedge hat => ?write, fun n k u x hn hx harmed hcome => ?compare, fun n e hend hcome => ?pulse,
    fun i l new hi hnew => ?line, fun l => ?star, fun k l p hk hfed => ?pti, fun g i l hg hi hlive => ?output⟩
  case write =>
    obtain rfl : at_ = s.compareStamp n := hat
    have hdrop := (s.tmrLoaded n v).onlyPads_dropPti
    obtain ⟨hothers, htime, hreg⟩ := s.tmrLoaded_frame n v
    have hctrl : (s.tmrLoaded n v).dropPti.reg (tmrCtrl n) = tmrCtrlDesc.write (s.reg (tmrCtrl n)) v :=
      (hdrop.1 _ (by unfold tmrCtrl; omega)).trans hreg
    refine ⟨_, exec_tmrCtrlWrite hn ho hedge, fun k hne => (hdrop.tmr k).trans (hothers k hne), hdrop.time.trans htime, ?_, ?_,
      fun hen hmode => ⟨fun hahead => ?_, fun hlate => ⟨?_, ?_⟩⟩, fun hen => ?_⟩
    · rw [State.fld, hctrl, Desc.get_write (by decide)]
    · rw [State.fld, hctrl, Desc.get_write (by decide)]
    · rw [hdrop.tmr, s.tmrLoaded_of_ahead hen hmode hahead, State.tmr_setTmr, if_pos rfl]
    · rw [hdrop.tmr, s.tmrLoaded_of_late hen hmode hlate, State.tmr_setFlag, State.tmr_setTmr, if_pos rfl]
    · have hstatus : (s.tmrLoaded n v).dropPti.bit (tmrStatus n) tmrStatus_LATE = (s.tmrLoaded n v).bit (tmrStatus n) tmrStatus_LATE := by
        rw [State.bit, State.fld, hdrop.1 _ (by unfold tmrStatus; omega), State.bit, State.fld]
      rw [hstatus, s.tmrLoaded_of_late hen hmode hlate, State.bit_setFlag (by decide) (by decide)]
    · rw [hdrop.tmr, s.tmrLoaded_of_off hen, State.tmr_setTmr, if_pos rfl]
  case compare =>
    subst hx
    have htmr (m : Nat) : ((s.tmrCompared n).unitEvent 4 n 0x16 [n]).tmr m = if m = n then s.tmrFired n else s.tmr m :=
      (State.tmr_unitEvent ..).trans (s.tmr_tmrCompared n m)
    refine ⟨_, exec_tmrCompare hn harmed hcome, fun m hne => (htmr m).trans (if_neg hne), ?_, fun hpulse => ?_, fun htoggle => ?_,
      fun p hp => heard_unitEvent (s := s.tmrCompared n) hp 0x16 [n]⟩
    · rw [State.bit_unitEvent, State.tmrCompared, State.bit_setFlag (by decide) (by decide)]
    · rw [htmr, if_pos rfl, State.tmrFired, if_pos hpulse]
    · rw [htmr, if_pos rfl, State.tmrFired, if_neg htoggle]
  case pulse => exact ⟨_, exec_tmrPulseEnd hend hcome, s.tmr_setTmr n _, rfl⟩
  case line =>
    intro lined u
    have hu : u = s.riseTriggers (s.setLine i l) (0xD0 + i) := by rw [State.setLine_eq, ← hnew]; rfl
    clear_value u
    subst hu
    rw [exec_triggerLineEdge hi hnew]
    refine ⟨fun hlow hhigh hen => ?_, fun hhigh hlow hen => ?_, fun hquiet => ?_⟩
    · rw [if_pos (by simp [hlow, hhigh, hen])]
      exact ⟨_, rfl, Tells.raise_line _ hi 1⟩
    · rw [if_neg (by simp [hhigh]), if_pos (by simp [hlow, hhigh, hen])]
      exact ⟨_, rfl, Tells.raise_line _ hi 2⟩
    · obtain hsame | ⟨hhigh, hoff⟩ | ⟨hlow, hoff⟩ := hquiet
      · rw [hsame, if_neg (by simp), if_neg (by simp)]
      · rw [if_neg (by simp [hoff]), if_neg (by simp [hhigh])]
      · rw [if_neg (by simp [hlow]), if_neg (by simp [hoff])]
  case star =>
    show Host.Outcome.next (s.riseTriggers (s.setLine 8 l) 0xD8) = _
    rw [State.setLine_eq]
    rfl
  case pti => exact ⟨_, exec_ptiEdge hk hfed l, (sets_refl s).setFld _ _ _⟩
  case output => exact ⟨_, exec_saggerTriggerOutputEdge hg hi hlive l, fun k => FMap.get_set .., rfl⟩

end Sys2Proof.Machine
end
